-- ==== Sys2Proof/Word.lean ====
section
/-!
DEFINITION. Sys2Proof/Word.lean: the word types of the manual (R10) and the sparse table type.
-/

namespace Sys2Proof

/-- A byte. -/
abbrev Byte := BitVec 8

/-- A 32-bit register or field word (R10). -/
abbrev Word := BitVec 32

/-- A 64-bit value: fleet times, Jarend registers. -/
abbrev DWord := BitVec 64

/-- A sparse table: pairs of a key and a value, keys strictly rising, no pair that equals
what an unlisted key reads as. -/
abbrev Tbl (α : Type) := List (Nat × α)

end Sys2Proof
end

