-- ==== Sys2Proof/Syntax.lean ====
section
/-!
DEFINITION. Sys2Proof/Syntax.lean: the commands the two parts take, one constructor per row of the opcode table,
and the data their operands carry. Fields that the spec gives a width carry that width.
-/

namespace Sys2Proof

/-- The part that a command addresses, where both parts have the register. -/
inductive Part where
  | leaf
  | pz
deriving DecidableEq, Repr, Inhabited

/-- How an access reaches a register port (Table 2.6): world bit `rp_ns`, requester `rp_src`, size `rp_size`.
On PCIe the world comes from the address (R382) and `ns` is not used; `side` marks an access that no numbered requester makes: the I3C sideband of Polornaz (R403), a WRITE record at
the leaf (R326). -/
structure Port where
  ns   : Bool
  src  : BitVec 4
  size : BitVec 2
  side : Bool
deriving DecidableEq, Repr, Inhabited

/-- Counts of a bank front-end over the edges since the last command of that bank, the command's own edge
included (R38, R63): edges of `ev_clk[b]`, and edges on which each of the 64 lines was high. -/
structure EdgeCounts where
  edges : Nat
  lines : List (BitVec 6 × Nat)
deriving DecidableEq, Repr, Inhabited

/-- Strobes of one stream on one edge (Table 2.3). -/
structure Strobe where
  stream : BitVec 4
  fin    : Bool
  start  : Bool
  id     : BitVec 24
deriving DecidableEq, Repr, Inhabited

/-- KIND of an Inkline (Table 6.2, INK). -/
structure Kind where
  stop   : Bool
  ckpt   : Bool
  commit : Bool
deriving DecidableEq, Repr, Inhabited

/-- HELLO (Table 6.2). -/
structure HelloMsg where
  fleet    : Word
  version  : Byte
  pos      : BitVec 6
  eligible : Bool
  mpri     : BitVec 4
deriving DecidableEq, Repr, Inhabited

/-- TICK (Table 6.2): carried time in ns, its fraction in 1/16 ns, hops. -/
structure TickMsg where
  time : DWord
  frac : BitVec 4
  hops : Byte
deriving DecidableEq, Repr, Inhabited

/-- STATE (Table 6.2). -/
structure StateMsg where
  mpos    : BitVec 6
  mfleet  : Word
  epoch   : Word
  cfg     : BitVec 16
  effMin  : BitVec 4
  nextMin : BitVec 4
  stop    : Bool
  ring    : Bool
  sub     : Bool
  lastCut : Word
  waveF   : BitVec 7
  members : BitVec 7
deriving DecidableEq, Repr, Inhabited

/-- ELECT (Table 6.2). -/
structure ElectMsg where
  pos   : BitVec 6
  mpri  : BitVec 4
  epoch : Word
  cfg   : BitVec 16
  minor : BitVec 4
deriving DecidableEq, Repr, Inhabited

/-- INK (Table 6.2): epoch, fleet time in ns, KIND, config epoch when COMMIT. -/
structure InkMsg where
  epoch : Word
  time  : DWord
  kind  : Kind
  cfg   : BitVec 16
deriving DecidableEq, Repr, Inhabited

/-- REPORT (Table 6.2). -/
structure ReportMsg where
  pos     : BitVec 6
  fleet   : Word
  version : Byte
  cfg     : BitVec 16
  epoch   : Word
  servo   : BitVec 3
  untimed : Bool
  late    : Bool
  catchup : Bool
  stopped : Bool
  idle    : Bool
deriving DecidableEq, Repr, Inhabited

/-- ALARM (Table 6.2). -/
structure AlarmMsg where
  pos   : BitVec 6
  code  : BitVec 16
  aseq  : BitVec 16
  time  : Word
  epoch : Byte
deriving DecidableEq, Repr, Inhabited

/-- One feature record of a WAVE (Table 6.2). -/
structure WaveRec where
  count : BitVec 16
  sum   : BitVec 48
  kmin  : Word
  kmax  : Word
deriving DecidableEq, Repr, Inhabited

/-- WAVE (Table 6.2). -/
structure WaveMsg where
  tstamp : Word
  epoch  : Word
  cfg    : BitVec 16
  mask   : DWord
  exCfg  : Byte
  exTime : Byte
  exEp   : Byte
  recs   : List WaveRec
  bad    : Bool
  drop   : Bool
deriving DecidableEq, Repr, Inhabited

/-- A Reed message (Table 6.2), as sent or queued. -/
inductive ReedMsg where
  | hello (m : HelloMsg)
  | hop (z : BitVec 16) (toward : Bool)
  | tick (m : TickMsg)
  | state (m : StateMsg)
  | elect (m : ElectMsg)
  | ink (m : InkMsg)
  | flush (alarmClass : Bool) (ep : BitVec 16)
  | report (m : ReportMsg)
  | abdicate (pos : BitVec 6)
  | alarm (m : AlarmMsg)
  | wave (m : WaveMsg)
deriving DecidableEq, Repr

/-- A cell (Table 7.1) with the residence that travels beside it. `ccrc` is the field as received or sent. -/
structure Cell where
  fleet   : Word
  cls     : BitVec 3
  som     : Bool
  eom     : Bool
  mark    : Bool
  cidx    : Byte
  mseq    : BitVec 16
  ink     : Word
  ty      : Byte
  payload : List Byte
  ccrc    : BitVec 16
  resid   : Word
deriving DecidableEq, Repr, Inhabited

/-- A whole message of an uplink class: TYPE, epoch and body bytes (Table 7.2). -/
structure Message where
  fleet : Word
  cls   : BitVec 3
  ty    : Byte
  ink   : Word
  mark  : Bool
  body  : List Byte
deriving DecidableEq, Repr, Inhabited

/-- A time cell's content and its `ul_rx_resid` (Table 5.2): times in ns with a fraction of 1/16 ns,
given in 1/16 ns; `t2` is the leaf's stamp of the first beat. -/
structure TimeCell where
  t1   : Nat
  t4   : Nat
  rUp  : Word
  rDn  : Word
  fseq : BitVec 16
  asym : Word
  t2   : Nat
deriving DecidableEq, Repr, Inhabited

/-- What becomes of one blow of a Peat log slot (R348): stored and verified; read-back differs; interrupted
before COMMIT starts; interrupted during the COMMIT blow, which then reads blown or not. -/
inductive Blow where
  | ok
  | differs
  | cutBefore
  | cutDuring (blown : Bool)
deriving DecidableEq, Repr

/-- The persistent fields of the leaf that an RWP write or the device stores (Table 15.5). -/
inductive PeatReg where
  | fleet
  | oos
  | health
  | trim
  | seed
deriving DecidableEq, Repr

/-- Where an uncorrectable or corrected code word lies in a leaf (Table 17.1). -/
inductive LeafArray where
  | prog (page : BitVec 6) (cw : BitVec 8)
  | sample (bank : BitVec 4)
  | frame (fseq : BitVec 16) (cw : BitVec 6)
  | model (page : BitVec 6) (cw : BitVec 8)
  | tap (t : BitVec 2)
  | inkwell (r : BitVec 2) (seq : Word)
  | other
deriving DecidableEq, Repr

/-- What the tray says of a test round (R202, R205): nothing, clean, charged, or in dispute and to be repeated. -/
inductive RoundFate where
  | none
  | clean
  | charged
  | disputed
deriving DecidableEq, Repr

/-- A health update from the tray (R205, R206): the unit's state, conditional cell, CLEAN, and a round's outcome. -/
structure HealthMsg where
  unit  : BitVec 4
  state : BitVec 2
  cond  : Bool
  ctbin : BitVec 3
  csig  : BitVec 4
  clean : BitVec 4
  round : BitVec 16
  fate  : RoundFate
deriving DecidableEq, Repr

/-! ## Jarend -/

/-- Where an instruction runs: the Quill engine of the leaf, or a context of a Polornaz station. -/
inductive Engine where
  | quill
  | station (st : BitVec 6) (ctx : BitVec 2)
deriving DecidableEq, Repr

/-- Format A (Table 10.7) without OP and FN. -/
structure FmtA where
  rd : BitVec 5
  ra : BitVec 5
  rb : BitVec 5
deriving DecidableEq, Repr

/-- Format I: IMM16 as it stands in the word. -/
structure FmtI where
  rd  : BitVec 5
  ra  : BitVec 5
  imm : BitVec 16
deriving DecidableEq, Repr

/-- Format I of opcode 0x06: the count IMM16[5:0] and the bits IMM16[15:8] that shall be zero (R250). -/
structure FmtS where
  rd : BitVec 5
  ra : BitVec 5
  hi : BitVec 8
  n  : BitVec 6
deriving DecidableEq, Repr

/-- Format M without SZ: OFF14 in units of the access size. -/
structure FmtM where
  r   : BitVec 5
  ra  : BitVec 5
  off : BitVec 14
deriving DecidableEq, Repr

/-- Format B: OFF16 in instructions. -/
structure FmtB where
  ra  : BitVec 5
  rb  : BitVec 5
  off : BitVec 16
deriving DecidableEq, Repr

/-- Format X without FN12's function code: SEL and FN12[11:9], which only opcode 0x33 uses. -/
structure FmtX where
  rd  : BitVec 5
  ra  : BitVec 5
  sel : BitVec 4
  km  : BitVec 3
deriving DecidableEq, Repr

/-- Format C without FN. -/
structure FmtC where
  rd   : BitVec 5
  ra   : BitVec 5
  idx  : BitVec 8
  slot : BitVec 4
deriving DecidableEq, Repr

/-- Format V without FN. -/
structure FmtV where
  vd : BitVec 4
  va : BitVec 4
  vb : BitVec 4
  km : BitVec 3
deriving DecidableEq, Repr

/-- Format W without ST: OFF13 in units of 256 bytes. -/
structure FmtW where
  v   : BitVec 4
  ra  : BitVec 5
  km  : BitVec 3
  off : BitVec 13
deriving DecidableEq, Repr

/-! ## Configuration messages (Tables 14.2 and 14.7) -/

/-- Header of a configuration message without OP and arguments. -/
structure CtlHead where
  tag    : BitVec 24
  cseq   : BitVec 16
  cfg    : BitVec 16
  sender : Word
deriving DecidableEq, Repr

/-- A record of a leaf image (Table 14.7). -/
inductive ImgRec where
  | write (off : BitVec 16) (ws : List Word)
  | page (page : BitVec 6) (off : BitVec 11) (ws : List Word)
deriving DecidableEq, Repr

/-- An acknowledgement as received (Table 14.4). -/
structure AckMsg where
  op      : Byte
  status  : Byte
  cseq    : BitVec 16
  cfg     : BitVec 16
  detail  : BitVec 16
  sender  : Word
  ready   : BitVec 16
  missing : BitVec 16
  list    : List Word
deriving DecidableEq, Repr

/-- Where patrol scrub reads its next code word (R391): in the leaf, with the array that holds it, in Polornaz SRAM, in
Polornaz DRAM. -/
inductive ScrubWord where
  | leaf (a : LeafArray)
  | sram
  | dram
deriving DecidableEq, Repr

/-! ## PTP (IEEE 1588-2019) -/

/-- What an Announce tells of its grandmaster and sender, in the order in which the default best master clock algorithm
compares it. -/
structure Announce where
  gm       : DWord
  prio1    : Byte
  clsAccVar : Word
  prio2    : Byte
  steps    : BitVec 16
  sender   : DWord
  port     : BitVec 16
deriving DecidableEq, Repr, Inhabited

/-- A PTP message as sent: times and corrections in 1/16 ns. -/
inductive PtpMsg where
  | sync (seq : BitVec 16) (origin : Nat)
  | announce (a : Announce) (seq : BitVec 16)
  | delayReq (seq : BitVec 16)
  | delayResp (seq : BitVec 16) (rcpt : DWord) (received : Nat)
deriving DecidableEq, Repr

/-- The commands, one constructor per row of the opcode table: the Jarend instructions, then the rest in the
table's order. -/
inductive Instr where
  /-- ADD (R250). rd = g[ra] + g[rb] modulo 2^64. -/
  | add (e : Engine) (f : FmtA)
  /-- SUB (R250). rd = g[ra] − g[rb] modulo 2^64. -/
  | sub (e : Engine) (f : FmtA)
  /-- AND (R250). rd = bitwise AND. -/
  | and (e : Engine) (f : FmtA)
  /-- OR (R250). rd = bitwise OR. -/
  | or (e : Engine) (f : FmtA)
  /-- XOR (R250). rd = bitwise XOR. -/
  | xor (e : Engine) (f : FmtA)
  /-- SHL (R250). Left shift by g[rb][5:0]. -/
  | shl (e : Engine) (f : FmtA)
  /-- SHR (R250). Logical right shift by g[rb][5:0]. -/
  | shr (e : Engine) (f : FmtA)
  /-- SRA (R250). Arithmetic right shift by g[rb][5:0]. -/
  | sra (e : Engine) (f : FmtA)
  /-- MUL (R250). Low 64 bits of the product. -/
  | mul (e : Engine) (f : FmtA)
  /-- MULH (R250). High 64 bits of the signed product. -/
  | mulh (e : Engine) (f : FmtA)
  /-- MULHU (R250). High 64 bits of the unsigned product. -/
  | mulhu (e : Engine) (f : FmtA)
  /-- MIN (R250). Signed minimum. -/
  | min (e : Engine) (f : FmtA)
  /-- MAX (R250). Signed maximum. -/
  | max (e : Engine) (f : FmtA)
  /-- MINU (R250). Unsigned minimum. -/
  | minu (e : Engine) (f : FmtA)
  /-- MAXU (R250). Unsigned maximum. -/
  | maxu (e : Engine) (f : FmtA)
  /-- SLT (R250). rd = 1 when g[ra] < g[rb], signed. -/
  | slt (e : Engine) (f : FmtA)
  /-- SLTU (R250). rd = 1 when g[ra] < g[rb], unsigned. -/
  | sltu (e : Engine) (f : FmtA)
  /-- SEQ (R250). rd = 1 when g[ra] = g[rb]. -/
  | seq (e : Engine) (f : FmtA)
  /-- ADDI (R250). rd = g[ra] + sign-extended immediate. -/
  | addi (e : Engine) (f : FmtI)
  /-- ANDI (R250). AND with a zero-extended immediate. -/
  | andi (e : Engine) (f : FmtI)
  /-- ORI (R250). OR with a zero-extended immediate. -/
  | ori (e : Engine) (f : FmtI)
  /-- XORI (R250). XOR with a zero-extended immediate. -/
  | xori (e : Engine) (f : FmtI)
  /-- SHLI (R250). Left shift by an immediate count. -/
  | shli (e : Engine) (f : FmtS)
  /-- SHRI (R250). Logical right shift by an immediate count. -/
  | shri (e : Engine) (f : FmtS)
  /-- SRAI (R250). Arithmetic right shift by an immediate count. -/
  | srai (e : Engine) (f : FmtS)
  /-- LUI (R250). rd = sign-extended immediate × 2^16. -/
  | lui (e : Engine) (f : FmtI)
  /-- LD_B (R250). Zero-extending 1-byte load. -/
  | ldB (e : Engine) (f : FmtM)
  /-- LD_H (R250). Zero-extending 2-byte load. -/
  | ldH (e : Engine) (f : FmtM)
  /-- LD_W (R250). Zero-extending 4-byte load. -/
  | ldW (e : Engine) (f : FmtM)
  /-- LD_D (R250). 8-byte load. -/
  | ldD (e : Engine) (f : FmtM)
  /-- ST_B (R250). 1-byte store. -/
  | stB (e : Engine) (f : FmtM)
  /-- ST_H (R250). 2-byte store. -/
  | stH (e : Engine) (f : FmtM)
  /-- ST_W (R250). 4-byte store. -/
  | stW (e : Engine) (f : FmtM)
  /-- ST_D (R250). 8-byte store. -/
  | stD (e : Engine) (f : FmtM)
  /-- AMO_ADD (R250). Atomic add on an aligned SRAM word, returning the old value. -/
  | amoAdd (e : Engine) (f : FmtA)
  /-- AMO_MIN (R250). Atomic signed minimum. -/
  | amoMin (e : Engine) (f : FmtA)
  /-- AMO_MAX (R250). Atomic signed maximum. -/
  | amoMax (e : Engine) (f : FmtA)
  /-- AMO_MINU (R250). Atomic unsigned minimum. -/
  | amoMinu (e : Engine) (f : FmtA)
  /-- AMO_MAXU (R250). Atomic unsigned maximum. -/
  | amoMaxu (e : Engine) (f : FmtA)
  /-- AMO_SWAP (R250). Atomic swap. -/
  | amoSwap (e : Engine) (f : FmtA)
  /-- AMO_CAS (R250). Atomic compare and swap. -/
  | amoCas (e : Engine) (f : FmtA)
  /-- FENCE (R232). Waits until earlier stores and amos of the context are visible to every station. -/
  | fence (e : Engine) (f : FmtX)
  /-- BEQ (R251). Branch if equal. -/
  | beq (e : Engine) (f : FmtB)
  /-- BNE (R251). Branch if not equal. -/
  | bne (e : Engine) (f : FmtB)
  /-- BLT (R251). Branch if less, signed. -/
  | blt (e : Engine) (f : FmtB)
  /-- BGE (R251). Branch if greater or equal, signed. -/
  | bge (e : Engine) (f : FmtB)
  /-- BLTU (R251). Branch if less, unsigned. -/
  | bltu (e : Engine) (f : FmtB)
  /-- BGEU (R251). Branch if greater or equal, unsigned. -/
  | bgeu (e : Engine) (f : FmtB)
  /-- JAL (R251). Jump with link in g31. -/
  | jal (e : Engine) (off : BitVec 26)
  /-- JR (R251). Jump to a register address with link. -/
  | jr (e : Engine) (f : FmtA)
  /-- KEY_F32 (R252). fp32 to inkkey. -/
  | keyF32 (e : Engine) (f : FmtA)
  /-- KEY_F16 (R252). fp16 to inkkey. -/
  | keyF16 (e : Engine) (f : FmtA)
  /-- KEY_BF16 (R252). bf16 to inkkey. -/
  | keyBf16 (e : Engine) (f : FmtA)
  /-- KEY_S32 (R252). int32 to inkkey. -/
  | keyS32 (e : Engine) (f : FmtA)
  /-- KEY_U32 (R252). uint32 to inkkey. -/
  | keyU32 (e : Engine) (f : FmtA)
  /-- UNKEY_F32 (R252). Inkkey back to fp32. -/
  | unkeyF32 (e : Engine) (f : FmtA)
  /-- UNKEY_S32 (R252). Inkkey back to int32. -/
  | unkeyS32 (e : Engine) (f : FmtA)
  /-- CAP_CNT (R253). Reads a sampled counter. -/
  | capCnt (e : Engine) (f : FmtC)
  /-- CAP_START (R253). Reads a start-latch slot. -/
  | capStart (e : Engine) (f : FmtC)
  /-- CAP_END (R253). Reads an end-latch slot. -/
  | capEnd (e : Engine) (f : FmtC)
  /-- CAP_STRM (R253). Reads a STREAM-view slot. -/
  | capStrm (e : Engine) (f : FmtC)
  /-- CAP_VAL (R253). Reads a value-port hold. -/
  | capVal (e : Engine) (f : FmtC)
  /-- CAP_VTAG (R253). Reads a value port's type tag. -/
  | capVtag (e : Engine) (f : FmtC)
  /-- CAP_FRESH (R253). Reads a value port's FRESH bit. -/
  | capFresh (e : Engine) (f : FmtC)
  /-- CAP_UPD (R253). Reads a value port's update count. -/
  | capUpd (e : Engine) (f : FmtC)
  /-- CAP_TAGERR (R253). Reads and clears a value port's tag-error flag. -/
  | capTagerr (e : Engine) (f : FmtC)
  /-- FLD_W (R254). Writes a frame field in the channel's range. -/
  | fldW (e : Engine) (f : FmtC)
  /-- FLD_INV (R254). Marks a frame field invalid. -/
  | fldInv (e : Engine) (f : FmtC)
  /-- FLD_RD (R254). Reads a field written in this window. -/
  | fldRd (e : Engine) (f : FmtC)
  /-- RED_ADD (R255). Contributes a key and value to the frame's reduction wave. -/
  | redAdd (e : Engine) (f : FmtC)
  /-- TREE_LOCAL (R286). Traverses one tree of the local model over the window's fields. -/
  | treeLocal (e : Engine) (f : FmtX)
  /-- TREE_LAUNCH (R261). Launches one sample on every tree of a model and returns its tag. -/
  | treeLaunch (e : Engine) (f : FmtX)
  /-- TREE_WAIT (R261). Waits until launches up to a tag have their results. -/
  | treeWait (e : Engine) (f : FmtX)
  /-- TREE_SUM (R261). Pops n results and sums their scores. -/
  | treeSum (e : Engine) (f : FmtX)
  /-- EMIT_ALARM (R266). Raises an alarm with a program code, subject to credit. -/
  | emitAlarm (e : Engine) (f : FmtX)
  /-- EMIT_VERDICT (R292). Sends a verdict record, with BASIS set by the device. -/
  | emitVerdict (e : Engine) (f : FmtX)
  /-- EMIT_ADV (R265). Sends an advisory record. -/
  | emitAdv (e : Engine) (f : FmtX)
  /-- EMIT_TRACE (R267). Sends a program trace record. -/
  | emitTrace (e : Engine) (f : FmtX)
  /-- EMIT_REPLY (R268). Supplies the reply bytes of a popped PROG_MSG. -/
  | emitReply (e : Engine) (f : FmtX)
  /-- END (R237). Ends the activation or slice. -/
  | finish (e : Engine) (f : FmtX)
  /-- CSRR (R230). Reads a special register. -/
  | csrr (e : Engine) (f : FmtX)
  /-- CSRW (R230). Writes TNEXT. -/
  | csrw (e : Engine) (f : FmtX)
  /-- EP_CMP (R264). Compares an epoch with INKEP. -/
  | epCmp (e : Engine) (f : FmtX)
  /-- EP_WAIT (R264). Waits until INKEP reaches an epoch. -/
  | epWait (e : Engine) (f : FmtX)
  /-- EP_CFGCMP (R264). Compares a config epoch with CFGEP. -/
  | epCfgcmp (e : Engine) (f : FmtX)
  /-- VADD (R257). Vector add per lane. -/
  | vadd (e : Engine) (f : FmtV)
  /-- VSUB (R257). Vector subtract. -/
  | vsub (e : Engine) (f : FmtV)
  /-- VMUL (R257). Vector multiply, low 32 bits. -/
  | vmul (e : Engine) (f : FmtV)
  /-- VMIN (R257). Vector signed minimum. -/
  | vmin (e : Engine) (f : FmtV)
  /-- VMAX (R257). Vector signed maximum. -/
  | vmax (e : Engine) (f : FmtV)
  /-- VMINU (R257). Vector unsigned minimum. -/
  | vminu (e : Engine) (f : FmtV)
  /-- VMAXU (R257). Vector unsigned maximum. -/
  | vmaxu (e : Engine) (f : FmtV)
  /-- VAND (R257). Vector AND. -/
  | vand (e : Engine) (f : FmtV)
  /-- VOR (R257). Vector OR. -/
  | vor (e : Engine) (f : FmtV)
  /-- VXOR (R257). Vector XOR. -/
  | vxor (e : Engine) (f : FmtV)
  /-- VSHL (R257). Vector left shift. -/
  | vshl (e : Engine) (f : FmtV)
  /-- VSHR (R257). Vector logical right shift. -/
  | vshr (e : Engine) (f : FmtV)
  /-- VSRA (R257). Vector arithmetic right shift. -/
  | vsra (e : Engine) (f : FmtV)
  /-- VFADD (R257). Vector fp32 add. -/
  | vfadd (e : Engine) (f : FmtV)
  /-- VFMUL (R257). Vector fp32 multiply. -/
  | vfmul (e : Engine) (f : FmtV)
  /-- VCMP_EQ (R257). Lane-wise equal into a mask. -/
  | vcmpEq (e : Engine) (f : FmtV)
  /-- VCMP_LT (R257). Lane-wise signed less-than into a mask. -/
  | vcmpLt (e : Engine) (f : FmtV)
  /-- VCMP_LTU (R257). Lane-wise unsigned less-than into a mask. -/
  | vcmpLtu (e : Engine) (f : FmtV)
  /-- VCMP_GE (R257). Lane-wise signed greater-or-equal into a mask. -/
  | vcmpGe (e : Engine) (f : FmtV)
  /-- VCMP_GEU (R257). Lane-wise unsigned greater-or-equal into a mask. -/
  | vcmpGeu (e : Engine) (f : FmtV)
  /-- VLD (R257). Vector load of 64 lanes. -/
  | vld (e : Engine) (f : FmtW)
  /-- VST (R257). Vector store of 64 lanes. -/
  | vst (e : Engine) (f : FmtW)
  /-- VRED_SUM (R257). Sums the selected lanes. -/
  | vredSum (e : Engine) (f : FmtX)
  /-- VRED_MIN (R257). Signed minimum of the selected lanes. -/
  | vredMin (e : Engine) (f : FmtX)
  /-- VRED_MAX (R257). Signed maximum of the selected lanes. -/
  | vredMax (e : Engine) (f : FmtX)
  /-- VRED_MINU (R257). Unsigned minimum of the selected lanes. -/
  | vredMinu (e : Engine) (f : FmtX)
  /-- VRED_MAXU (R257). Unsigned maximum of the selected lanes. -/
  | vredMaxu (e : Engine) (f : FmtX)
  /-- VRED_CNT (R257). Counts the selected lanes. -/
  | vredCnt (e : Engine) (f : FmtX)
  /-- VKEY_F32 (R257). Per-lane fp32 inkkey. -/
  | vkeyF32 (e : Engine) (f : FmtV)
  /-- VKEY_F16 (R257). Per-lane fp16 inkkey. -/
  | vkeyF16 (e : Engine) (f : FmtV)
  /-- VKEY_BF16 (R257). Per-lane bf16 inkkey. -/
  | vkeyBf16 (e : Engine) (f : FmtV)
  /-- VKEY_S32 (R257). Per-lane int32 inkkey. -/
  | vkeyS32 (e : Engine) (f : FmtV)
  /-- VKEY_U32 (R257). Per-lane uint32 inkkey. -/
  | vkeyU32 (e : Engine) (f : FmtV)
  /-- VSPLAT (R257). Copies a scalar to every lane. -/
  | vsplat (e : Engine) (f : FmtX)
  /-- VINS (R257). Inserts a scalar into one lane. -/
  | vins (e : Engine) (f : FmtX)
  /-- VEXT (R257). Extracts one lane to a scalar. -/
  | vext (e : Engine) (f : FmtX)
  /-- VMOV (R257). Copies a vector register. -/
  | vmov (e : Engine) (f : FmtX)
  /-- STAT_MED (R258). Lower median of the non-NaN selected lanes. -/
  | statMed (e : Engine) (f : FmtX)
  /-- STAT_MAD (R258). Median and median absolute deviation of the selected lanes. -/
  | statMad (e : Engine) (f : FmtX)
  /-- STAT_QS_ADD (R298). Adds lanes to a quantile sketch, halving it at HALF_AT. -/
  | statQsAdd (e : Engine) (f : FmtX)
  /-- STAT_QS_Q (R299). Returns a sketch's key at a quantile. -/
  | statQsQ (e : Engine) (f : FmtX)
  /-- STAT_EWMA (R258). Updates per-lane EWMA means and variances. -/
  | statEwma (e : Engine) (f : FmtX)
  /-- STR_POP (R259). Removes and copies the oldest stream item, waiting while the stream is empty. -/
  | strPop (e : Engine) (f : FmtX)
  /-- STR_PEEK (R259). Copies the oldest item without removing it. -/
  | strPeek (e : Engine) (f : FmtX)
  /-- STR_SKIP (R259). Removes up to n oldest items. -/
  | strSkip (e : Engine) (f : FmtX)
  /-- STR_LEN (R259). Returns the number of items held. -/
  | strLen (e : Engine) (f : FmtX)
  /-- STR_PUSH (R259). Pushes 64 bytes into another slot's PEER stream. -/
  | strPush (e : Engine) (f : FmtX)
  /-- DG_LD (R262). Loads a digest body's sketch into a vector. -/
  | dgLd (e : Engine) (f : FmtX)
  /-- DG_DIFF (R262). Subtracts a body's sketch and returns the largest difference. -/
  | dgDiff (e : Engine) (f : FmtX)
  /-- DG_TOL (R263). Computes the tolerance t from a tolerance block. -/
  | dgTol (e : Engine) (f : FmtX)
  /-- RDX_ADD (R256). Adds lanes into a reduction block. -/
  | rdxAdd (e : Engine) (f : FmtX)
  /-- RDX_MIN (R256). Updates the reduction minimum keys. -/
  | rdxMin (e : Engine) (f : FmtX)
  /-- RDX_MAX (R256). Updates the reduction maximum keys. -/
  | rdxMax (e : Engine) (f : FmtX)
  /-- RDX_CLOSE (R256). Copies out and resets a reduction block. -/
  | rdxClose (e : Engine) (f : FmtX)
  /-- LEAF_POWER_ON_RESET (R56). Assertion of gl_por_n, or the supply falling below 0.55 V, resets the whole leaf as at power-on and discards everything held in its clocked elements. -/
  | leafPowerOnReset
  /-- LEAF_POWER_UP (R55). Release of gl_por_n runs steps 3 to 5 of the power-up sequence: code words are written, the Peat log is scanned and READY sets. -/
  | leafPowerUp
  /-- WARM_RESET (R56). gl_rst_n held low resets the registers and working state, keeps Inkwell and the Peat log, and re-runs steps 3 to 8. -/
  | warmReset (cause : BitVec 4) (torn : List (BitVec 2))
  /-- SUPPLY_MONITOR_RESET (R62). vdd_ao falling below 0.55 V acts as a power-on reset. -/
  | supplyMonitorReset
  /-- HOST_ISO_CHANGE (R51). A change of host_iso_n isolates or releases the host inputs and suspends or resumes the heartbeat watch. -/
  | hostIsoChange (level : Bool)
  /-- REFCLK_LOST (R52). When no refclk edge has arrived for the timeout, REFCLK_LOST sets, an alarm is raised and the leaf falls back to Reed ticks. -/
  | refclkLost
  /-- REFFREQ_WRITE (R107). A write of KHZ in range starts or rescales the time base. An out-of-range value is ignored. -/
  | reffreqWrite (p : Port) (data : Word)
  /-- FALLBACK_CALIBRATE (R108). Every 10 µs the fallback timer's rate is measured against refclk and the measurement is kept. -/
  | fallbackCalibrate (ratio : Nat)
  /-- PERIODIC_ITEM (R65). On the 256th bank edge after the last item, the front-end offers a transfer item carrying its pre-accumulated counts. -/
  | periodicItem (b : BitVec 4) (c : EdgeCounts)
  /-- STROBE_ITEM (R65). A command start or end strobe of a mapped stream makes the front-end send a transfer item, or count a latch overrun when no entry is free. -/
  | strobeItem (b : BitVec 4) (c : EdgeCounts) (st : List Strobe)
  /-- MARKER_ITEM (R66). An instant, Inkline or control marker is taken at a bank edge into an item, using a reserved entry or the marker hold. -/
  | markerItem (b : BitVec 4) (c : EdgeCounts) (st : List Strobe)
  /-- MARKER_HOLD_RELEASE (R66). A marker item waiting in the hold enters the crossing queue once an entry is free. -/
  | markerHoldRelease (b : BitVec 4)
  /-- CORE_APPLY_ITEM (R68). The core applies one transfer item: counts, end latches, start resets and latches, snapshot, sample and control, in that order. -/
  | coreApplyItem (b : BitVec 4)
  /-- EV_STOP_REQ (R40). The host asks to stop a bank clock, and the front-end starts flushing. -/
  | evStopReq (b : BitVec 4) (c : EdgeCounts) (st : List Strobe)
  /-- EV_STOP_ACK (R40). Once every sampled event and strobe has crossed, the front-end raises ev_stop_ack. -/
  | evStopAck (b : BitVec 4) (stopped : Bool)
  /-- EV_STOP_RELEASE (R40). Lowering ev_stop_req after the clock restarts makes ev_stop_ack fall. -/
  | evStopRelease (b : BitVec 4)
  /-- MARKER_TIMEOUT (R78). For a bank stopped without the handshake, the core takes the sample or snapshot itself after the timeout and sets HELD. -/
  | markerTimeout (b : BitVec 4)
  /-- CONTROL_WRITE_TIMEOUT (R72). A control write to a bank whose clock stopped without the handshake is acknowledged at the timeout, with CLR_PEND set. -/
  | controlWriteTimeout (b : BitVec 4)
  /-- CG_CONTROL_WRITE (R72). A write to EN, RST_START, LINE or OVF_IE of a counter group enqueues a control marker and is acknowledged once it enters. -/
  | cgControlWrite (g : BitVec 8) (slot : Option (BitVec 4)) (p : Port) (data : Word)
  /-- CG_CLEAR (R70). Writing CLR clears the group's nine counters through a control marker. -/
  | cgClear (g : BitVec 8) (p : Port) (data : Word)
  /-- CG_BIND (R73). Setting CMD_EN binds the group to a stream, or is refused with BIND_ERR when the stream is mapped to another bank. -/
  | cgBind (g : BitVec 8) (p : Port) (data : Word)
  /-- SPLIT_VALUE_LOW_READ (R11). A read of the lower half of a two-register value captures the whole value for the requester. -/
  | splitValueLowRead (part : Part) (p : Port) (addr : BitVec 26)
  /-- REGISTER_WRITE (R12). A write to a register with no row of its own sets its fields, subject to width, world and reserved-bit rules. -/
  | registerWrite (part : Part) (p : Port) (addr : BitVec 26) (data : Word)
  /-- VALUE_PORT_HANDSHAKE (R82). A completed value-port handshake replaces the port's value and tag, withdraws it, or sets the tag-error flag. -/
  | valuePortHandshake (i : BitVec 6) (tag : BitVec 3) (data : Word)
  /-- DIGEST_BEAT (R42). The tap front stage acknowledges a beat and buffers it, or discards and counts it when the buffer is full. -/
  | digestBeat (t : BitVec 2) (data : BitVec 256) (sop eop : Bool) (fmt : BitVec 3) (tid : BitVec 16)
  /-- DIGEST_ENGINE_BEAT (R182). The tap engine takes a buffered beat, opening, extending or closing a tensor digest. -/
  | digestEngineBeat (t : BitVec 2)
  /-- TEST_GRANT_IN (R199). A GRANT message from the test controller makes the leaf send RUN for a due unit. -/
  | testGrantIn (w : DWord) (full : Bool)
  /-- TEST_DONE (R203). A DONE message reports a unit's run, supplies the temperature and signature, or is ignored after an ABORT. -/
  | testDone (w : DWord) (full : Bool)
  /-- TEST_REFUSE (R203). A REFUSE message fails the round, and the leaf sends ABORT. -/
  | testRefuse (w : DWord) (full : Bool)
  /-- TEST_RESEND_IN (R47). A RESEND message from the controller makes the leaf resend its last message. -/
  | testResendIn (w : DWord) (full : Bool)
  /-- TEST_DUE (R198). A unit becomes due after its interval, and the leaf sends DUE and a test-due advisory. -/
  | testDue (u : BitVec 4)
  /-- TEST_OVERDUE (R204). A unit due for LATE hours becomes OVERDUE, and a Healthy unit moves to Watched. -/
  | testOverdue (u : BitVec 4)
  /-- TEST_LATE_ADVISORY (R204). Each hour a lateness advisory is sent for an overdue Watched or Suspect unit. -/
  | testLateAdvisory (u : BitVec 4)
  /-- TEST_ROUND_TIMEOUT (R203). A round without both DONEs within the window plus 1 ms is aborted and counted. -/
  | testRoundTimeout (u : BitVec 4)
  /-- HEARTBEAT_BEAT (R46). A counted hb_tog transition clears MISSED and recovers from HUNG with a record. -/
  | heartbeatBeat
  /-- HEARTBEAT_EXPIRY (R393). The heartbeat interval reaches PERIOD, MISSED gains one, and HUNG may set with a HANG record and alarm. -/
  | heartbeatExpiry
  /-- IRQ_IDLE_RISE (R374). A rising edge of irq_idle ends the running holdoff of its target. -/
  | irqIdleRise (k : BitVec 3) (stays : Bool)
  /-- HOLDOFF_EXPIRY (R374). A target's holdoff ends and ordinary sources become claimable. -/
  | holdoffExpiry (k : BitVec 3)
  /-- IRQ_CLAIM (R370). A read of GL_IRQ_CLAIM claims the best claimable source for the target and clears its counter. -/
  | irqClaim (k : BitVec 3) (p : Port)
  /-- IRQ_EOI (R371). A write to GL_IRQ_EOI ends service of the top stacked or ordinary source, or is counted in BADEOI. -/
  | irqEoi (k : BitVec 3) (p : Port) (data : Word)
  /-- UPLINK_CELL_START (R169). At a cell boundary, or when a cell becomes eligible, the leaf starts the next Alarm, Control or weighted cell and charges its buckets. -/
  | uplinkCellStart (par : Bool)
  /-- UL_SHP_WRITE (R168). A write to a class shaper sets its tokens to the new BURST. -/
  | ulShpWrite (c : BitVec 2) (p : Port) (data : Word)
  /-- UL_OVH_WRITE (R168). A write to OVH refills every class bucket and the ceiling. -/
  | ulOvhWrite (p : Port) (data : Word)
  /-- ALARM_CREDIT (R171). The leaf alarm bucket gains a credit and may send a pending SUPPRESSED alarm. -/
  | alarmCredit
  /-- FORWARD_CELL (R172). A chain master places a cell received on ul_rx into the forwarding store, drops it, or holds ul_rx_ready. -/
  | forwardCell (c : Cell)
  /-- TIME_CELL_RX (R109). A received time cell yields an offset sample that is applied to the servo or discarded. -/
  | timeCellRx (m : TimeCell)
  /-- PHASE_STEP (R117). A pending phase step is applied between windows, taking the markers of passed instants in order. -/
  | phaseStep
  /-- HOLD_EXPIRY (R116). HOLD runs out, the servo enters FREE and frames flag untimed. -/
  | holdExpiry
  /-- SOURCE_TIMEOUT (R114). A time source without recent samples or ticks stops being usable, and the leaf enters HOLD when none is left. -/
  | sourceTimeout (reed : Bool)
  /-- FRAME_INSTANT (R122). Aligned time reaches a multiple of P, and the TIME block issues an instant marker. -/
  | frameInstant
  /-- INKLINE_TIME (R147). Aligned time reaches a pending Inkline: snapshot, new epoch, STOP, CKPT, COMMIT and bank switch in one step. -/
  | inklineTime
  /-- CAPTURE_WINDOW_OPEN (R88). When every bank has applied the instant marker, the capture window opens and the first enabled channel starts its slice. -/
  | captureWindowOpen
  /-- WINDOW_DEADLINE (R88). At instant + P − 1 µs the running channel stops, later channels are skipped, and the frame closes. -/
  | windowDeadline
  /-- FRAME_CLOSE (R98). The frame is closed, checked, given its FSEQ and placed in the frame buffer. -/
  | frameClose
  /-- ARM_GO (R95). Writing GO starts the arming check of the inactive bank and clears any earlier arming. -/
  | armGo (p : Port) (data : Word)
  /-- ARM_CHECK_DONE (R95). The arming check ends, setting ARMED or ARM_FAIL with ARM_ERR. -/
  | armCheckDone
  /-- PROGRAM_WINDOW_WRITE (R94). A write through the program window stores into the inactive bank or constant pages, or is dropped with ACTWR or LIVEWR; it disarms an armed bank. -/
  | programWindowWrite (w : BitVec 11) (p : Port) (data : Word)
  /-- SLICE_WRITE (R94). A write to a slice entry reaches the inactive bank and disarms it when armed. -/
  | sliceWrite (c : BitVec 8) (p : Port) (data : Word)
  /-- LM_DIR_WRITE (R287). A write to a local directory entry starts a check on a free lane, is stored at once when VALID is 0, or is refused with BUSY. -/
  | lmDirWrite (w : BitVec 11) (p : Port) (data : Word)
  /-- LM_CHECK_DONE (R287). A local tree check ends, storing the entry or setting CHKFAIL. -/
  | lmCheckDone (lane : BitVec 3)
  /-- LM_CTL_WRITE (R288). A write to the local model control sets D or STAGE, is refused with DERR, or copies NEWID to LM_ID. -/
  | lmCtlWrite (off : BitVec 2) (p : Port) (data : Word)
  /-- REED_STALL (R131). A Reed phase that does not complete within 1 µs puts the port in DOWN and loses the message in transit. -/
  | reedStall (port : Bool) (lost : Option ReedMsg)
  /-- REED_TRAIN_RETRY (R131). Every 100 µs a DOWN port starts a training attempt with HELLO. -/
  | reedTrainRetry (port : Bool)
  /-- REED_HELLO (R131). A received HELLO starts or completes training, bringing the port UP or setting MAJOR_ERR. -/
  | reedHello (port : Bool) (m : HelloMsg) (crcOk : Bool)
  /-- REED_HOP (R112). A received HOP supplies the neighbour's turnaround for the hop delay and its TOWARD route bit. -/
  | reedHop (port : Bool) (z : BitVec 16) (toward : Bool) (crcOk : Bool) (q : Nat) (zown : Nat)
  /-- REED_TICK (R135). A received TICK gives a REED time sample, sets the hop count and is forwarded, or closes the ring at the master. -/
  | reedTick (port : Bool) (m : TickMsg) (crcOk : Bool) (hold : Nat) (q : Nat) (zown : Nat)
  /-- TICK_SEND (R135). At every multiple of 50 µs the master sends TICK and STATE on each UP port. -/
  | tickSend
  /-- ROUTE_TIMEOUT (R135). A port without a TICK for 4 tick intervals stops being used for routing. -/
  | routeTimeout (port : Bool)
  /-- MASTER_LOSS (R139). No TICK for 200 µs starts an election. -/
  | masterLoss
  /-- REED_ELECT (R139). A received ELECT updates the best candidate and the latest epochs, or makes a sitting master answer with STATE. -/
  | reedElect (port : Bool) (m : ElectMsg) (crcOk : Bool)
  /-- ELECTION_SETTLE (R139). A self-named candidate that hears of no better candidate for 100 µs becomes master. -/
  | electionSettle
  /-- REED_STATE (R157). A received STATE ends an election, brings the member up to date, or resolves two masters. -/
  | reedState (port : Bool) (m : StateMsg) (crcOk : Bool)
  /-- REED_ABDICATE (R139). A received ABDICATE starts an election. -/
  | reedAbdicate (port : Bool) (pos : BitVec 6) (crcOk : Bool)
  /-- ABDICATE_WRITE (R140). Writing ABDICATE makes a master give up its role. -/
  | abdicateWrite (p : Port) (data : Word)
  /-- UPLINK_STALL_ABDICATE (R140). A master whose uplink accepts no beat for 50 µs while it holds a cell abdicates. -/
  | uplinkStallAbdicate
  /-- ABDICATE_TIMEOUT (R140). 310 µs after a written abdication with no new master, the leaf becomes eligible again. -/
  | abdicateTimeout
  /-- REED_REPORT (R142). The master updates its member table from a received REPORT and may complete a cut. -/
  | reedReport (port : Bool) (m : ReportMsg) (crcOk : Bool)
  /-- REPORT_SEND (R142). A member queues a REPORT on joining, after an Inkline, on a change or every 4 tick intervals. -/
  | reportSend
  /-- REED_INK (R146). A received INK marker becomes pending, is ignored as a repeat, or is refused. -/
  | reedInk (port : Bool) (m : InkMsg) (crcOk : Bool)
  /-- INK_GO (R154). Writing GO issues a package-local Inkline from the lease, or is refused. -/
  | inkGo (p : Port) (data : Word)
  /-- REED_FLUSH (R149). A received FLUSH(E) is recorded for its class and port, and may complete the cut. -/
  | reedFlush (port : Bool) (alarmClass : Bool) (ep : BitVec 16)
  /-- REED_FLUSH_SEND (R149). Once T has passed and every upstream flush of its class has arrived, the leaf sends FLUSH(E) toward the master. -/
  | reedFlushSend (alarmClass : Bool)
  /-- CUT_TIMEOUT (R150). 400 µs after T the master closes the cut with TIMEOUT and sends the CUT report. -/
  | cutTimeout
  /-- REED_ALARM (R163). A received ALARM is forwarded toward the master, or is relayed by the master as an Alarm cell after de-duplication. -/
  | reedAlarm (port : Bool) (m : AlarmMsg) (crcOk : Bool)
  /-- REED_WAVE (R144). A received WAVE is held, folded with the leaf's contributions or passed on, or completed at the master. -/
  | reedWave (port : Bool) (m : WaveMsg) (crcOk : Bool)
  /-- REGISTRATION_TIMER (R22). While its fleet ID is zero, a leaf sends a registration message every second. -/
  | registrationTimer
  /-- PEAT_LOG_WRITE (R348). An RWP write blows a Peat log slot, or reports SAME, EXHAUSTED or FAILED. -/
  | peatLogWrite (reg : PeatReg) (p : Port) (data : Word) (blows : List Blow)
  /-- IW_CURSOR_WRITE (R345). Writing a SEQ to the cursor copies that record into the window and sets RES. -/
  | iwCursorWrite (part : Part) (p : Port) (data : Word)
  /-- IW_NEXT (R345). Writing NEXT moves the cursor to the next SEQ held and copies that record. -/
  | iwNext (part : Part) (p : Port) (data : Word)
  /-- IW_DUMP (R346). Writing DUMP queues a history dump of the selected recorder, or is refused with DREFUSED. -/
  | iwDump (p : Port) (data : Word)
  /-- HISTORY_DUMP_MESSAGE (R346). The running dump builds its next Bulk message of records, and ends with LOST on the last message. -/
  | historyDumpMessage
  /-- SCRUB_READ (R391). Patrol scrub reads the next code word, correcting it or recording it as uncorrectable. -/
  | scrubRead (w : ScrubWord) (raw : List Byte) (par : Bool)
  /-- CTL_WRITE (R326). A configuration WRITE applies its register records as secure accesses, or is acknowledged BADWRITE. -/
  | ctlWrite (h : CtlHead) (recs : List ImgRec)
  /-- CTL_ARM (R327). A configuration ARM arms the inactive bank, with COPY or FAR, and is acknowledged with the result. -/
  | ctlArm (h : CtlHead) (ep : Word) (pcode : BitVec 3) (copy far : Bool)
  /-- CTL_INK (R145). An INK relay makes a master put the marker on its ports and send it by fabric to unreachable members; a tray relays it down. -/
  | ctlInk (part : Part) (h : CtlHead) (m : InkMsg)
  /-- CTL_LEASE (R319). A LEASE request is answered with a grant, or a grant is taken as the holder's lease. -/
  | ctlLease (part : Part) (h : CtlHead) (grant : Bool) (base count : Word)
  /-- CTL_ASSIGN (R336). An ASSIGN sets the leaf's owning tag, phase and period in GL_CH_JOB. -/
  | ctlAssign (h : CtlHead) (rcpt : Word) (phase : Bool) (pcode : BitVec 3)
  /-- CTL_TEARDOWN (R331). A TEARDOWN names the teardown Inkline for the leaf and is acknowledged after it applies. -/
  | ctlTeardown (h : CtlHead) (rcpt epoch : Word)
  /-- CTL_SUBMASTER (R141). A SUBMASTER makes a master a sub-master of the registered master. -/
  | ctlSubmaster (h : CtlHead) (master : Word)
  /-- CTL_KEEPALIVE (R325). A KEEPALIVE refreshes the parent, child or chain-master silence timer. -/
  | ctlKeepalive (part : Part) (h : CtlHead) (epoch : Word) (cfg : BitVec 16)
  /-- CTL_REPARENT (R333). A REPARENT makes the new parent record the child and its chains, acknowledge, and send lease, epoch and prepare state. -/
  | ctlReparent (port : BitVec 5) (h : CtlHead) (old : Word) (partner standby : Bool)
  /-- CTL_RELAY (R242). A RELAY delivers a mailbox envelope and payload unchanged, or carries its reply back. -/
  | ctlRelay (port : BitVec 5) (h : CtlHead) (body : List Byte)
  /-- CTL_EPOCH (R318). An EPOCH request makes the root allocate a config epoch, or a grant delivers it. -/
  | ctlEpoch (port : BitVec 5) (h : CtlHead) (grant : Bool) (epoch : BitVec 16)
  /-- CTL_TCUT (R330). A TCUT report is merged into the parent's cut. -/
  | ctlTcut (port : BitVec 5) (h : CtlHead) (epoch : Word) (complete timedOut : BitVec 16) (missing : List Word)
  /-- CTL_PREPARE (R327). A PREPARE makes a tray load shadow state, send the leaf image and arm its leaves. -/
  | ctlPrepare (port : BitVec 5) (h : CtlHead) (payload : List Byte)
  /-- CTL_ALMACK (R333). An ALMACK acknowledges upward alarm records. -/
  | ctlAlmack (port : BitVec 5) (h : CtlHead) (pairs : List (Word × BitVec 16))
  /-- CTL_TGRANT (R200). A TGRANT gives the leaf a pending test grant for an Inkline, or is ignored. -/
  | ctlTgrant (h : CtlHead) (epoch : Word) (unit : BitVec 4) (all : Bool) (window : BitVec 24)
  /-- CONFIG_ACK_RX (R324). An acknowledgement stops the repeats of a message and feeds the aggregated acknowledgement. -/
  | configAckRx (part : Part) (m : AckMsg)
  /-- CONFIG_REPEAT (R324). An unacknowledged message is repeated, and after 2 ms its receiver is counted missing. -/
  | configRepeat (part : Part) (rcpt : Word) (cseq : BitVec 16)
  /-- KEEPALIVE_SEND (R325). Every 250 µs a Polornaz sends KEEPALIVE to its parent, its children and its chain masters. -/
  | keepaliveSend
  /-- PARENT_TIMEOUT (R333). No Control message from the parent for 2 ms starts re-parenting. -/
  | parentTimeout
  /-- CHILD_TIMEOUT (R325). No Control message from a child for 2 ms marks its subtree missing. -/
  | childTimeout (child : Word)
  /-- ALMACK_TIMEOUT (R333). An upward alarm record not acknowledged within 20 µs starts re-parenting. -/
  | almackTimeout
  /-- U0_LINK_FAULT (R333). A link fault on U0 starts re-parenting, and upward traffic is resent on U1. -/
  | u0LinkFault
  /-- REPARENT_TIMEOUT (R333). No acknowledgement 2 ms after REPARENT makes the device report PATH isolated. -/
  | reparentTimeout
  /-- REPARENT_RETRY (R333). An isolated device tries both ports every 10 ms. -/
  | reparentRetry
  /-- CF_RETURN (R333). Writing RETURN makes the device return to U0. -/
  | cfReturn (p : Port) (data : Word)
  /-- SUBMASTER_PROMOTE (R335). A registered master silent for 2 ms is replaced by its sub-master. -/
  | submasterPromote (port : BitVec 4)
  /-- PREPARE_TIMEOUT (R327). A partial prepare not accepted or cancelled within PREP_TO is abandoned as ABORTED. -/
  | prepareTimeout (tag : BitVec 24)
  /-- TRAY_CUT_TIMEOUT (R330). A tray cut not complete 2 ms after T closes with the missing parts listed, and TCUT is sent. -/
  | trayCutTimeout (epoch : Word)
  /-- REG_LEAF (R336). A leaf registration is accepted or refused, counts resets toward the out-of-service mark, and triggers ownership restore. -/
  | regLeaf (port : BitVec 4)
  /-- REG_MEMBER_REPORT (R336). Relayed member reports update liveness evidence and the routing entries. -/
  | regMemberReport (port : BitVec 4)
  /-- REG_POLORNAZ (R337). A child Polornaz registration is accepted or refused by version. -/
  | regPolornaz (port : BitVec 5)
  /-- CELL_INGRESS (R173). Polornaz checks an arriving cell, de-duplicates alarms, meters it and applies the colour's fate. -/
  | cellIngress (port : BitVec 5) (c : Cell) (ethOk : Bool) (came : Nat) (par : Bool)
  /-- CONTROL_ADMIT (R176). A Control cell waiting in the port queue is admitted when admission credit allows. -/
  | controlAdmit (port : BitVec 4)
  /-- INGRESS_FRAME (R220). A reassembled frame is looked up, flagged, given its extended TSTAMP and delivered to its home station. -/
  | ingressFrame (port : BitVec 4)
  /-- INGRESS_REDUCTION (R144). A reduction record is delivered to the home station's REDUCE stream. -/
  | ingressReduction (port : BitVec 4)
  /-- INGRESS_ALARM (R376). An alarm message goes to the alarm output stage and upward, or is dropped and recorded. -/
  | ingressAlarm (port : BitVec 5)
  /-- INGRESS_FLUSH (R330). An uplink FLUSH cell is recorded for the tray cut. -/
  | ingressFlush (port : BitVec 4) (cls : BitVec 3)
  /-- CUT_REPORT_RX (R330). A chain's CUT report is merged into the tray's cut, which may complete. -/
  | cutReportRx (port : BitVec 4)
  /-- TRACE_RECORD_RX (R192). A trace or digest record is stored, or forwarded to its Blotter home. -/
  | traceRecordRx (port : BitVec 5)
  /-- HISTORY_DUMP_RX (R346). Leaf records received in a dump are appended as LEAF_RECORD records. -/
  | historyDumpRx (port : BitVec 4)
  /-- SNAPSHOT_DRAIN_RX (R360). A leaf snapshot drain is placed in the leaf section, or discarded. -/
  | snapshotDrainRx (port : BitVec 4)
  /-- ALARM_OUTPUT (R376). The output stage writes the next queued alarm into the ring and posts vector 0 when space exists. -/
  | alarmOutput
  /-- AL_RPTR_WRITE (R376). The host advances the alarm ring read pointer, freeing space for queued alarms. -/
  | alRptrWrite (p : Port) (data : Word)
  /-- VD_RPTR_WRITE (R316). The host advances the record ring read pointer, letting held records be written. -/
  | vdRptrWrite (p : Port) (data : Word)
  /-- MB_RPTR_WRITE (R244). The host advances the reply ring read pointer, letting held replies be written. -/
  | mbRptrWrite (p : Port) (data : Word)
  /-- LIVENESS_EVAL (R308). Every VALID entry's liveness is re-evaluated, and LIVENESS verdicts are sent on changes. -/
  | livenessEval
  /-- LIVENESS_PROBE (R309). Each PROBE_MS the tray queries a Late or Mute leaf through its chain master. -/
  | livenessProbe (fleet : Word)
  /-- DISAGREE_TICK (R311). Each second of a disagreement the tray writes a record and sends a DISAGREE advisory. -/
  | disagreeTick (fleet : Word)
  /-- BLOTTER_RECORD (R193). A digest record joins its compare instance, which closes and is judged when every member has arrived. -/
  | blotterRecord (fleet : Word) (tag : BitVec 24) (epoch : Word) (body : List Byte)
  /-- BLOTTER_TIMEOUT (R193). An instance closes at TIMEOUT after its first record and is judged with its missing members. -/
  | blotterTimeout (tag : BitVec 24) (group : BitVec 16) (epoch : Word) (occ : Byte)
  /-- MAILBOX_COMMIT (R243). Writing OWN=1 commits a mailbox message for processing in commit order. -/
  | mailboxCommit (slot : BitVec 4) (p : Port) (word0 : Word)
  /-- PROG_LOAD (R245). A PROG_LOAD chunk is accepted; at the last chunk the image is checked and placed in the shadow copy. -/
  | progLoad
  /-- PROG_ENABLE (R237). PROG_CTL enable enables a slot and clears DISABLED. -/
  | progEnable
  /-- PROG_DISABLE (R242). PROG_CTL disable stops a slot's triggers. -/
  | progDisable
  /-- PROG_UNLOAD (R242). PROG_CTL unload empties a slot. -/
  | progUnload
  /-- MODEL_LOAD (R280). A MODEL_LOAD LOAD starts reading and checking a model image. -/
  | modelLoad
  /-- MODEL_LOAD_DONE (R281). The check and shadow copy of a model load end, and the reply is written. -/
  | modelLoadDone (model : Word)
  /-- MODEL_UNLOAD (R285). A MODEL_LOAD UNLOAD schedules unloading at its commit Inkline, or is refused with BUSY. -/
  | modelUnload
  /-- STAGE_REGION_DONE (R284). A staged region of a replacement model is copied and added to a die's active set, and advisories are sent. -/
  | stageRegionDone (model : Word) (die : BitVec 4)
  /-- GROUP_DECL (R192). A compare group declaration, or its second part, is recorded or refused. -/
  | groupDecl
  /-- CONFIG_ALLOC (R318). ALLOC returns a new config epoch. -/
  | configAlloc
  /-- CONFIG_START (R327). START prepares a job on its entries and commits it. -/
  | configStart
  /-- CONFIG_CHANGE (R327). CHANGE prepares new content on every chain of the job and commits it. -/
  | configChange
  /-- CONFIG_GROW (R332). GROW adds entries to the job under a new config epoch and re-stamps existing chains. -/
  | configGrow
  /-- CONFIG_SHRINK (R332). SHRINK tears down entries at T. -/
  | configShrink
  /-- CONFIG_TEARDOWN (R331). TEARDOWN tears down the whole job at its teardown Inkline. -/
  | configTeardown
  /-- CONFIG_ACCEPT (R327). ACCEPT commits a partial prepare without the missing leaves. -/
  | configAccept
  /-- CONFIG_CANCEL (R327). CANCEL abandons a pending prepare, or is refused with BUSY once commit has begun. -/
  | configCancel
  /-- CONFIG_INKLINE (R320). INKLINE issues an Inkline of the job at T with its KIND. -/
  | configInkline
  /-- CONFIG_RELEASE (R331). RELEASE acknowledges teardown on behalf of leaves and moves their ownership. -/
  | configRelease
  /-- TEST_GRANT (R200). A TEST_GRANT message is checked and relayed to the leaf as TGRANT. -/
  | testGrant
  /-- NOTICE_FENCE (R310). FENCE from the owning run-time fences a leaf at EFF_EP or on arrival. -/
  | noticeFence
  /-- NOTICE_UNFENCE (R310). UNFENCE returns a fenced leaf to its evaluated state. -/
  | noticeUnfence
  /-- NOTICE_TARGET (R305). TARGET sets the work target, cost and margin for straggler predictions. -/
  | noticeTarget
  /-- NOTICE_PRIOR (R296). PRIOR writes fleet prior entries into the Peat store and rebuilds the mirror. -/
  | noticePrior (verified : List (Bool × Bool))
  /-- NOTICE_PHASE (R312). A PHASE notice from the host is refused with BADTYPE. -/
  | noticePhase
  /-- PROG_MSG (R268). A PROG_MSG becomes one MBOX item of its destination slot, or is refused with FULL. -/
  | progMsg
  /-- TRAY_INKLINE (R245). At an Inkline on tray time Polornaz switches images, commits models, applies phase switches and fences, and starts snapshots. -/
  | trayInkline
  /-- SNAPSHOT_COPY_DONE (R359). The snapshot copy into DRAM completes. -/
  | snapshotCopyDone
  /-- LEAFWAIT_EXPIRY (R360). The leaf section closes LEAFWAIT after the Inkline with the missing leaves listed. -/
  | leafwaitExpiry
  /-- SNAPSHOT_DRAIN_DONE (R362). The image is drained to its host slot with HCRC last, and a CHECKPOINT advisory is sent. -/
  | snapshotDrainDone
  /-- RESTORE_GO (R363). GO checks a restore image and schedules it, or refuses it with RFAIL. -/
  | restoreGo (p : Port) (data : Word)
  /-- RESTORE_DONE (R363). The restore copy ends, and held slots resume dispatch. -/
  | restoreDone
  /-- PEAT_STORE_WRITE (R352). An RWP write to the Peat store is written and verified on both keepers, or fails with WORN or KEEPER. -/
  | peatStoreWrite (p : Port) (addr : BitVec 26) (data : Word) (v0 v1 : Bool)
  /-- PS_SAVE (R357). Writing SAVE saves keeper state to the older slot. -/
  | psSave (p : Port) (data : Word)
  /-- SAVEMIN_EXPIRY (R357). A keeper-state save held back by SAVEMIN is made when SAVEMIN expires. -/
  | saveminExpiry
  /-- PS_OOSCLR (R355). Writing a fleet ID to OOSCLR clears its out-of-service mark and tally. -/
  | psOosclr (p : Port) (data : Word)
  /-- TIME_CELL_SEND (R109). Every TXDIV frame periods the tray sends each leaf a marked time cell. -/
  | timeCellSend (fleet : Word) (t1 : Nat)
  /-- PTP_SYNC_RX (R118). A received Sync updates its PTP instance's offset estimate and servo. -/
  | ptpSyncRx (u dom : Bool) (seq : BitVec 16) (origin : Option Nat) (corr : Int) (t2 : Nat)
  /-- PTP_FOLLOW_UP_RX (R118). A received Follow_Up supplies a two-step origin timestamp. -/
  | ptpFollowUpRx (u dom : Bool) (seq : BitVec 16) (origin : Nat) (corr : Int)
  /-- PTP_DELAY_REQ_RX (R118). A master port answers a Delay_Req with Delay_Resp. -/
  | ptpDelayReqRx (port : BitVec 5) (dom : Bool) (seq : BitVec 16) (source : DWord) (t4 : Nat)
  /-- PTP_DELAY_RESP_RX (R118). A received Delay_Resp completes a path-delay measurement. -/
  | ptpDelayRespRx (u dom : Bool) (seq : BitVec 16) (received : Nat) (corr : Int)
  /-- PTP_ANNOUNCE_RX (R118). A received Announce feeds the BMCA, which may change port states and the selected domain. -/
  | ptpAnnounceRx (u dom : Bool) (a : Announce)
  /-- PTP_SYNC_SEND (R118). A master port sends Sync at its message interval. -/
  | ptpSyncSend (port : BitVec 5) (dom : Bool) (t1 : Nat)
  /-- PTP_ANNOUNCE_SEND (R118). A master port sends Announce at its message interval. -/
  | ptpAnnounceSend (port : BitVec 5) (dom : Bool)
  /-- PTP_DELAY_REQ_SEND (R118). A slave port sends Delay_Req at its message interval. -/
  | ptpDelayReqSend (u dom : Bool) (t3 : Nat)
  /-- HOLDOVER_THRESHOLD (R120). The holdover error estimate crosses 100 or 500 ns, setting OUT_OF_SPEC or UNTIMED and sending a TIME advisory. -/
  | holdoverThreshold
  /-- TOUT_PULSE (R127). A time output pulses at its PPS, PERIOD, INKLINE or ONESHOT time. -/
  | toutPulse (n : BitVec 2)
  /-- TOUT_ONESHOT_WRITE (R127). Writing a ONESHOT time already past sets MISSED. -/
  | toutOneshotWrite (n : BitVec 2) (high : Bool) (p : Port) (data : Word)
  /-- TRIGGER_INPUT_EDGE (R128). An edge on pz_tin is stamped and queued, or dropped and counted. -/
  | triggerInputEdge (n : BitVec 2) (rising : Bool) (time : Nat)
  /-- TIN_DATA_READ (R128). A read of TIN_DATA pops the oldest stamp and captures its high word. -/
  | tinDataRead (n : BitVec 2) (p : Port)
  /-- GOV_STEP (R222). The governor moves its level one step toward demand within the cap and ceiling, running ballast when demand falls. -/
  | govStep (demand : BitVec 7) (watts : BitVec 10)
  /-- SPEED_MONITOR (R221). Every 10 µs each die's speed monitor is read, and BELOW_FLOOR and SPEED_FLOOR follow. -/
  | speedMonitor (die : BitVec 4) (ratio : BitVec 16)
  /-- TEMP_SAMPLE (R414). Every 10 µs die temperatures are read; HOT, TEMP_HIGH or a thermal trip may follow. -/
  | tempSample (readings : List Byte)
  /-- THERM_TRIP_SHUTDOWN (R415). 50 µs after a trip the rail enables drop, with CAUSE 0x4. -/
  | thermTripShutdown
  /-- CEIL_STEP (R414). Each CEIL_STEP the level ceiling falls or rises by one according to temperature. -/
  | ceilStep
  /-- MESH_LINK_DOWN (R215). A stalled or corrupt mesh link is marked down, MESH_DEG sets and packets reroute. -/
  | meshLinkDown (src dst : BitVec 4) (lost : List (BitVec 4 × BitVec 4 × BitVec 3))
  /-- STATION_WATCHDOG (R395). A context waiting longer than WAIT is ended with the WATCHDOG fault. -/
  | stationWatchdog (st : BitVec 6) (ctx : BitVec 2)
  /-- STATION_STALL (R395). A station with no issue for 1 ms is cleared, recorded and raises STATION_HANG. -/
  | stationStall (st : BitVec 6)
  /-- ARRIVAL_AGE_EXPIRY (R235). The oldest item waiting AGE µs fires the arrival trigger. -/
  | arrivalAgeExpiry (st : BitVec 6) (slot : BitVec 4)
  /-- INKLINE_TRIGGER (R235). An Inkline on tray time matching INK_EPOCH or KMASK fires the slot's Inkline trigger. -/
  | inklineTrigger (st : BitVec 6) (slot : BitVec 4) (epoch : Word) (kind : Kind)
  /-- TIME_TRIGGER (R235). Tray time reaching the periodic, absolute or TNEXT time fires the slot's time trigger. -/
  | timeTrigger (st : BitVec 6) (slot : BitVec 4)
  /-- DISPATCH (R236). A free context takes the highest-priority pending slot and starts one activation. -/
  | dispatch (st : BitVec 6) (ctx : BitVec 2)
  /-- WAIT_COMPLETE (R239). A TW instruction's condition comes to hold (data, room, results, epoch or visibility), and it completes. -/
  | waitComplete (st : BitVec 6) (ctx : BitVec 2)
  /-- TREE_RESULT (R275). A launch's partial sums are combined, rounded and written as a result item to the TREE stream. -/
  | treeResult (st : BitVec 6) (slot : BitVec 4) (tag : BitVec 16)
  /-- STATION_ALARM_CREDIT (R266). A slot's alarm bucket gains a credit every 500 µs of tray time. -/
  | stationAlarmCredit (st : BitVec 6) (slot : BitVec 4)
  /-- BAR2_READ (R419). A BAR2 read returns memory, or zero, per code word under the window rules. -/
  | bar2Read (off : BitVec 29) (len : BitVec 13)
  /-- BAR2_WRITE (R419). A BAR2 write is stored or dropped per code word under the window rules. -/
  | bar2Write (off : BitVec 29) (data : List Byte)
  /-- PORT_MODE_WRITE (R399). Writing MODE takes a port down and retrains it in the new option. -/
  | portModeWrite (port : BitVec 5) (p : Port) (data : Word)
  /-- LINK_DROP (R399). A port's link drops, DOWNS counts and the port retrains. -/
  | linkDrop (port : BitVec 5)
  /-- LINK_UP (R399). A port's link comes up after training. -/
  | linkUp (port : BitVec 5)
  /-- PZ_POR_RISE (R409). pz_por_n rising starts the keeper boot and the power-up sequence. -/
  | pzPorRise (applied : Bool) (torn : List (Bool × BitVec 10))
  /-- RAIL_POWER_GOOD (R409). A rail's pz_pg rises, and after 100 µs the sequence proceeds to its next step. -/
  | railPowerGood (rail : BitVec 3)
  /-- POWER_UP_STEP_DONE (R409). A timed power-up step completes (self-test, training, DRAM fill or restore), and the next begins. -/
  | powerUpStepDone (dies : BitVec 16) (keepers : BitVec 2) (channels : BitVec 24)
  /-- RAIL_FAULT (R410). A power-good fall or a rail that fails to come up raises RAIL_FAULT and drops every enable. -/
  | railFault (rail : BitVec 3)
  /-- PZ_POR_FALL (R411). pz_por_n falling drops every enable in order. -/
  | pzPorFall
  /-- PZ_WARM_RESET (R412). pz_rst_n low warm-resets Polornaz with the rails kept and DRAM in self-refresh. -/
  | pzWarmReset (dies : BitVec 16) (torn : List (BitVec 3))
  /-- PERST_ASSERT (R401). pz_perst_n low resets the PCIe endpoint, zeroes the ring sizes and abandons a snapshot drain. -/
  | perstAssert
  /-- PERST_RELEASE (R401). pz_perst_n rising starts link detection and configuration. -/
  | perstRelease
  /-- PZ_REFCLK_LOST (R406). No pz_refclk edge for 10 µs takes ports down, puts DRAM in self-refresh and enters holdover. -/
  | pzRefclkLost
  /-- PZ_REFCLK_RETURN (R406). The returning reference relocks the PLLs, wakes DRAM and retrains ports. -/
  | pzRefclkReturn
  /-- I3C_REGISTER_READ (R403). An I3C read opcode reads a BAR0 register as a secure access. -/
  | i3cRegisterRead (addr : Word)
  /-- I3C_REGISTER_WRITE (R403). An I3C write opcode writes a BAR0 register as a secure access. -/
  | i3cRegisterWrite (addr data : Word)
  /-- I3C_ENTDAA (R403). ENTDAA assigns a dynamic address. -/
  | i3cEntdaa (addr : BitVec 7)
  /-- I3C_SETDASA (R403). SETDASA sets the dynamic address from the static one. -/
  | i3cSetdasa (static addr : BitVec 7)
  /-- I3C_SETNEWDA (R403). SETNEWDA changes the dynamic address. -/
  | i3cSetnewda (addr : BitVec 7)
  /-- I3C_RSTDAA (R403). RSTDAA resets the dynamic address. -/
  | i3cRstdaa
  /-- I3C_GETPID (R403). GETPID returns the provisioned ID. -/
  | i3cGetpid
  /-- I3C_GETBCR (R403). GETBCR returns the bus characteristics register. -/
  | i3cGetbcr
  /-- I3C_GETDCR (R403). GETDCR returns the device characteristics register. -/
  | i3cGetdcr
  /-- I3C_GETSTATUS (R403). GETSTATUS returns device status. -/
  | i3cGetstatus
  /-- I3C_GETMWL (R403). GETMWL returns the maximum write length. -/
  | i3cGetmwl
  /-- I3C_GETMRL (R403). GETMRL returns the maximum read length. -/
  | i3cGetmrl
  /-- I3C_ENEC (R403). ENEC enables the in-band alarm interrupt. -/
  | i3cEnec
  /-- I3C_DISEC (R403). DISEC disables the in-band alarm interrupt. -/
  | i3cDisec
  /-- JTAG_BYPASS (R404). BYPASS selects the bypass register. -/
  | jtagBypass
  /-- JTAG_IDCODE (R404). IDCODE shifts out 0x30D2_056D. -/
  | jtagIdcode
  /-- JTAG_SAMPLE_PRELOAD (R404). SAMPLE/PRELOAD samples or preloads the boundary-scan register. -/
  | jtagSamplePreload (capture : DWord) (preload : DWord)
  /-- JTAG_EXTEST (R404). EXTEST drives the 1.8 V pins from the boundary-scan register. -/
  | jtagExtest
  /-- JTAG_CLAMP (R404). CLAMP holds outputs while selecting bypass. -/
  | jtagClamp
  /-- JTAG_HIGHZ (R404). HIGHZ places outputs in high impedance. -/
  | jtagHighz
  /-- REFCLK_RESTORED (R52). refclk edges arrive again after a loss, the time base resumes from its held value and the leaf counts toward the 256 periods of lock. -/
  | refclkRestored
  /-- REED_RAIL_ERROR (R131). A rail pair of an incoming Reed byte shows 0b11 and the port enters DOWN. -/
  | reedRailError (port : Bool) (lost : Option ReedMsg)
  /-- UPLINK_CELL_RX (R161). A cell arriving on a leaf's ul_rx is checked, discarded and counted when its CCRC or TYPE fails, or kept toward reassembly, breaking its message when a cell is missing. -/
  | uplinkCellRx (c : Cell)
  /-- RC_FIELD_READ (R15). A register read of an RC field returns the field and then clears it, keeping any coinciding event for the next read. -/
  | rcFieldRead (part : Part) (p : Port) (addr : BitVec 26)
  /-- PTP_ANNOUNCE_TIMEOUT (R120). The announce receipt timeout of a PTP port expires, the BMCA re-runs, and with no slave port left tray time enters holdover. -/
  | ptpAnnounceTimeout (u dom : Bool)
  /-- MSIX_HOLDOFF_EXPIRY (R375). The holdoff of MSI-X vector 1, 2 or 3 runs out and one message is sent for the events merged during it. -/
  | msixHoldoffExpiry (vec : BitVec 2)
  /-- ADVISORY_RX (R316). A verdict or advisory message (TYPE 0x0A) from a leaf or a child Polornaz arrives and is written to the record ring or sent upward. -/
  | advisoryRx (port : BitVec 5)
  /-- HEALTH_UPDATE_RX (R205). A unit health state change or round outcome from the tray arrives at the leaf, which applies it to GL_TS_UNIT in order of arrival and repeats a disputed round. -/
  | healthUpdateRx (m : HealthMsg) (blows : List Blow)
  /-- FENCE_NOTICE_RX (R310). The tray's relay of a FENCE or UNFENCE reaches the leaf, which sets or clears FENCED on frames from the first instant at or after its effect. -/
  | fenceNoticeRx (fence : Bool) (effEp : Word)
  /-- MEMBER_PROBE_RX (R309). A liveness query from the tray reaches a chain master, which answers with the member's state. -/
  | memberProbeRx (fleet : Word)
  /-- PCIE_LINK_CHANGE (R400). The PCIe link goes down or comes up again, stopping or resuming writes to host memory. -/
  | pcieLinkChange (up busMaster d3hot msixOn : Bool)
deriving DecidableEq, Repr

end Sys2Proof
end

