-- ==== Sys2Proof/Decode.lean ====
section
/-!
DEFINITION. Sys2Proof/Decode.lean: the table gives no row any bits, so no word spells a command; Jarend words (R240,
R241, Tables 10.7 and 10.8), which programs hold, decode and encode here.
-/

namespace Sys2Proof

/-- The command that a word spells by the table's bits: the table gives none. -/
def decodeTableWord (_nbits _w : Nat) : Option Instr := none

/-- A field of a Jarend word. -/
def jf (w : Word) (lo n : Nat) : BitVec n := BitVec.extractLsb' lo n w

/-- Format A of a word. -/
def fmtA (w : Word) : FmtA := { rd := jf w 21 5, ra := jf w 16 5, rb := jf w 11 5 }
/-- Format I of a word. -/
def fmtI (w : Word) : FmtI := { rd := jf w 21 5, ra := jf w 16 5, imm := jf w 0 16 }
/-- Format I of a shift. -/
def fmtS (w : Word) : FmtS := { rd := jf w 21 5, ra := jf w 16 5, hi := jf w 8 8, n := jf w 0 6 }
/-- Format M of a word. -/
def fmtM (w : Word) : FmtM := { r := jf w 21 5, ra := jf w 16 5, off := jf w 0 14 }
/-- Format B of a word. -/
def fmtB (w : Word) : FmtB := { ra := jf w 21 5, rb := jf w 16 5, off := jf w 0 16 }
/-- Format X of a word. -/
def fmtX (w : Word) : FmtX := { rd := jf w 21 5, ra := jf w 16 5, sel := jf w 12 4, km := jf w 9 3 }
/-- Format C of a word. -/
def fmtC (w : Word) : FmtC := { rd := jf w 21 5, ra := jf w 16 5, idx := jf w 8 8, slot := jf w 4 4 }
/-- Format V of a word. -/
def fmtV (w : Word) : FmtV := { vd := jf w 22 4, va := jf w 18 4, vb := jf w 14 4, km := jf w 11 3 }
/-- Format W of a word. -/
def fmtW (w : Word) : FmtW := { v := jf w 22 4, ra := jf w 16 5, km := jf w 13 3, off := jf w 0 13 }

/-- A word of format A (Table 10.7). -/
def encA (op : BitVec 6) (fn : BitVec 11) (f : FmtA) : Word := op ++ f.rd ++ f.ra ++ f.rb ++ fn
/-- A word of format I. -/
def encI (op : BitVec 6) (f : FmtI) : Word := op ++ f.rd ++ f.ra ++ f.imm
/-- A shift word: the function in IMM16[7:6] (R241). -/
def encS (op : BitVec 6) (fn : BitVec 2) (f : FmtS) : Word := op ++ f.rd ++ f.ra ++ f.hi ++ fn ++ f.n
/-- A word of format M: the function in SZ. -/
def encM (op : BitVec 6) (fn : BitVec 2) (f : FmtM) : Word := op ++ f.r ++ f.ra ++ fn ++ f.off
/-- A word of format B. -/
def encB (op : BitVec 6) (f : FmtB) : Word := op ++ f.ra ++ f.rb ++ f.off
/-- A word of format X: FN12 is the km bits and the function. -/
def encX (op : BitVec 6) (fn : BitVec 9) (f : FmtX) : Word := op ++ f.rd ++ f.ra ++ f.sel ++ f.km ++ fn
/-- A word of format C. -/
def encC (op : BitVec 6) (fn : BitVec 4) (f : FmtC) : Word := op ++ f.rd ++ f.ra ++ f.idx ++ f.slot ++ fn
/-- A word of format V. -/
def encV (op : BitVec 6) (fn : BitVec 11) (f : FmtV) : Word := op ++ f.vd ++ f.va ++ f.vb ++ f.km ++ fn
/-- A word of format W: the function is ST. -/
def encW (op : BitVec 6) (fn : BitVec 1) (f : FmtW) : Word := op ++ f.v ++ fn ++ f.ra ++ f.km ++ f.off

/-- Scalar, control and key words (opcodes 0x01 to 0x18). -/
def decScalar (e : Engine) (w : Word) : Option Instr :=
  match (jf w 26 6).toNat with
  | 0x01 => match (jf w 0 11).toNat with
    | 0 => some (.add e (fmtA w))
    | 1 => some (.sub e (fmtA w))
    | 2 => some (.and e (fmtA w))
    | 3 => some (.or e (fmtA w))
    | 4 => some (.xor e (fmtA w))
    | 5 => some (.shl e (fmtA w))
    | 6 => some (.shr e (fmtA w))
    | 7 => some (.sra e (fmtA w))
    | 8 => some (.mul e (fmtA w))
    | 9 => some (.mulh e (fmtA w))
    | 10 => some (.mulhu e (fmtA w))
    | 11 => some (.min e (fmtA w))
    | 12 => some (.max e (fmtA w))
    | 13 => some (.minu e (fmtA w))
    | 14 => some (.maxu e (fmtA w))
    | 15 => some (.slt e (fmtA w))
    | 16 => some (.sltu e (fmtA w))
    | 17 => some (.seq e (fmtA w))
    | _ => none
  | 0x02 => some (.addi e (fmtI w))
  | 0x03 => some (.andi e (fmtI w))
  | 0x04 => some (.ori e (fmtI w))
  | 0x05 => some (.xori e (fmtI w))
  | 0x06 => match (jf w 6 2).toNat with
    | 0 => some (.shli e (fmtS w))
    | 1 => some (.shri e (fmtS w))
    | 2 => some (.srai e (fmtS w))
    | _ => none
  | 0x07 => some (.lui e (fmtI w))
  | 0x08 => match (jf w 14 2).toNat with
    | 0 => some (.ldB e (fmtM w))
    | 1 => some (.ldH e (fmtM w))
    | 2 => some (.ldW e (fmtM w))
    | 3 => some (.ldD e (fmtM w))
    | _ => none
  | 0x09 => match (jf w 14 2).toNat with
    | 0 => some (.stB e (fmtM w))
    | 1 => some (.stH e (fmtM w))
    | 2 => some (.stW e (fmtM w))
    | 3 => some (.stD e (fmtM w))
    | _ => none
  | 0x0A => match (jf w 0 11).toNat with
    | 0 => some (.amoAdd e (fmtA w))
    | 1 => some (.amoMin e (fmtA w))
    | 2 => some (.amoMax e (fmtA w))
    | 3 => some (.amoMinu e (fmtA w))
    | 4 => some (.amoMaxu e (fmtA w))
    | 5 => some (.amoSwap e (fmtA w))
    | 6 => some (.amoCas e (fmtA w))
    | _ => none
  | 0x0B => match (jf w 0 9).toNat with
    | 0 => some (.fence e (fmtX w))
    | _ => none
  | 0x0C => some (.beq e (fmtB w))
  | 0x0D => some (.bne e (fmtB w))
  | 0x0E => some (.blt e (fmtB w))
  | 0x0F => some (.bge e (fmtB w))
  | 0x10 => some (.bltu e (fmtB w))
  | 0x11 => some (.bgeu e (fmtB w))
  | 0x12 => some (.jal e (jf w 0 26))
  | 0x13 => match (jf w 0 11).toNat with
    | 0 => some (.jr e (fmtA w))
    | _ => none
  | 0x18 => match (jf w 0 11).toNat with
    | 0 => some (.keyF32 e (fmtA w))
    | 1 => some (.keyF16 e (fmtA w))
    | 2 => some (.keyBf16 e (fmtA w))
    | 3 => some (.keyS32 e (fmtA w))
    | 4 => some (.keyU32 e (fmtA w))
    | 5 => some (.unkeyF32 e (fmtA w))
    | 6 => some (.unkeyS32 e (fmtA w))
    | _ => none
  | _ => none

/-- Capture, tree, emit, control and epoch words (opcodes 0x20 to 0x2D). -/
def decSys (e : Engine) (w : Word) : Option Instr :=
  match (jf w 26 6).toNat with
  | 0x20 => match (jf w 0 4).toNat with
    | 0 => some (.capCnt e (fmtC w))
    | 1 => some (.capStart e (fmtC w))
    | 2 => some (.capEnd e (fmtC w))
    | 3 => some (.capStrm e (fmtC w))
    | 4 => some (.capVal e (fmtC w))
    | 5 => some (.capVtag e (fmtC w))
    | 6 => some (.capFresh e (fmtC w))
    | 7 => some (.capUpd e (fmtC w))
    | 8 => some (.capTagerr e (fmtC w))
    | _ => none
  | 0x21 => match (jf w 0 4).toNat with
    | 0 => some (.fldW e (fmtC w))
    | 1 => some (.fldInv e (fmtC w))
    | 2 => some (.fldRd e (fmtC w))
    | _ => none
  | 0x22 => match (jf w 0 4).toNat with
    | 0 => some (.redAdd e (fmtC w))
    | _ => none
  | 0x23 => match (jf w 0 9).toNat with
    | 0 => some (.treeLocal e (fmtX w))
    | _ => none
  | 0x24 => match (jf w 0 9).toNat with
    | 0 => some (.treeLaunch e (fmtX w))
    | 1 => some (.treeWait e (fmtX w))
    | 2 => some (.treeSum e (fmtX w))
    | _ => none
  | 0x28 => match (jf w 0 9).toNat with
    | 0 => some (.emitAlarm e (fmtX w))
    | 1 => some (.emitVerdict e (fmtX w))
    | 2 => some (.emitAdv e (fmtX w))
    | 3 => some (.emitTrace e (fmtX w))
    | 4 => some (.emitReply e (fmtX w))
    | _ => none
  | 0x2C => match (jf w 0 9).toNat with
    | 0 => some (.finish e (fmtX w))
    | 1 => some (.csrr e (fmtX w))
    | 2 => some (.csrw e (fmtX w))
    | _ => none
  | 0x2D => match (jf w 0 9).toNat with
    | 0 => some (.epCmp e (fmtX w))
    | 1 => some (.epWait e (fmtX w))
    | 2 => some (.epCfgcmp e (fmtX w))
    | _ => none
  | _ => none

/-- Vector, statistics, stream, digest and reduction words (opcodes 0x30 to 0x3C). -/
def decVec (e : Engine) (w : Word) : Option Instr :=
  match (jf w 26 6).toNat with
  | 0x30 => match (jf w 0 11).toNat with
    | 0 => some (.vadd e (fmtV w))
    | 1 => some (.vsub e (fmtV w))
    | 2 => some (.vmul e (fmtV w))
    | 3 => some (.vmin e (fmtV w))
    | 4 => some (.vmax e (fmtV w))
    | 5 => some (.vminu e (fmtV w))
    | 6 => some (.vmaxu e (fmtV w))
    | 7 => some (.vand e (fmtV w))
    | 8 => some (.vor e (fmtV w))
    | 9 => some (.vxor e (fmtV w))
    | 10 => some (.vshl e (fmtV w))
    | 11 => some (.vshr e (fmtV w))
    | 12 => some (.vsra e (fmtV w))
    | 13 => some (.vfadd e (fmtV w))
    | 14 => some (.vfmul e (fmtV w))
    | _ => none
  | 0x31 => match (jf w 0 11).toNat with
    | 0 => some (.vcmpEq e (fmtV w))
    | 1 => some (.vcmpLt e (fmtV w))
    | 2 => some (.vcmpLtu e (fmtV w))
    | 3 => some (.vcmpGe e (fmtV w))
    | 4 => some (.vcmpGeu e (fmtV w))
    | _ => none
  | 0x32 => match (jf w 21 1).toNat with
    | 0 => some (.vld e (fmtW w))
    | 1 => some (.vst e (fmtW w))
    | _ => none
  | 0x33 => match (jf w 0 9).toNat with
    | 0 => some (.vredSum e (fmtX w))
    | 1 => some (.vredMin e (fmtX w))
    | 2 => some (.vredMax e (fmtX w))
    | 3 => some (.vredMinu e (fmtX w))
    | 4 => some (.vredMaxu e (fmtX w))
    | 5 => some (.vredCnt e (fmtX w))
    | _ => none
  | 0x34 => match (jf w 0 11).toNat with
    | 0 => some (.vkeyF32 e (fmtV w))
    | 1 => some (.vkeyF16 e (fmtV w))
    | 2 => some (.vkeyBf16 e (fmtV w))
    | 3 => some (.vkeyS32 e (fmtV w))
    | 4 => some (.vkeyU32 e (fmtV w))
    | _ => none
  | 0x35 => match (jf w 0 9).toNat with
    | 0 => some (.vsplat e (fmtX w))
    | 1 => some (.vins e (fmtX w))
    | 2 => some (.vext e (fmtX w))
    | 3 => some (.vmov e (fmtX w))
    | _ => none
  | 0x36 => match (jf w 0 9).toNat with
    | 0 => some (.statMed e (fmtX w))
    | 1 => some (.statMad e (fmtX w))
    | 2 => some (.statQsAdd e (fmtX w))
    | 3 => some (.statQsQ e (fmtX w))
    | 4 => some (.statEwma e (fmtX w))
    | _ => none
  | 0x38 => match (jf w 0 9).toNat with
    | 0 => some (.strPop e (fmtX w))
    | 1 => some (.strPeek e (fmtX w))
    | 2 => some (.strSkip e (fmtX w))
    | 3 => some (.strLen e (fmtX w))
    | 4 => some (.strPush e (fmtX w))
    | _ => none
  | 0x3A => match (jf w 0 9).toNat with
    | 0 => some (.dgLd e (fmtX w))
    | 1 => some (.dgDiff e (fmtX w))
    | 2 => some (.dgTol e (fmtX w))
    | _ => none
  | 0x3C => match (jf w 0 9).toNat with
    | 0 => some (.rdxAdd e (fmtX w))
    | 1 => some (.rdxMin e (fmtX w))
    | 2 => some (.rdxMax e (fmtX w))
    | 3 => some (.rdxClose e (fmtX w))
    | _ => none
  | _ => none

/-- Whether every field that an instruction does not use is zero (R240, R250, R252 to R267). -/
def jarUnused : Instr → Bool
  | .shli _ f => f.hi == 0
  | .shri _ f => f.hi == 0
  | .srai _ f => f.hi == 0
  | .lui _ f => f.ra == 0
  | .fence _ f => f.rd == 0 && f.ra == 0 && f.sel == 0 && f.km == 0
  | .jr _ f => f.rb == 0
  | .keyF32 _ f => f.rb == 0
  | .keyF16 _ f => f.rb == 0
  | .keyBf16 _ f => f.rb == 0
  | .keyS32 _ f => f.rb == 0
  | .keyU32 _ f => f.rb == 0
  | .unkeyF32 _ f => f.rb == 0
  | .unkeyS32 _ f => f.rb == 0
  | .capVal _ f => f.slot == 0
  | .capVtag _ f => f.slot == 0
  | .capFresh _ f => f.slot == 0
  | .capUpd _ f => f.slot == 0
  | .capTagerr _ f => f.slot == 0
  | .fldW _ f => f.slot == 0
  | .fldInv _ f => f.rd == 0 && f.slot == 0
  | .fldRd _ f => f.slot == 0
  | .redAdd _ f => f.slot == 0
  | .treeLocal _ f => f.km == 0
  | .treeLaunch _ f => f.km == 0
  | .treeWait _ f => f.sel == 0 && f.km == 0
  | .treeSum _ f => f.km == 0
  | .emitAlarm _ f => f.sel == 0 && f.km == 0
  | .emitVerdict _ f => f.sel == 0 && f.km == 0
  | .emitAdv _ f => f.sel == 0 && f.km == 0
  | .emitTrace _ f => f.sel == 0 && f.km == 0
  | .emitReply _ f => f.sel == 0 && f.km == 0
  | .finish _ f => f.rd == 0 && f.ra == 0 && f.sel == 0 && f.km == 0
  | .csrr _ f => f.km == 0
  | .csrw _ f => f.km == 0
  | .epCmp _ f => f.sel == 0 && f.km == 0
  | .epWait _ f => f.sel == 0 && f.km == 0
  | .epCfgcmp _ f => f.sel == 0 && f.km == 0
  | .vredSum _ f => f.ra == 0
  | .vredMin _ f => f.ra == 0
  | .vredMax _ f => f.ra == 0
  | .vredMinu _ f => f.ra == 0
  | .vredMaxu _ f => f.ra == 0
  | .vredCnt _ f => f.ra == 0
  | .vkeyF32 _ f => f.vb == 0
  | .vkeyF16 _ f => f.vb == 0
  | .vkeyBf16 _ f => f.vb == 0
  | .vkeyS32 _ f => f.vb == 0
  | .vkeyU32 _ f => f.vb == 0
  | .vsplat _ f => f.rd == 0 && f.km == 0
  | .vins _ f => f.km == 0
  | .vext _ f => f.km == 0
  | .vmov _ f => f.ra == 0 && f.km == 0
  | .statMed _ f => f.km == 0
  | .statMad _ f => f.km == 0
  | .statQsAdd _ f => f.km == 0
  | .statQsQ _ f => f.sel == 0 && f.km == 0
  | .statEwma _ f => f.km == 0
  | .strPop _ f => f.km == 0
  | .strPeek _ f => f.km == 0
  | .strSkip _ f => f.km == 0
  | .strLen _ f => f.ra == 0 && f.km == 0
  | .strPush _ f => f.sel == 0 && f.km == 0
  | .dgLd _ f => f.km == 0
  | .dgDiff _ f => f.km == 0
  | .dgTol _ f => f.sel == 0 && f.km == 0
  | .rdxAdd _ f => f.km == 0
  | .rdxMin _ f => f.km == 0
  | .rdxMax _ f => f.km == 0
  | .rdxClose _ f => f.sel == 0 && f.km == 0
  | _ => true

/-- The instruction that a Jarend word spells on an engine; none for a reserved opcode or function code or a non-zero
unused field (R240, R241). -/
def decodeJarend (e : Engine) (w : Word) : Option Instr :=
  let r := if (jf w 26 6).toNat ≤ 0x18 then decScalar e w else if (jf w 26 6).toNat < 0x30 then decSys e w
    else decVec e w
  match r with
  | some i => if jarUnused i then some i else none
  | none => none

/-- The word of a Jarend instruction; none for the other commands. -/
def encodeJarend : Instr → Option Word
  | .add _ f => some (encA 0x01 0 f)
  | .sub _ f => some (encA 0x01 1 f)
  | .and _ f => some (encA 0x01 2 f)
  | .or _ f => some (encA 0x01 3 f)
  | .xor _ f => some (encA 0x01 4 f)
  | .shl _ f => some (encA 0x01 5 f)
  | .shr _ f => some (encA 0x01 6 f)
  | .sra _ f => some (encA 0x01 7 f)
  | .mul _ f => some (encA 0x01 8 f)
  | .mulh _ f => some (encA 0x01 9 f)
  | .mulhu _ f => some (encA 0x01 10 f)
  | .min _ f => some (encA 0x01 11 f)
  | .max _ f => some (encA 0x01 12 f)
  | .minu _ f => some (encA 0x01 13 f)
  | .maxu _ f => some (encA 0x01 14 f)
  | .slt _ f => some (encA 0x01 15 f)
  | .sltu _ f => some (encA 0x01 16 f)
  | .seq _ f => some (encA 0x01 17 f)
  | .addi _ f => some (encI 0x02 f)
  | .andi _ f => some (encI 0x03 f)
  | .ori _ f => some (encI 0x04 f)
  | .xori _ f => some (encI 0x05 f)
  | .shli _ f => some (encS 0x06 0 f)
  | .shri _ f => some (encS 0x06 1 f)
  | .srai _ f => some (encS 0x06 2 f)
  | .lui _ f => some (encI 0x07 f)
  | .ldB _ f => some (encM 0x08 0 f)
  | .ldH _ f => some (encM 0x08 1 f)
  | .ldW _ f => some (encM 0x08 2 f)
  | .ldD _ f => some (encM 0x08 3 f)
  | .stB _ f => some (encM 0x09 0 f)
  | .stH _ f => some (encM 0x09 1 f)
  | .stW _ f => some (encM 0x09 2 f)
  | .stD _ f => some (encM 0x09 3 f)
  | .amoAdd _ f => some (encA 0x0A 0 f)
  | .amoMin _ f => some (encA 0x0A 1 f)
  | .amoMax _ f => some (encA 0x0A 2 f)
  | .amoMinu _ f => some (encA 0x0A 3 f)
  | .amoMaxu _ f => some (encA 0x0A 4 f)
  | .amoSwap _ f => some (encA 0x0A 5 f)
  | .amoCas _ f => some (encA 0x0A 6 f)
  | .fence _ f => some (encX 0x0B 0 f)
  | .beq _ f => some (encB 0x0C f)
  | .bne _ f => some (encB 0x0D f)
  | .blt _ f => some (encB 0x0E f)
  | .bge _ f => some (encB 0x0F f)
  | .bltu _ f => some (encB 0x10 f)
  | .bgeu _ f => some (encB 0x11 f)
  | .jal _ off => some ((0x12 : BitVec 6) ++ off)
  | .jr _ f => some (encA 0x13 0 f)
  | .keyF32 _ f => some (encA 0x18 0 f)
  | .keyF16 _ f => some (encA 0x18 1 f)
  | .keyBf16 _ f => some (encA 0x18 2 f)
  | .keyS32 _ f => some (encA 0x18 3 f)
  | .keyU32 _ f => some (encA 0x18 4 f)
  | .unkeyF32 _ f => some (encA 0x18 5 f)
  | .unkeyS32 _ f => some (encA 0x18 6 f)
  | .capCnt _ f => some (encC 0x20 0 f)
  | .capStart _ f => some (encC 0x20 1 f)
  | .capEnd _ f => some (encC 0x20 2 f)
  | .capStrm _ f => some (encC 0x20 3 f)
  | .capVal _ f => some (encC 0x20 4 f)
  | .capVtag _ f => some (encC 0x20 5 f)
  | .capFresh _ f => some (encC 0x20 6 f)
  | .capUpd _ f => some (encC 0x20 7 f)
  | .capTagerr _ f => some (encC 0x20 8 f)
  | .fldW _ f => some (encC 0x21 0 f)
  | .fldInv _ f => some (encC 0x21 1 f)
  | .fldRd _ f => some (encC 0x21 2 f)
  | .redAdd _ f => some (encC 0x22 0 f)
  | .treeLocal _ f => some (encX 0x23 0 f)
  | .treeLaunch _ f => some (encX 0x24 0 f)
  | .treeWait _ f => some (encX 0x24 1 f)
  | .treeSum _ f => some (encX 0x24 2 f)
  | .emitAlarm _ f => some (encX 0x28 0 f)
  | .emitVerdict _ f => some (encX 0x28 1 f)
  | .emitAdv _ f => some (encX 0x28 2 f)
  | .emitTrace _ f => some (encX 0x28 3 f)
  | .emitReply _ f => some (encX 0x28 4 f)
  | .finish _ f => some (encX 0x2C 0 f)
  | .csrr _ f => some (encX 0x2C 1 f)
  | .csrw _ f => some (encX 0x2C 2 f)
  | .epCmp _ f => some (encX 0x2D 0 f)
  | .epWait _ f => some (encX 0x2D 1 f)
  | .epCfgcmp _ f => some (encX 0x2D 2 f)
  | .vadd _ f => some (encV 0x30 0 f)
  | .vsub _ f => some (encV 0x30 1 f)
  | .vmul _ f => some (encV 0x30 2 f)
  | .vmin _ f => some (encV 0x30 3 f)
  | .vmax _ f => some (encV 0x30 4 f)
  | .vminu _ f => some (encV 0x30 5 f)
  | .vmaxu _ f => some (encV 0x30 6 f)
  | .vand _ f => some (encV 0x30 7 f)
  | .vor _ f => some (encV 0x30 8 f)
  | .vxor _ f => some (encV 0x30 9 f)
  | .vshl _ f => some (encV 0x30 10 f)
  | .vshr _ f => some (encV 0x30 11 f)
  | .vsra _ f => some (encV 0x30 12 f)
  | .vfadd _ f => some (encV 0x30 13 f)
  | .vfmul _ f => some (encV 0x30 14 f)
  | .vcmpEq _ f => some (encV 0x31 0 f)
  | .vcmpLt _ f => some (encV 0x31 1 f)
  | .vcmpLtu _ f => some (encV 0x31 2 f)
  | .vcmpGe _ f => some (encV 0x31 3 f)
  | .vcmpGeu _ f => some (encV 0x31 4 f)
  | .vld _ f => some (encW 0x32 0 f)
  | .vst _ f => some (encW 0x32 1 f)
  | .vredSum _ f => some (encX 0x33 0 f)
  | .vredMin _ f => some (encX 0x33 1 f)
  | .vredMax _ f => some (encX 0x33 2 f)
  | .vredMinu _ f => some (encX 0x33 3 f)
  | .vredMaxu _ f => some (encX 0x33 4 f)
  | .vredCnt _ f => some (encX 0x33 5 f)
  | .vkeyF32 _ f => some (encV 0x34 0 f)
  | .vkeyF16 _ f => some (encV 0x34 1 f)
  | .vkeyBf16 _ f => some (encV 0x34 2 f)
  | .vkeyS32 _ f => some (encV 0x34 3 f)
  | .vkeyU32 _ f => some (encV 0x34 4 f)
  | .vsplat _ f => some (encX 0x35 0 f)
  | .vins _ f => some (encX 0x35 1 f)
  | .vext _ f => some (encX 0x35 2 f)
  | .vmov _ f => some (encX 0x35 3 f)
  | .statMed _ f => some (encX 0x36 0 f)
  | .statMad _ f => some (encX 0x36 1 f)
  | .statQsAdd _ f => some (encX 0x36 2 f)
  | .statQsQ _ f => some (encX 0x36 3 f)
  | .statEwma _ f => some (encX 0x36 4 f)
  | .strPop _ f => some (encX 0x38 0 f)
  | .strPeek _ f => some (encX 0x38 1 f)
  | .strSkip _ f => some (encX 0x38 2 f)
  | .strLen _ f => some (encX 0x38 3 f)
  | .strPush _ f => some (encX 0x38 4 f)
  | .dgLd _ f => some (encX 0x3A 0 f)
  | .dgDiff _ f => some (encX 0x3A 1 f)
  | .dgTol _ f => some (encX 0x3A 2 f)
  | .rdxAdd _ f => some (encX 0x3C 0 f)
  | .rdxMin _ f => some (encX 0x3C 1 f)
  | .rdxMax _ f => some (encX 0x3C 2 f)
  | .rdxClose _ f => some (encX 0x3C 3 f)
  | _ => none

/-- Whether Table 10.8 marks the instruction L. -/
def jarProfileL : Instr → Bool
  | .add _ _ => true
  | .sub _ _ => true
  | .and _ _ => true
  | .or _ _ => true
  | .xor _ _ => true
  | .shl _ _ => true
  | .shr _ _ => true
  | .sra _ _ => true
  | .mul _ _ => true
  | .mulh _ _ => true
  | .mulhu _ _ => true
  | .min _ _ => true
  | .max _ _ => true
  | .minu _ _ => true
  | .maxu _ _ => true
  | .slt _ _ => true
  | .sltu _ _ => true
  | .seq _ _ => true
  | .addi _ _ => true
  | .andi _ _ => true
  | .ori _ _ => true
  | .xori _ _ => true
  | .shli _ _ => true
  | .shri _ _ => true
  | .srai _ _ => true
  | .lui _ _ => true
  | .ldB _ _ => true
  | .ldH _ _ => true
  | .ldW _ _ => true
  | .ldD _ _ => true
  | .beq _ _ => true
  | .bne _ _ => true
  | .blt _ _ => true
  | .bge _ _ => true
  | .bltu _ _ => true
  | .bgeu _ _ => true
  | .keyF32 _ _ => true
  | .keyF16 _ _ => true
  | .keyBf16 _ _ => true
  | .keyS32 _ _ => true
  | .keyU32 _ _ => true
  | .unkeyF32 _ _ => true
  | .unkeyS32 _ _ => true
  | .capCnt _ _ => true
  | .capStart _ _ => true
  | .capEnd _ _ => true
  | .capStrm _ _ => true
  | .capVal _ _ => true
  | .capVtag _ _ => true
  | .capFresh _ _ => true
  | .capUpd _ _ => true
  | .capTagerr _ _ => true
  | .fldW _ _ => true
  | .fldInv _ _ => true
  | .fldRd _ _ => true
  | .redAdd _ _ => true
  | .treeLocal _ _ => true
  | .finish _ _ => true
  | .csrr _ _ => true
  | .csrw _ _ => true
  | .emitAlarm _ _ => true
  | _ => false

/-- Whether Table 10.8 marks the instruction S: every one but the capture, field, wave and local tree ones. -/
def jarProfileS : Instr → Bool
  | .capCnt _ _ => false
  | .capStart _ _ => false
  | .capEnd _ _ => false
  | .capStrm _ _ => false
  | .capVal _ _ => false
  | .capVtag _ _ => false
  | .capFresh _ _ => false
  | .capUpd _ _ => false
  | .capTagerr _ _ => false
  | .fldW _ _ => false
  | .fldInv _ _ => false
  | .fldRd _ _ => false
  | .redAdd _ _ => false
  | .treeLocal _ _ => false
  | _ => true

/-- Whether every general-register field of an L instruction names g0 to g15, and the model field m0 (R227). -/
def jarRegsL : Instr → Bool
  | .add _ f => decide (f.rd < 16 ∧ f.ra < 16 ∧ f.rb < 16)
  | .sub _ f => decide (f.rd < 16 ∧ f.ra < 16 ∧ f.rb < 16)
  | .and _ f => decide (f.rd < 16 ∧ f.ra < 16 ∧ f.rb < 16)
  | .or _ f => decide (f.rd < 16 ∧ f.ra < 16 ∧ f.rb < 16)
  | .xor _ f => decide (f.rd < 16 ∧ f.ra < 16 ∧ f.rb < 16)
  | .shl _ f => decide (f.rd < 16 ∧ f.ra < 16 ∧ f.rb < 16)
  | .shr _ f => decide (f.rd < 16 ∧ f.ra < 16 ∧ f.rb < 16)
  | .sra _ f => decide (f.rd < 16 ∧ f.ra < 16 ∧ f.rb < 16)
  | .mul _ f => decide (f.rd < 16 ∧ f.ra < 16 ∧ f.rb < 16)
  | .mulh _ f => decide (f.rd < 16 ∧ f.ra < 16 ∧ f.rb < 16)
  | .mulhu _ f => decide (f.rd < 16 ∧ f.ra < 16 ∧ f.rb < 16)
  | .min _ f => decide (f.rd < 16 ∧ f.ra < 16 ∧ f.rb < 16)
  | .max _ f => decide (f.rd < 16 ∧ f.ra < 16 ∧ f.rb < 16)
  | .minu _ f => decide (f.rd < 16 ∧ f.ra < 16 ∧ f.rb < 16)
  | .maxu _ f => decide (f.rd < 16 ∧ f.ra < 16 ∧ f.rb < 16)
  | .slt _ f => decide (f.rd < 16 ∧ f.ra < 16 ∧ f.rb < 16)
  | .sltu _ f => decide (f.rd < 16 ∧ f.ra < 16 ∧ f.rb < 16)
  | .seq _ f => decide (f.rd < 16 ∧ f.ra < 16 ∧ f.rb < 16)
  | .addi _ f => decide (f.rd < 16 ∧ f.ra < 16)
  | .andi _ f => decide (f.rd < 16 ∧ f.ra < 16)
  | .ori _ f => decide (f.rd < 16 ∧ f.ra < 16)
  | .xori _ f => decide (f.rd < 16 ∧ f.ra < 16)
  | .shli _ f => decide (f.rd < 16 ∧ f.ra < 16)
  | .shri _ f => decide (f.rd < 16 ∧ f.ra < 16)
  | .srai _ f => decide (f.rd < 16 ∧ f.ra < 16)
  | .lui _ f => decide (f.rd < 16 ∧ f.ra < 16)
  | .ldB _ f => decide (f.r < 16 ∧ f.ra < 16)
  | .ldH _ f => decide (f.r < 16 ∧ f.ra < 16)
  | .ldW _ f => decide (f.r < 16 ∧ f.ra < 16)
  | .ldD _ f => decide (f.r < 16 ∧ f.ra < 16)
  | .beq _ f => decide (f.ra < 16 ∧ f.rb < 16)
  | .bne _ f => decide (f.ra < 16 ∧ f.rb < 16)
  | .blt _ f => decide (f.ra < 16 ∧ f.rb < 16)
  | .bge _ f => decide (f.ra < 16 ∧ f.rb < 16)
  | .bltu _ f => decide (f.ra < 16 ∧ f.rb < 16)
  | .bgeu _ f => decide (f.ra < 16 ∧ f.rb < 16)
  | .keyF32 _ f => decide (f.rd < 16 ∧ f.ra < 16 ∧ f.rb < 16)
  | .keyF16 _ f => decide (f.rd < 16 ∧ f.ra < 16 ∧ f.rb < 16)
  | .keyBf16 _ f => decide (f.rd < 16 ∧ f.ra < 16 ∧ f.rb < 16)
  | .keyS32 _ f => decide (f.rd < 16 ∧ f.ra < 16 ∧ f.rb < 16)
  | .keyU32 _ f => decide (f.rd < 16 ∧ f.ra < 16 ∧ f.rb < 16)
  | .unkeyF32 _ f => decide (f.rd < 16 ∧ f.ra < 16 ∧ f.rb < 16)
  | .unkeyS32 _ f => decide (f.rd < 16 ∧ f.ra < 16 ∧ f.rb < 16)
  | .capCnt _ f => decide (f.rd < 16 ∧ f.ra < 16)
  | .capStart _ f => decide (f.rd < 16 ∧ f.ra < 16)
  | .capEnd _ f => decide (f.rd < 16 ∧ f.ra < 16)
  | .capStrm _ f => decide (f.rd < 16 ∧ f.ra < 16)
  | .capVal _ f => decide (f.rd < 16 ∧ f.ra < 16)
  | .capVtag _ f => decide (f.rd < 16 ∧ f.ra < 16)
  | .capFresh _ f => decide (f.rd < 16 ∧ f.ra < 16)
  | .capUpd _ f => decide (f.rd < 16 ∧ f.ra < 16)
  | .capTagerr _ f => decide (f.rd < 16 ∧ f.ra < 16)
  | .fldW _ f => decide (f.rd < 16 ∧ f.ra < 16)
  | .fldInv _ f => decide (f.rd < 16 ∧ f.ra < 16)
  | .fldRd _ f => decide (f.rd < 16 ∧ f.ra < 16)
  | .redAdd _ f => decide (f.rd < 16 ∧ f.ra < 16)
  | .treeLocal _ f => decide (f.rd < 16 ∧ f.ra < 16) && f.sel == 0
  | .emitAlarm _ f => decide (f.rd < 16 ∧ f.ra < 16)
  | .csrr _ f => decide (f.rd < 16)
  | .csrw _ f => decide (f.rd < 16)
  | _ => true

end Sys2Proof
end

