-- ==== Sys2Proof/Machine/State.lean ====
section
/-!
DEFINITION. Sys2Proof/Machine/State.lean: everything the spec gives the two parts as plain data, the outcomes'
reasons, and the state after reset.
-/

namespace Sys2Proof.Machine

/-- No meaning of this model stops the block: every command has an effect that the spec states, or no effect.
Safe: nothing raises it. -/
inductive Fault where
deriving DecidableEq, Repr

/-- Why a command has no meaning here. -/
inductive Refusal where
  /-- Raised by an arm of `exec` for a command not reached yet, by its mnemonic. Safe: nothing is claimed of it. -/
  | notModelled (mnemonic : String)
deriving DecidableEq, Repr

/-! ## Grildoda: one leaf -/

/-- Hardening parameters fixed when the block is built into a die (Tables 2.12 to 2.15, 0.2). -/
structure Hardening where
  hostlink : BitVec 8
  irqTgt   : BitVec 3
  tmMode   : Bool
  tmFixed  : BitVec 16
  bankEn   : BitVec 16
  tapEn    : BitVec 4
  testEn   : Bool
  hbEn     : Bool
  cmdBank  : List (BitVec 4)
  vpEn     : DWord
  harden   : Byte
deriving DecidableEq, Repr

/-- Pins and straps of the leaf that hold a level (chapter 02). -/
structure LeafPins where
  porN      : Bool
  rstN      : Bool
  hostIsoN  : Bool
  pkgpos    : BitVec 6
  reedcon   : BitVec 2
  irqIdle   : Byte
  refclk    : Bool
  ulRxReady : Bool
deriving DecidableEq, Repr

/-- State of a command stream (R74, R75). `startTaken` and `dropped` are the front-end's record of the open
command: its start latch was taken; a latch was dropped since. -/
structure StreamState where
  starts     : BitVec 48
  ends       : BitVec 48
  orphans    : BitVec 48
  overruns   : BitVec 48
  isOpen     : Bool
  pairOk     : Bool
  openId     : BitVec 24
  lastId     : BitVec 24
  startTaken : Bool
  dropped    : Bool
deriving DecidableEq, Repr, Inhabited

/-- Counters, latches and stream states of one bank (R63, R75): keys `9 * (g mod 16) + n` and `s`. -/
structure BankSet where
  cnt     : Tbl (BitVec 48)
  startL  : Tbl (BitVec 48)
  endL    : Tbl (BitVec 48)
  streams : Tbl StreamState
deriving DecidableEq, Repr, Inhabited

/-- A change that a control marker carries (R72, R73): the new fields of `GL_CG_CTL`, the new settings of one
slot, and a clear. -/
structure CtlChange where
  group : BitVec 8
  ctl   : Option Word
  slot  : Option (Nat × Word)
  clr   : Bool
deriving DecidableEq, Repr

/-- A marker on its way to or through a bank front-end (R65). -/
inductive BankMarker where
  | inkline (epoch : Word)
  | instant (t : Nat)
  | control (c : CtlChange)
deriving DecidableEq, Repr

/-- A transfer item (R65): counts, strobes to be latched, the streams' state after its edge, markers. -/
structure Item where
  edges   : Nat
  lines   : Tbl Nat
  fins    : List (BitVec 4)
  starts  : List (BitVec 4)
  streams : Tbl StreamState
  markers : List BankMarker
deriving DecidableEq, Repr, Inhabited

/-- Whether a bank's host clock runs (R40, R78). -/
inductive BankClk where
  | running
  | stoppedAck
  | stoppedDead
deriving DecidableEq, Repr, Inhabited

/-- A bank front-end and its crossing (R65, R66, R72). -/
structure BankFront where
  edges   : Nat
  lines   : Tbl Nat
  streams : Tbl StreamState
  queue   : List Item
  hold    : List Item
  toMark  : List BankMarker
  clk     : BankClk
  stopReq : Bool
  stopAck : Bool
deriving DecidableEq, Repr, Inhabited

/-- A value port's hold (R82, R83): value and tag last completed, handshakes since the last instant and in all,
the sticky tag-error flag. -/
structure ValuePort where
  val    : Option (BitVec 3 × Word)
  fresh  : Bool
  upd    : BitVec 16
  tagErr : Bool
deriving DecidableEq, Repr, Inhabited

/-- Event capture (chapter 03). Tables are keyed by bank, and by port for values. -/
structure Capture where
  front      : Tbl BankFront
  core       : Tbl BankSet
  sample     : Tbl BankSet
  staging    : Tbl BankSet
  snap       : Tbl BankSet
  vals       : Tbl ValuePort
  sampleVals : Tbl ValuePort
  stagingVals : Tbl ValuePort
  snapVals   : Tbl ValuePort
  instWait   : List (BitVec 4)
  inkWait    : List (BitVec 4)
  heldNow    : Bool
  stagEpoch  : Word
  stagTime   : Nat
  snapEpoch  : Word
  snapTime   : Nat
  drainPend  : Bool
deriving DecidableEq, Repr, Inhabited

/-- A WAVE record being built: contributions of one window (R143). -/
structure WaveSum where
  count : Nat
  sum   : Int
  kmin  : Nat
  kmax  : Nat
deriving DecidableEq, Repr

/-- A capture window that is open (R87 to R93): its instant and what was in force there, the channel that runs,
its program counter and registers (`inval`: those not valid, with true for one computed from an uncorrectable word),
and what the programs have written. -/
structure Window where
  instant  : Nat
  epoch    : Word
  cfg      : BitVec 16
  tag      : BitVec 24
  untimed  : Bool
  held     : Bool
  newEp    : Bool
  fenced   : Bool
  mixed    : Bool
  stale    : Bool
  bank     : Bool
  pcode    : BitVec 3
  chan     : Option Nat
  pc       : Nat
  regs     : Tbl DWord
  inval    : List (Nat × Bool)
  exec     : Nat
  total    : Nat
  fields   : List (Nat × Word)
  written  : List Nat
  stopped  : Nat
  overrun  : Bool
  incompl  : Bool
  waves    : List (Nat × WaveSum)
  wdrop    : Bool
deriving DecidableEq, Repr

/-- What a closed window, or an instant without one, offers to its instant's wave (R144); `used` once a wave has
taken it. -/
structure Contribution where
  instant : Nat
  opened  : Bool
  epoch   : Word
  cfg     : BitVec 16
  untimed : Bool
  waves   : List (Nat × WaveSum)
  wdrop   : Bool
  used    : Bool
deriving DecidableEq, Repr

/-- An arming that is in force or under check (R95). -/
structure Arming where
  epoch : Word
  cfg   : BitVec 16
  pn    : BitVec 3
deriving DecidableEq, Repr

/-- Who asked for the arming check, so that an ARM message is answered at its end (R327). -/
structure ArmAsk where
  cseq   : BitVec 16
  sender : Word
  cfg    : BitVec 16
deriving DecidableEq, Repr

/-- The Quill engine (chapter 04) and the local model (R286 to R288). Slice tables are keyed by channel, pages
by `2048 * page + word`, g8 to g15 by `2048 * bank + 8 * channel + (r - 8)`. -/
structure Quill where
  sliceA   : Tbl Word
  sliceB   : Tbl Word
  pages    : Tbl Word
  greg     : Tbl DWord
  ginval   : List (Nat × Bool)
  arming   : Option Arming
  checking : Option (Arming × Option ArmAsk)
  actCfg   : BitVec 16
  pend     : List Window
  win      : Option Window
  newEp    : Bool
  frameFlush : List Word
  gapPend  : Bool
  lmLanes  : List (Nat × (Nat × Word))
  last     : Option Contribution
  prev     : Option Contribution
deriving DecidableEq, Repr, Inhabited

/-- The time base and servo of a leaf (chapter 05). `ns` with `sub` in units of 10^-9 ns is aligned time;
`clk` is the interval clock in ns, which no phase step moves (R108). -/
structure LeafTime where
  ns        : Nat
  sub       : Nat
  clk       : Nat
  everRan   : Bool
  lockWait  : Bool
  ratio     : Nat
  integ     : Int
  good      : Nat
  stepPend  : Option (Int × Bool)
  holdAt    : Nat
  t3        : List (BitVec 16 × Nat)
  sums      : List Int
  xrun      : Nat
  reedTheta : Option Int
  upTheta   : Option Int
  lastUp    : Option Nat
  lastTick  : Option Nat
  tickTime  : Nat
  inks      : List InkMsg
  lastInst  : Option Nat
  lastInk   : Option Nat
deriving DecidableEq, Repr, Inhabited

/-- Whether a Reed port is DOWN, training or UP (R131). -/
inductive PortState where
  | down
  | train
  | up
deriving DecidableEq, Repr, Inhabited

/-- One Reed port (R131, R135, R137, R149). Queues hold messages that wait for the link or for a route. -/
structure ReedPort where
  st       : PortState
  sent     : Bool
  heard    : Bool
  nbrMpri  : BitVec 4
  nbrElig  : Bool
  alarmQ   : List ReedMsg
  ctlQ     : List ReedMsg
  waveQ    : Option ReedMsg
  flushQ   : Option ReedMsg
  hops     : Option Nat
  tickAt   : Nat
  toward   : Bool
  meas     : List Int
  zs       : List Nat
  nbrZ     : Nat
deriving DecidableEq, Repr, Inhabited

/-- An entry of a master's member table (R142, R336). -/
structure Member where
  report : ReportMsg
  tag    : BitVec 24
  owned  : Bool
  heard  : Nat
  sent   : Nat
deriving DecidableEq, Repr, Inhabited

/-- A cut that a chain master is gathering (R150, R151). -/
structure Cut where
  epoch   : Word
  kind    : Kind
  start   : Nat
  waves   : Nat
  members : Nat
  posMask : DWord
  ontime  : DWord
  late    : DWord
deriving DecidableEq, Repr

/-- The chain as this leaf sees it (chapter 06). A held wave comes with its arrival port and whether its CRC failed; a
launched one with what its window offered, the halves awaited and what has returned; flushes with port and whether Alarm class. -/
structure Chain where
  portA     : ReedPort
  portB     : ReedPort
  toMaster  : List ReedMsg
  cand      : Option (BitVec 4 × BitVec 6)
  selfNamed : Bool
  candAt    : Nat
  elEpoch   : Word
  elCfg     : BitVec 16
  elMinor   : BitVec 4
  abdWrite  : Option Nat
  abdStall  : Bool
  subOf     : Option Word
  sub       : Option Word
  subCount  : Tbl Nat
  oldMaster : BitVec 6
  registered : Bool
  cfg       : BitVec 16
  waveF     : BitVec 7
  lastCut   : Word
  members   : Tbl Member
  heldWave  : Option (Bool × WaveMsg × Bool)
  waveOut   : Option (Contribution × Nat × Option WaveMsg)
  flushGot  : List (Bool × Bool × BitVec 16)
  flushDue  : List (Bool × BitVec 16)
  cut       : Option Cut
  repeats   : List (InkMsg × Nat)
  dedupe    : List (Word × BitVec 16 × Nat)
  tickSent  : Nat
  lateNow   : Bool
  catchNow  : Bool
deriving DecidableEq, Repr, Inhabited

/-- A message waiting in an uplink class queue, with the number of its cells already started (R160); `fseq` is
some for a frame, which lives in the frame buffer (R102); `came` is its order of arrival. -/
structure Queued where
  msg  : Message
  sent : Nat
  fseq : Option (BitVec 16)
  mseq : BitVec 16
  came : Nat
deriving DecidableEq, Repr, Inhabited

/-- A cell held in the forwarding store with its start tag, its order of arrival, and the interval clock at its first
beat (R110, R172). -/
structure Forwarded where
  cell : Cell
  tag  : Rat
  came : Nat
  clk  : Nat
deriving DecidableEq, Repr, Inhabited

/-- The uplink (chapter 07). Class tables are keyed by class. `short` and `ceilShort` say by how much a bucket is below
full, in 1/1000 bit of counted bytes, as of the interval clock `filled`. `start` is the start tag of a queue's head once
it has one. `rxBad` counts the received cells discarded under R161, which no register shows. -/
structure Uplink where
  queues   : Tbl (List Queued)
  short    : Tbl Nat
  ceilShort : Nat
  filled   : Nat
  vtime    : Rat
  fin      : Tbl Rat
  start    : Tbl (Option Rat)
  tickCnt  : Nat
  arrivals : Nat
  rxBad    : Nat
  supp     : Bool
  mseq     : Tbl (BitVec 16)
  fwd      : Tbl (List Forwarded)
  fwdFin   : Tbl Rat
  fwdDrop  : List (Word × BitVec 3)
  asm      : Tbl (List Cell)
deriving DecidableEq, Repr, Inhabited

/-- One beat in a tap's buffer (Table 2.5), with the number of beats discarded just before it (R42). -/
structure Beat where
  gap  : Nat
  data : BitVec 256
  sop  : Bool
  eop  : Bool
  fmt  : BitVec 3
  tid  : BitVec 16
deriving DecidableEq, Repr, Inhabited

/-- A tensor being digested (R182 to R190). -/
structure Tensor where
  fmt     : BitVec 3
  tid     : BitVec 16
  entry   : Option Nat
  entA    : Word
  entB    : Word
  entC    : Word
  test    : Bool
  key     : DWord
  seed    : DWord
  keygen  : Bool
  epoch   : Word
  hash    : DWord
  beats   : Nat
  discs   : Nat
  incompl : Bool
  overlen : Bool
  count   : Nat
  nans    : Nat
  infs    : Nat
  kmin    : Nat
  kmax    : Nat
  sum     : Int
  sumsq   : Nat
  clamps  : Nat
  hist    : Tbl Nat
  sketch  : Tbl DWord
deriving DecidableEq, Repr

/-- One digest tap (R42, R182, R191). -/
structure Tap where
  buf     : List Beat
  discs   : Nat
  tensor  : Option Tensor
  tseq    : Word
deriving DecidableEq, Repr, Inhabited

/-- A grant waiting for its Inkline (R200), with the message that carried it. -/
structure Grant where
  epoch  : Word
  window : Nat
deriving DecidableEq, Repr, Inhabited

/-- A test round (R201 to R203): its units, those whose DONE has not arrived, and what RUN carried. A round whose
DONEs have all arrived stays until the tray tells its outcome or another starts. -/
structure Round where
  unit    : BitVec 4
  others  : List (BitVec 4)
  waiting : List (BitVec 4)
  round   : BitVec 16
  seed    : Word
  stress  : BitVec 3
  start   : Nat
  window  : Nat
deriving DecidableEq, Repr, Inhabited

/-- In-field tests of the leaf (R198 to R207). -/
structure TestSt where
  lastOut  : Option DWord
  grants   : Tbl (Option Grant)
  allGrant : Option Grant
  rounds   : Tbl (Option Round)
  repeats  : Tbl (Option Round)
  aborted  : List (BitVec 4 × BitVec 16)
  rcount   : BitVec 16
  since    : Tbl Nat
  cells    : Tbl (List (BitVec 16 × BitVec 3 × BitVec 4))
deriving DecidableEq, Repr, Inhabited

/-- Heartbeat watch (R46, R393, R394). -/
structure Heartbeat where
  lastTog  : Option Nat
  ival     : Nat
  iso      : Bool
  lastBeat : Nat
  hungAt   : Nat
  period   : Nat
  miss     : Nat
deriving DecidableEq, Repr, Inhabited

/-- Interrupt state of one target (R368): the running-priority stack, top first, the ordinary source in
service, the end of the holdoff on the interval clock. -/
structure IrqTarget where
  stack  : List (Nat × Nat)
  nasvc  : Option Nat
  hold   : Option Nat
deriving DecidableEq, Repr, Inhabited

/-- Interrupt controller (R365 to R374): event counters by source, targets by number. -/
structure Irq where
  cnt     : Tbl Nat
  targets : Tbl IrqTarget
deriving DecidableEq, Repr, Inhabited

/-- An Inkwell record (Table 15.1); `body` is what follows offset 0x20, before padding. -/
structure InkRec where
  seq    : Nat
  code   : BitVec 16
  origin : BitVec 16
  ink    : Word
  time   : Nat
  tag    : BitVec 24
  body   : List Byte
deriving DecidableEq, Repr, Inhabited

/-- A record in a last-N ring with its offset there (R341). -/
structure RingRec where
  off : Nat
  ent : InkRec
deriving DecidableEq, Repr, Inhabited

/-- A recorder (R341 to R343): first-N records, ring records oldest first, the ring's next offset, whether the
first-N section is closed, the SEQ of the last record, and the spilled records of a Polornaz DRAM ring. -/
structure Recorder where
  first  : List InkRec
  ring   : List RingRec
  next   : Nat
  closed : Bool
  last   : Nat
  spill  : List RingRec
  snext  : Nat
deriving DecidableEq, Repr, Inhabited

/-- A history dump, running or waiting (R346); `seqs` are the records of its filter still to come, once it has begun. -/
structure Dump where
  recNo  : Nat
  tag    : BitVec 24
  reason : BitVec 4
  id     : BitVec 16
  begun  : Bool
  seqs   : List Nat
  lost   : Nat
deriving DecidableEq, Repr, Inhabited

/-- Inkwell of either part: recorders, the window's record bytes, dumps. -/
structure Inkwell where
  recs   : Tbl Recorder
  window : List Byte
  dumps  : List Dump
  dumpId : BitVec 16
deriving DecidableEq, Repr, Inhabited

/-- A Peat log slot that is not free (R347): torn, or committed with its value. -/
inductive Slot where
  | torn (value : DWord)
  | committed (value : DWord)
deriving DecidableEq, Repr

/-- The Peat log (R347 to R350): the used slots of each region in slot order, the staged seed word, the regions
whose exhausted write has been recorded since the last reset. -/
structure Peat where
  fleet  : List Slot
  oos    : List Slot
  health : List Slot
  trim   : List Slot
  seed   : List Slot
  stage  : Option Word
  noted  : List PeatReg
deriving DecidableEq, Repr, Inhabited

/-- Memory faults that the leaf holds (R389, R391): the scrub pointer, words known uncorrectable with their code-word addresses, words whose
alarm was raised since they were last written. -/
structure LeafEcc where
  ptr     : Nat
  bad     : List (LeafArray × BitVec 16)
  alarmed : List LeafArray
  period  : Nat
deriving DecidableEq, Repr, Inhabited

/-- A teardown that waits for its Inkline (R331). -/
structure Teardown where
  epoch  : Word
  cseq   : BitVec 16
  sender : Word
deriving DecidableEq, Repr

/-- A configuration message already acted on, with the acknowledgement that every copy gets once there is one
(R324). -/
structure Acted where
  sender : Word
  cseq   : BitVec 16
  op     : Nat
  cfg    : BitVec 16
  answer : Option (Nat × Nat)
deriving DecidableEq, Repr, Inhabited

/-- The leaf's side of the Control conversation (R310, R324, R331). -/
structure LeafCtl where
  acted    : List Acted
  teardown : Option Teardown
  fenced   : Bool
  fencePend : Option (Word × Bool)
  cseq     : BitVec 16
  asked    : List (BitVec 16 × Message)
  tray     : Option Word
deriving DecidableEq, Repr, Inhabited

/-- What leaves the leaf: a Reed message on a port, a cell on `ul_tx` with its destination, a test-port word. -/
inductive LeafOut where
  | reed (port : Bool) (m : ReedMsg) (crcBad : Bool)
  | cell (dst : BitVec 7) (c : Cell)
  | test (w : DWord)
deriving DecidableEq, Repr

/-- One leaf. -/
structure Leaf where
  hard    : Hardening
  pins    : LeafPins
  regs    : Tbl Word
  caps    : List (Nat × Word)
  rdata   : Word
  cap     : Capture
  quill   : Quill
  time    : LeafTime
  chain   : Chain
  ul      : Uplink
  taps    : Tbl Tap
  keys    : Tbl Word
  test    : TestSt
  hb      : Heartbeat
  irq     : Irq
  iw      : Inkwell
  peat    : Peat
  ecc     : LeafEcc
  ctl     : LeafCtl
  ready   : List Message
  out     : List LeafOut
deriving DecidableEq, Repr

/-! ## Polornaz -/

/-- Pins of Polornaz that hold a level (Table 18.1), and the endpoint's state towards the host (R400). `jtag` is what the
last JTAG instruction selected, `boundary` its boundary-scan register. -/
structure PzPins where
  porN      : Bool
  perstN    : Bool
  refclk    : Bool
  ready     : Bool
  tripN     : Bool
  railLow   : Bool
  i3cAddr   : BitVec 2
  pcieUp    : Bool
  busMaster : Bool
  d3hot     : Bool
  msixOn    : Bool
  fallen    : Bool
  jtag      : BitVec 3
  boundary  : DWord
deriving DecidableEq, Repr

/-- I3C state (R403): dynamic address, whether ENEC enabled the in-band interrupt. -/
structure I3c where
  dyn : Option (BitVec 7)
  ibi : Bool
deriving DecidableEq, Repr, Inhabited

/-- A clock with a servo (R118, R425): ns with `sub` in units of 10^-9 ns, adjustment and integral in parts per 10^9,
samples near zero in a row, servo state. -/
structure Servo where
  ns    : Nat
  sub   : Nat
  adj   : Int
  integ : Int
  good  : Nat
  st    : BitVec 3
deriving DecidableEq, Repr, Inhabited

/-- State of a PTP port of one instance (IEEE 1588-2019). -/
inductive PtpState where
  | listening
  | master
  | slave
  | passive
  | faulty
deriving DecidableEq, Repr, Inhabited

/-- A PTP port of one instance: the last Announce heard, a Sync that waits for its Follow_Up (sequence, arrival,
correction), the last t2 - t1, the mean path delay, a Delay_Req sent (sequence, t3), sequences of Sync,
Announce and Delay_Req. Times in 1/16 ns. -/
structure PtpPort where
  st     : PtpState
  heard  : Option Announce
  sync   : Option (BitVec 16 × Int × Int)
  down   : Option Int
  mpd    : Int
  dreq   : Option (BitVec 16 × Int)
  seq    : BitVec 16
  aseq   : BitVec 16
  dseq   : BitVec 16
deriving DecidableEq, Repr, Inhabited

/-- Time of Polornaz (R118 to R120): tray time, both domains with their ports, U0 and U1 keyed `2 * domain + u`, downstream
ones `4 + 2 * port + domain`; the domain followed last; when holdover began; whether tray time has left FREE once; TIME event last told. Stamps queued per trigger input, with edge and drops
before, the last edge counted, stamps dropped since the last kept; the last pulse of each output. -/
structure PzTime where
  ns     : Nat
  sub    : Nat
  clk    : Nat
  doms   : Tbl Servo
  ports  : Tbl PtpPort
  dom    : Nat
  hoAt   : Option Nat
  begun  : Bool
  told   : Nat
  tin    : Tbl (List (Nat × Bool × Nat))
  tinAt  : Tbl Nat
  tinLost : Tbl Nat
  pulses : Tbl Nat
deriving DecidableEq, Repr, Inhabited

/-- A routing entry (Table 9.7) with what the device keeps beside it for liveness (R307 to R311): EVAL, a fence that
waits, tray times of the last frame, member report and evidence, when Mute and the disagreement began, the last probe, the
member's flags, the sum of its registration; and for ownership (R331): teardown pending, an ASSIGN that waits. `t4` is the
last marked frame cell (R109): arrival in 1/16 ns, residence, FSEQ; `chain` is its chain master. -/
structure Route where
  fleet    : Word
  tag      : BitVec 24
  pos      : BitVec 6
  valid    : Bool
  refused  : Bool
  oos      : Bool
  live     : BitVec 2
  phase    : Bool
  port     : BitVec 4
  home     : BitVec 6
  cfg      : BitVec 16
  lastFseq : BitVec 16
  extErr   : BitVec 16
  lastInst : Nat
  lastArr  : Nat
  inkEp    : Word
  frames   : Word
  drops    : List Word
  chkErr   : BitVec 16
  eval     : BitVec 2
  fence    : Option (Word × Bool)
  frameAt  : Nat
  reportAt : Nat
  evidAt   : Nat
  muteAt   : Nat
  disagAt  : Option Nat
  seconds  : Nat
  probeAt  : Nat
  probes   : Word
  stopped  : Bool
  idle     : Bool
  untimed  : Bool
  version  : Byte
  memCfg   : BitVec 16
  teardown : Bool
  torn     : Bool
  assign   : Option (BitVec 24)
  t4       : Option (Nat × Word × BitVec 16)
  work     : Option (Word × Word × Word)
deriving DecidableEq, Repr, Inhabited

/-- A meter of RFC 2698: by how much the C and P buckets are below full, in 10^-9 byte, as of a tray time. -/
structure Meter where
  c  : Nat
  p  : Nat
  filled : Nat
deriving DecidableEq, Repr, Inhabited

/-- A cell held in an ingress queue: yellow or not, tray time of its first bit in 1/16 ns, residence beside it. -/
structure IngCell where
  cell   : Cell
  yellow : Bool
  came   : Nat
deriving DecidableEq, Repr, Inhabited

/-- Ingress of Polornaz (R161, R173 to R176, R218): queues keyed `8 * port + class`; metering contexts keyed
`(64 * port + context) * 8 + class`; alarm policers keyed `64 * port + context` as credits missing, in 1/1000000 credit, and
tray time; Control admission buckets as cells missing, in 1/1000000, and tray time; alarm keys remembered; the message under
way by port, fleet ID and class with its MSEQ and next CIDX; Control cells let through, by port, and whole Control messages;
cells discarded by port (R161, R164). -/
structure Ingress where
  queues  : Tbl (List IngCell)
  meters  : Tbl Meter
  policer : Tbl (Nat × Nat)
  budget  : Tbl (Nat × Nat)
  seen    : List (Word × BitVec 16 × Nat)
  prog    : List ((Nat × Word × BitVec 3) × (BitVec 16 × Nat))
  asm     : Tbl (List IngCell)
  ready   : List (Nat × Message)
  bad     : Tbl Nat
deriving DecidableEq, Repr, Inhabited

/-- An alarm on its way through the output stage (Table 16.4). -/
structure AlarmEntry where
  payload : List Byte
  fleet   : Word
  ink     : Word
  path    : BitVec 3
  tag     : BitVec 24
deriving DecidableEq, Repr, Inhabited

/-- An upward alarm that no ALMACK has acknowledged (R333): the message and when it was sent. -/
structure Unacked where
  msg  : Message
  aseq : BitVec 16
  sent : Nat
deriving DecidableEq, Repr, Inhabited

/-- Where a mailbox message came from, and so where its reply goes (R244). -/
inductive MbSrc where
  | slot (n : BitVec 4)
  | relay (sender : Word) (cseq : BitVec 16) (cfg : BitVec 16)
deriving DecidableEq, Repr, Inhabited

/-- A committed mailbox message (Table 10.9). -/
structure MbMsg where
  src     : MbSrc
  mtype   : Byte
  tag     : BitVec 24
  secure  : Bool
  reply   : Bool
  seq     : BitVec 16
  toprog  : Bool
  station : BitVec 6
  pslot   : BitVec 4
  payload : List Byte
  crcOk   : Bool
deriving DecidableEq, Repr, Inhabited

/-- The mailbox (R243, R244): slot words keyed `1024 * slot + word`, messages in order of commit, replies that wait for
the ring, ring phase, the bytes so far of the program image that each mailbox slot is sending, 16 for relayed messages. -/
structure Mailbox where
  words   : Tbl Word
  queue   : List MbMsg
  replies : List (MbMsg × Byte × List Byte)
  phase   : Bool
  loads   : Tbl (List Byte)
deriving DecidableEq, Repr, Inhabited

/-- A stream binding (Table 10.11). -/
structure Bind where
  tag   : BitVec 24
  kind  : BitVec 4
  depth : Nat
  arg   : BitVec 16
deriving DecidableEq, Repr, Inhabited

/-- A granted region (Table 10.11), in bytes. -/
structure Region where
  base  : Nat
  size  : Nat
  write : Bool
deriving DecidableEq, Repr, Inhabited

/-- A program image (Table 10.11) with the world of the mailbox slot that loaded it (R384). -/
structure Image where
  arr      : Bool
  ink      : Bool
  tim      : Bool
  prio     : BitVec 2
  tstream  : BitVec 4
  thresh   : Nat
  age      : Nat
  inkEpoch : Word
  kmask    : BitVec 4
  pcode    : Nat
  periodic : Bool
  budget  : Nat
  ttime    : Nat
  cfg      : BitVec 16
  models   : List Word
  binds    : List Bind
  regions  : List Region
  code     : List Word
  secure   : Bool
deriving DecidableEq, Repr, Inhabited

/-- An item of a stream: bytes, when it came, and for a PROG_MSG with REPLY the message it answers (R268). -/
structure StreamItem where
  bytes : List Byte
  came  : Nat
  ask   : Option MbMsg
deriving DecidableEq, Repr, Inhabited

/-- A pending trigger (R235, R236): its data, LATE, and how many more fired while it was pending. -/
structure Pend where
  data : Nat
  late : Bool
  coal : Nat
deriving DecidableEq, Repr, Inhabited

/-- A program slot of a station. `disabled` by faults or by PROG_CTL; streams by descriptor; g16 to g23; next periodic
time, one-shot time, TNEXT; next launch tag, launches outstanding; times of recent faults; alarm credits missing and when
the last was gained; a SUPPRESSED alarm owed. -/
structure PSlot where
  active   : Option Image
  shadow   : Option Image
  disabled : Bool
  arr      : Option Pend
  ink      : Option Pend
  tim      : Option Pend
  streams  : Tbl (List StreamItem)
  keep     : Tbl DWord
  pnext    : Nat
  once     : Option Nat
  tnext    : Nat
  tag      : BitVec 16
  out      : List (BitVec 16)
  faults   : List Nat
  spent    : Nat
  supp     : Bool
deriving DecidableEq, Repr, Inhabited

/-- A context that runs an activation (R229, R236): what is waited for and since when; program messages popped that want a
reply, and the last MBOX item popped when it still wants one (R268). -/
structure Ctx where
  slot  : BitVec 4
  image : Image
  pc    : Nat
  g     : Tbl DWord
  v     : Tbl (List Word)
  k     : Tbl DWord
  exec  : Nat
  kind  : BitVec 2
  late  : Bool
  data  : Nat
  coal  : Nat
  wait  : Option (Instr × Nat)
  asks  : List MbMsg
  cur   : Option MbMsg
deriving DecidableEq, Repr

/-- A tree placed in SRAM (R212, R279): index in its model, die, address, nodes, depth, omitted (R276). -/
structure Tree where
  idx   : Nat
  die   : Nat
  addr  : Nat
  len   : Nat
  depth : Nat
  omitted : Bool
deriving DecidableEq, Repr, Inhabited

/-- How far a model has come (R280 to R285). -/
inductive MState where
  | checking
  | shadow
  | planned
  | active
  | staging
deriving DecidableEq, Repr, Inhabited

/-- A model: `trees` active for launches, `todo` still in the image with the place meant for each, `old` the replaced
model's trees still active (staging), the commit that unloads it, bytes staged, eighths told, when each die finished. -/
structure Model where
  id      : Word
  depth   : Nat
  nclass  : Nat
  nf      : Nat
  base    : Word
  cfg     : BitVec 16
  st      : MState
  trees   : List Tree
  todo    : List Tree
  old     : List Tree
  oldId   : Word
  unload  : Option (BitVec 16)
  repl    : Bool
  late    : Bool
  image   : Nat
  bytes   : Nat
  done    : Nat
  eighths : Nat
  finish  : Tbl Nat
  ask     : Option MbMsg
deriving DecidableEq, Repr, Inhabited

/-- A launch under way: the sets read at its issue, its features, its flags (R274, R275, R278). -/
structure Launch where
  station : BitVec 6
  slot    : BitVec 4
  tag     : BitVec 16
  model   : Word
  nclass  : Nat
  base    : Word
  trees   : List Tree
  feats   : List Word
  mixed   : Bool
  repl    : Bool
deriving DecidableEq, Repr, Inhabited

/-- A member of a compare group (Table 8.5). -/
structure GMember where
  fleet : Word
  unit  : BitVec 4
  role  : Bool
deriving DecidableEq, Repr, Inhabited

/-- A compare group (Table 8.5); `head` is words 0x00 to 0x08, `members` those carried so far. -/
structure Group where
  tag     : BitVec 24
  group   : BitVec 16
  reduce  : Bool
  r       : Nat
  nres    : Nat
  depth   : Nat
  accf    : Nat
  ktol    : Nat
  timeout : Nat
  home    : BitVec 2
  head    : List Byte
  members : List GMember
deriving DecidableEq, Repr, Inhabited

/-- What the Blotter takes from a digest record (Table 8.3). -/
structure DigRec where
  fleet   : Word
  role    : Bool
  unit    : BitVec 4
  exact   : DWord
  count   : Nat
  nans    : Nat
  infs    : Nat
  kmin    : Word
  kmax    : Word
  sum     : Nat
  sumsq   : Nat
  clamped : Bool
  incomplete : Bool
  nokey   : Bool
  keygen  : Bool
  e       : Byte
  seedsel : BitVec 3
  tbin    : Option (BitVec 3)
  lsig    : BitVec 4
  sketch  : List DWord
deriving DecidableEq, Repr, Inhabited

/-- An open compare instance, or a test instance of one leaf and round (R192, R202). -/
structure Instance where
  tag    : BitVec 24
  group  : BitVec 16
  epoch  : Word
  occ    : Byte
  die    : Nat
  opened : Nat
  recs   : List DigRec
deriving DecidableEq, Repr, Inhabited

/-- A charged mismatch or a clean round of a unit with its cell, if it has one (R205, R206). -/
structure HEvent where
  clean : Bool
  cell  : Option (BitVec 3 × BitVec 4)
deriving DecidableEq, Repr, Inhabited

/-- Health of a host unit as the tray holds it (Table 15.7, R205): events newest first. -/
structure Health where
  st     : BitVec 2
  cond   : Bool
  cell   : BitVec 3 × BitVec 4
  clean  : Nat
  inCell : Nat
  events : List HEvent
deriving DecidableEq, Repr, Inhabited

/-- The Blotter (R192 to R197): groups keyed `2^16 * tag + group`, instances open and closed, test instances, units keyed
`16 * fleet[19:0] + unit`, records of undeclared groups, late records, records refused by a full slice. -/
structure Blotter where
  groups : Tbl Group
  opens  : List Instance
  closed : List (BitVec 24 × BitVec 16 × Word × Byte)
  tests  : List Instance
  units  : Tbl Health
  stray  : Nat
  late   : Nat
  ovr   : Nat
deriving DecidableEq, Repr, Inhabited

/-- A configuration message sent and not yet acknowledged (R324): receiver, port, sends so far, when last sent, whether
counted missing; those that have not answered; the mailbox message that waits for the answer. -/
structure Sent where
  rcpt     : Word
  port   : Nat
  op     : Byte
  cseq   : BitVec 16
  tag    : BitVec 24
  cfg    : BitVec 16
  msg    : Message
  sends  : Nat
  first  : Nat
  miss   : Bool
  leaves : List Word
  ask    : Option MbMsg
deriving DecidableEq, Repr, Inhabited

/-- How far a prepare has come at a device (Table 14.8). -/
inductive PrepState where
  | preparing
  | partialWait
  | committing
deriving DecidableEq, Repr, Inhabited

/-- A pending prepare of a job (R327): COP, payload, entries, leaves to be made ready with those that are or are missing,
children that have not answered; of those that have, leaves ready, leaves missing and how many more are missing; when PARTIAL was told; the parent's message that it answers. -/
structure Prep where
  cop     : Nat
  cfg     : BitVec 16
  payload : List Byte
  entries : List (Word × Bool)
  want    : List Word
  ready   : List Word
  missing : List Word
  wait    : List Word
  up      : Nat
  upMiss  : List Word
  more    : Nat
  st      : PrepState
  since   : Nat
  epoch   : Word
  time    : Nat
  ask     : Option CtlHead
deriving DecidableEq, Repr, Inhabited

/-- A job as a device knows it (R220, R302, R318): committed config epoch and its Inkline, phase, period, home, entries,
phase switches newest first with the phase before the oldest, whether this device is its home, staging unfinished, the head of
the CONFIG payload that named its leaf image; a pending prepare, a teardown or shrink under way, a STAGED advisory owed; ended. -/
structure Job where
  tag      : BitVec 24
  cfg      : BitVec 16
  commit   : Word
  phase    : Bool
  pcode    : BitVec 3
  level    : BitVec 2
  entries  : List (Word × Bool)
  switches : List (Word × Bool)
  before   : Bool
  homed    : Bool
  staging  : Bool
  head     : List Byte
  prep     : Option Prep
  tear     : Option Prep
  tell     : Bool
  gone     : Bool
deriving DecidableEq, Repr, Inhabited

/-- A pending Inkline at a Polornaz (R320, R321), with the phase and period that its commit brings, and a restore. -/
structure TrayInk where
  tag : BitVec 24
  m   : InkMsg
deriving DecidableEq, Repr, Inhabited

/-- A cut that a device gathers (R330): chains of the job by port with their CUT reports, flushes still awaited by
leaf, counts merged from children, children awaited; of a commit, leaves that were ready and that were not. -/
structure TCut where
  epoch   : Word
  tag     : BitVec 24
  kind    : Kind
  time    : Nat
  chains  : List Nat
  flushes : List (Word × BitVec 3)
  early   : List (Word × BitVec 3)
  ready   : Nat
  late    : Nat
  done    : Nat
  timeout : Nat
  missing : List Word
  kids    : List Word
  okN     : Nat
  bad     : List Word
  more    : Nat
deriving DecidableEq, Repr, Inhabited

/-- A child Polornaz (R325, R337): port, when last heard, silent, the epoch in force that it last told. -/
structure Child where
  port   : Nat
  heard  : Nat
  silent : Bool
  epoch  : Word
deriving DecidableEq, Repr, Inhabited

/-- A chain on a downstream port (R335): registered master and when it was last heard, sub-master, effective MINOR, epoch
reported in force. -/
structure ChainReg where
  master : Word
  heard  : Nat
  sub    : Option Word
  minor  : Nat
  epoch  : Word
deriving DecidableEq, Repr, Inhabited

/-- A lease granted and outstanding (R319). -/
structure Lease where
  rcpt    : Word
  base  : Word
  count : Nat
deriving DecidableEq, Repr, Inhabited

/-- The Control handler (chapter 14): jobs by tag, chains by port, children by fleet ID, messages sent, messages acted on,
sequences by port, leases with those granted ahead, Inklines pending, wanted for want of an epoch (tag, KIND, time asked, purpose) and applied, cuts, config epochs allocated; path upward (`toward` while re-parenting: to U0); epoch
requests that wait; lease requests passed on, by tag and requester; acknowledgements given, by sender and sequence. -/
structure PzCtl where
  jobs     : Tbl Job
  chains   : Tbl ChainReg
  kids     : Tbl Child
  sent     : List Sent
  acted    : List Acted
  cseqs    : Tbl (BitVec 16)
  left     : Nat
  next     : Word
  spare    : List (Word × Nat)
  granted  : List Lease
  origin   : Word
  nextCfg  : BitVec 16
  based    : Bool
  alloced  : List (BitVec 16)
  askEpoch : List MbMsg
  askKids  : List CtlHead
  inks     : List TrayInk
  inkWait  : List (BitVec 24 × Kind × Nat × Nat)
  epoch    : Word
  inkTime  : Nat
  started  : List (Word × Nat)
  cuts     : List TCut
  parentAt : Nat
  unacked  : List Unacked
  reparAt  : Nat
  toward   : Bool
  relays   : List (BitVec 24 × Word)
  rseq     : Word
  aseq     : BitVec 16
  tseqs    : Tbl Word
  answers  : List (Word × BitVec 16 × List Byte)
deriving DecidableEq, Repr, Inhabited

/-- A page copy of the Peat store (R352): data words keyed by index, WEAR, GEN, and whether its CRC fails. -/
structure PPage where
  words : Tbl DWord
  wear  : Nat
  gen   : Nat
  torn  : Bool
deriving DecidableEq, Repr, Inhabited

/-- Keeper state as saved (R356): one slot. -/
structure KState where
  seq     : Nat
  time    : Nat
  nextCfg : BitVec 16
  origin  : Word
  granted : List Lease
  jobs    : Tbl Job
  adj     : List Int
deriving DecidableEq, Repr, Inhabited

/-- The Peat store (R352 to R357): the page copies of both keepers, keeper-state slots K0 and K1, when the last save was
made and whether one is due. -/
structure PzPeat where
  k0     : Tbl PPage
  k1     : Tbl PPage
  slots  : Tbl (Option KState)
  saved  : Option Nat
  due    : Bool
deriving DecidableEq, Repr, Inhabited

/-- A snapshot in progress (R358 to R361): its job and Inkline, ranges in index order as (base, size), pages not yet copied,
drains in order of arrival, leaves awaited, leaves missing, copy and leaf section complete. -/
structure Snap where
  tag     : BitVec 24
  epoch   : Word
  cfg     : BitVec 16
  time    : Nat
  seq     : Nat
  ranges  : List (Nat × Nat)
  pages   : List Nat
  leaves  : List Word
  want    : List Word
  missing : List Word
  pushed  : Nat
  copied  : Bool
  closed  : Bool
deriving DecidableEq, Repr, Inhabited

/-- Snapshot engine: SEQ started last, the snapshot in progress, a restore scheduled (config epoch) or running (tag). -/
structure SnapSt where
  seq     : Nat
  now     : Option Snap
  restore : Option (BitVec 16 × BitVec 24)
  running : Option (BitVec 24)
deriving DecidableEq, Repr, Inhabited

/-- Device alarms of the last millisecond, by code and die or rail (R421), and what the governor and the thermal watch hold:
demand, dies at or above TJ_ALM, when the trip came, mesh links down, scrub passes' next words. -/
structure PzHealth where
  raised : List (Nat × Nat × Nat)
  demand : Nat
  hot    : List Nat
  trip   : Option Nat
  mesh   : List (BitVec 4 × BitVec 4)
  sram   : Nat
  dram   : Nat
  sramH  : Nat
  dramH  : Nat
  bad    : List Nat
  alarmed : List Nat
deriving DecidableEq, Repr, Inhabited

/-- What leaves Polornaz: a message on a port (0 to 15 downstream, 16 U0, 17 U1), a write to host memory (bytes by address,
zeros elsewhere in the length), an MSI-X message, a PTP message, a time cell, a pulse, words of the sideband and JTAG, and the
messages to a leaf whose layout the spec does not give: a liveness query, a fence, a health update. -/
inductive PzOut where
  | msg (port : Nat) (m : Message)
  | host (addr : Nat) (bs : List Byte)
  | hostCopy (addr len : Nat) (bs : Tbl Byte)
  | msix (v : Nat)
  | ptp (port : Nat) (dom : Bool) (m : PtpMsg)
  | timeCell (port : Nat) (fleet : Word) (t1 : Nat) (t4 : Option (Nat × Word × BitVec 16)) (asym : Word)
  | pulse (n width time : Nat)
  | ibi (b : Byte)
  | i3c (bs : List Byte)
  | jtag (w : DWord)
  | probe (port : Nat) (fleet : Word)
  | fence (port : Nat) (fleet : Word) (on : Bool) (effEp : Word)
  | health (port : Nat) (fleet : Word) (m : HealthMsg)
deriving DecidableEq, Repr

/-- One Polornaz. `mem` holds SRAM and DRAM data by Jarend address (R231); `slots` is keyed `16 * station + slot`, `ctxs`
`4 * station + context`. -/
structure Pz where
  regs    : Tbl Word
  caps    : List (Nat × Word)
  rdata   : Word
  b2data  : List Byte
  pins    : PzPins
  i3c     : I3c
  time    : PzTime
  mem     : Tbl Byte
  routes  : Tbl Route
  ing     : Ingress
  alarmQ  : List AlarmEntry
  alPhase : Bool
  recQ    : List (Bool × List Byte)
  recPhase : Bool
  msixDue : List Nat
  msixAt  : Tbl Nat
  mb      : Mailbox
  slots   : Tbl PSlot
  ctxs    : Tbl (Option Ctx)
  models  : Tbl Model
  launches : List Launch
  blot    : Blotter
  ctl     : PzCtl
  iw      : Inkwell
  peat    : PzPeat
  snap    : SnapSt
  hl      : PzHealth
  out     : List PzOut
deriving DecidableEq, Repr

/-! ## The whole -/

/-- The state: one leaf, one Polornaz with its stations, the commands that wait, and the model's own counter of
free values (assumption log 1). -/
structure State where
  leaf    : Leaf
  pz      : Pz
  pending : List Instr
  freeCtr : Nat
deriving DecidableEq, Repr

/-- Hardening of the modelled die: everything connected, stream s on bank s, HOSTLINK at the 16 Gb/s minimum
(DESIGN CHOICE, assumption log 5). -/
def Hardening.choice : Hardening :=
  { hostlink := 4, irqTgt := 7, tmMode := false, tmFixed := 0, bankEn := 0xFFFF, tapEn := 0xF, testEn := true
    hbEn := true, cmdBank := (List.range 16).map (BitVec.ofNat 4), vpEn := 0xFFFFFFFFFFFFFFFF, harden := 0 }

/-- Pins in their reset state (Tables 2.2 to 2.8 and the power table): both resets as at the assertion of
`gl_por_n`, host isolated, port A and B wired, position 0 (DESIGN CHOICE for the straps, assumption log 5). -/
def LeafPins.reset : LeafPins :=
  { porN := false, rstN := true, hostIsoN := false, pkgpos := 0, reedcon := 3, irqIdle := 0, refclk := true
    ulRxReady := true }

/-- The leaf after a power-on reset: every register at its reset value, everything held discarded (R56, R86). -/
def Leaf.reset : Leaf :=
  { hard := Hardening.choice, pins := LeafPins.reset, regs := [], caps := [], rdata := 0
    cap := default, quill := default, time := default, chain := default, ul := default
    taps := [], keys := [], test := default, hb := default, irq := default, iw := default
    peat := default, ecc := { (default : LeafEcc) with period := 24 }, ctl := default, ready := [], out := [] }

/-- Pins of Polornaz while `pz_por_n` is low, before the PCIe link (Table 18.1); IDCODE is what JTAG selects at its reset. -/
def PzPins.reset : PzPins :=
  { porN := false, perstN := false, refclk := true, ready := false, tripN := true, railLow := false, i3cAddr := 0
    pcieUp := false, busMaster := false, d3hot := false, msixOn := false, fallen := false, jtag := 1, boundary := 0 }

/-- Polornaz after a power-on reset, before `pz_por_n` rises: every register at its reset value, memory, Peat store and
routing table empty (assumption logs 5 and 7). -/
def Pz.reset : Pz :=
  { regs := [], caps := [], rdata := 0, b2data := [], pins := PzPins.reset, i3c := default, time := default, mem := []
    routes := [], ing := default, alarmQ := [], alPhase := false, recQ := [], recPhase := false, msixDue := []
    msixAt := [], mb := default, slots := [], ctxs := [], models := [], launches := [], blot := default, ctl := default
    iw := default, peat := default, snap := default, hl := { (default : PzHealth) with sramH := 24, dramH := 24 }, out := [] }

/-- The machine right after reset: no command waits. -/
def State.reset : State := { leaf := Leaf.reset, pz := Pz.reset, pending := [], freeCtr := 0 }

end Sys2Proof.Machine
end

