-- ==== Sys2Proof/Machine/Regs.lean ====
section
/-!
DEFINITION. Sys2Proof/Machine/Regs.lean: the register tables of both parts (R417: Tables 19.1, 19.2 and the tables
they name): offset, strides and counts, fields with access code (Table 0.5) and reset value, and one name per field.
-/

namespace Sys2Proof.Machine

/-- Access codes of Table 0.5. -/
inductive Acc where
  | rw
  | ro
  | wo
  | w1c
  | rc
  | rwp
  | srw
deriving DecidableEq, Repr

/-- A field of a register row: bits, access code, reset value. -/
structure RegField where
  hi  : Nat
  lo  : Nat
  acc : Acc
  rst : Nat
deriving DecidableEq, Repr

/-- A row of a register table: base offset, strides and counts of its indices, fields. -/
structure RegRow where
  base : Nat
  dims : List (Nat × Nat)
  flds : List RegField
deriving DecidableEq, Repr

/-- A named field: offset of its register (index 0), high and low bit. -/
structure Fld where
  off : Nat
  hi  : Nat
  lo  : Nat
deriving DecidableEq, Repr

/-- The same field at a further offset (an index of the register). -/
def Fld.at (f : Fld) (d : Nat) : Fld := { f with off := f.off + d }

/-- Whether `d`, an offset from the base, is one of the indexed registers. -/
def dimsHave : List (Nat × Nat) → Nat → Bool
  | [], d => d == 0
  | (st, n) :: ds, d => decide (d / st < n) && dimsHave ds (d % st)

/-- Whether the row holds the register at `off`. -/
def RegRow.has (r : RegRow) (off : Nat) : Bool :=
  decide (r.base ≤ off) && dimsHave r.dims (off - r.base)

/-- The reset word of a row. -/
def RegRow.reset (r : RegRow) : Word :=
  r.flds.foldl (fun w f => w ||| BitVec.ofNat 32 (f.rst * 2 ^ f.lo)) 0

/-- Register rows: IDENT_VENDOR to IRQ_PEND. -/
def glRows0 : List RegRow := [
  ⟨0x0, [], [⟨31, 0, .ro, 0x594C4744⟩]⟩,
  ⟨0x4, [], [⟨31, 24, .ro, 0x3⟩, ⟨23, 16, .ro, 0x1⟩, ⟨15, 8, .ro, 0x0⟩, ⟨7, 0, .ro, 0x0⟩]⟩,
  ⟨0x8, [], [⟨7, 4, .ro, 0x1⟩, ⟨3, 3, .w1c, 0x0⟩, ⟨2, 2, .ro, 0x1⟩, ⟨1, 1, .ro, 0x0⟩, ⟨0, 0, .ro, 0x0⟩]⟩,
  ⟨0x10, [], [⟨31, 24, .ro, 0x0⟩, ⟨23, 21, .ro, 0x0⟩, ⟨20, 20, .ro, 0x0⟩, ⟨15, 0, .ro, 0x0⟩]⟩,
  ⟨0x14, [], [⟨31, 16, .ro, 0x0⟩, ⟨15, 12, .ro, 0x0⟩, ⟨11, 11, .ro, 0x0⟩, ⟨10, 10, .ro, 0x0⟩]⟩,
  ⟨0x18, [(0x4, 2)], [⟨31, 0, .ro, 0x0⟩]⟩,
  ⟨0x20, [(0x4, 2)], [⟨31, 0, .ro, 0x0⟩]⟩,
  ⟨0x400, [], [⟨11, 2, .srw, 0x3FF⟩, ⟨1, 1, .ro, 0x1⟩, ⟨0, 0, .ro, 0x0⟩]⟩,
  ⟨0x404, [], [⟨6, 0, .srw, 0x7F⟩]⟩,
  ⟨0x408, [], [⟨15, 0, .srw, 0x0⟩]⟩,
  ⟨0x440, [(0x4, 12)], [⟨15, 0, .rc, 0x0⟩]⟩,
  ⟨0x800, [(0x4, 16)], [⟨31, 0, .ro, 0x0⟩]⟩]

/-- Register rows: IRQ_CNT to TM_NOW_LO. -/
def glRows1 : List RegRow := [
  ⟨0x840, [(0x4, 128)], [⟨31, 0, .ro, 0x0⟩]⟩,
  ⟨0xA40, [(0x4, 128)], [⟨31, 0, .rw, 0x0⟩]⟩,
  ⟨0xC40, [(0x4, 8)], [⟨30, 28, .rw, 0x0⟩, ⟨26, 24, .rw, 0x0⟩, ⟨22, 20, .rw, 0x0⟩, ⟨18, 16, .rw, 0x0⟩, ⟨14, 12, .rw, 0x0⟩, ⟨10, 8, .rw, 0x0⟩, ⟨6, 4, .rw, 0x0⟩, ⟨2, 0, .rw, 0x0⟩]⟩,
  ⟨0xD00, [(0x20, 8)], [⟨23, 16, .rc, 0x0⟩, ⟨15, 0, .rc, 0xFFFF⟩]⟩,
  ⟨0xD04, [(0x20, 8)], [⟨8, 0, .wo, 0x0⟩]⟩,
  ⟨0xD08, [(0x20, 8)], [⟨31, 31, .srw, 0x0⟩, ⟨7, 0, .rw, 0x0⟩]⟩,
  ⟨0xD0C, [(0x20, 8)], [⟨31, 29, .ro, 0x0⟩, ⟨28, 25, .ro, 0x0⟩, ⟨24, 24, .ro, 0x0⟩, ⟨23, 23, .ro, 0x0⟩, ⟨22, 22, .ro, 0x0⟩, ⟨15, 8, .rc, 0x0⟩]⟩,
  ⟨0x1000, [], [⟨31, 30, .rw, 0x0⟩, ⟨29, 29, .rw, 0x0⟩]⟩,
  ⟨0x1004, [], [⟨31, 29, .ro, 0x0⟩, ⟨28, 27, .ro, 0x0⟩, ⟨26, 26, .ro, 0x1⟩, ⟨25, 25, .w1c, 0x0⟩, ⟨24, 24, .w1c, 0x0⟩, ⟨23, 23, .w1c, 0x0⟩, ⟨22, 22, .w1c, 0x0⟩, ⟨21, 21, .w1c, 0x0⟩, ⟨15, 0, .ro, 0x0⟩]⟩,
  ⟨0x1008, [], [⟨17, 0, .rw, 0x0⟩]⟩,
  ⟨0x100C, [], [⟨31, 0, .ro, 0x0⟩]⟩,
  ⟨0x1010, [], [⟨31, 0, .ro, 0x0⟩]⟩]

/-- Register rows: TM_NOW_HI to CH_INK_CTL. -/
def glRows2 : List RegRow := [
  ⟨0x1014, [], [⟨31, 0, .ro, 0x0⟩]⟩,
  ⟨0x1018, [], [⟨31, 0, .ro, 0x0⟩]⟩,
  ⟨0x101C, [], [⟨31, 0, .ro, 0x0⟩]⟩,
  ⟨0x1020, [], [⟨31, 28, .rw, 0x2⟩, ⟨27, 24, .rw, 0x6⟩, ⟨23, 16, .rw, 0x4⟩, ⟨15, 8, .rw, 0xA⟩]⟩,
  ⟨0x1024, [], [⟨31, 16, .ro, 0x0⟩, ⟨15, 0, .ro, 0x0⟩]⟩,
  ⟨0x1028, [], [⟨31, 16, .ro, 0x0⟩, ⟨15, 8, .rc, 0x0⟩, ⟨5, 0, .ro, 0x0⟩]⟩,
  ⟨0x2000, [], [⟨31, 28, .rw, 0x1⟩, ⟨27, 27, .wo, 0x0⟩, ⟨26, 20, .rw, 0x0⟩]⟩,
  ⟨0x2004, [], [⟨31, 30, .ro, 0x3⟩, ⟨29, 29, .ro, 0x0⟩, ⟨28, 28, .ro, 0x0⟩, ⟨27, 27, .w1c, 0x0⟩, ⟨26, 26, .ro, 0x0⟩, ⟨25, 25, .ro, 0x0⟩, ⟨24, 23, .ro, 0x0⟩, ⟨22, 19, .ro, 0x1⟩, ⟨18, 15, .ro, 0x1⟩, ⟨14, 8, .ro, 0x0⟩, ⟨5, 0, .ro, 0x0⟩]⟩,
  ⟨0x2008, [], [⟨31, 0, .ro, 0x0⟩]⟩,
  ⟨0x200C, [], [⟨31, 0, .ro, 0x0⟩]⟩,
  ⟨0x2010, [], [⟨31, 16, .ro, 0x0⟩, ⟨15, 15, .ro, 0x0⟩, ⟨14, 14, .ro, 0x0⟩, ⟨13, 11, .ro, 0x0⟩, ⟨10, 7, .rc, 0x0⟩, ⟨6, 0, .ro, 0x0⟩]⟩,
  ⟨0x2014, [], [⟨31, 31, .wo, 0x0⟩, ⟨30, 28, .rw, 0x0⟩, ⟨23, 16, .ro, 0x0⟩]⟩]

/-- Register rows: CH_INK_T_LO to UL_SHP3. -/
def glRows3 : List RegRow := [
  ⟨0x2018, [], [⟨31, 0, .rw, 0x0⟩]⟩,
  ⟨0x201C, [], [⟨31, 0, .rw, 0x0⟩]⟩,
  ⟨0x2020, [], [⟨31, 0, .ro, 0x0⟩]⟩,
  ⟨0x2030, [(0x4, 2)], [⟨31, 24, .rc, 0x0⟩, ⟨23, 16, .rc, 0x0⟩, ⟨15, 8, .rc, 0x0⟩]⟩,
  ⟨0x2040, [(0x8, 2)], [⟨31, 0, .ro, 0x0⟩]⟩,
  ⟨0x2044, [(0x8, 2)], [⟨31, 24, .ro, 0x0⟩, ⟨5, 0, .ro, 0x0⟩]⟩,
  ⟨0x2050, [], [⟨31, 16, .ro, 0x0⟩, ⟨15, 8, .rc, 0x0⟩, ⟨7, 0, .rc, 0x0⟩]⟩,
  ⟨0x2060, [], [⟨31, 8, .ro, 0x0⟩, ⟨7, 7, .ro, 0x0⟩, ⟨6, 6, .ro, 0x0⟩, ⟨5, 3, .ro, 0x2⟩]⟩,
  ⟨0x3000, [], [⟨5, 0, .rw, 0x18⟩]⟩,
  ⟨0x3014, [], [⟨31, 16, .rw, 0x10⟩, ⟨15, 0, .rw, 0x8C0⟩]⟩,
  ⟨0x3018, [], [⟨31, 16, .rw, 0x140⟩, ⟨15, 0, .rw, 0x1180⟩]⟩,
  ⟨0x301C, [], [⟨31, 16, .rw, 0x20⟩, ⟨15, 0, .rw, 0x8C0⟩]⟩]

/-- Register rows: UL_SHP4 to CG_STAT. -/
def glRows4 : List RegRow := [
  ⟨0x3020, [], [⟨31, 16, .rw, 0x40⟩, ⟨15, 0, .rw, 0x1180⟩]⟩,
  ⟨0x3024, [], [⟨23, 16, .rw, 0x1⟩, ⟨15, 8, .rw, 0x2⟩, ⟨7, 0, .rw, 0x8⟩]⟩,
  ⟨0x3028, [], [⟨31, 16, .ro, 0x1180⟩, ⟨15, 0, .ro, 0x1180⟩]⟩,
  ⟨0x302C, [], [⟨23, 16, .ro, 0x40⟩, ⟨15, 0, .ro, 0x0⟩]⟩,
  ⟨0x3030, [], [⟨31, 0, .ro, 0x0⟩]⟩,
  ⟨0x3034, [], [⟨31, 31, .w1c, 0x0⟩, ⟨30, 30, .w1c, 0x0⟩, ⟨29, 29, .w1c, 0x0⟩, ⟨28, 28, .w1c, 0x0⟩]⟩,
  ⟨0x3040, [(0x4, 5)], [⟨31, 0, .ro, 0x0⟩]⟩,
  ⟨0x3060, [], [⟨31, 16, .ro, 0x0⟩, ⟨15, 0, .ro, 0x0⟩]⟩,
  ⟨0x4000, [(0x50, 256), (0x8, 9)], [⟨31, 0, .ro, 0x0⟩]⟩,
  ⟨0x4004, [(0x50, 256), (0x8, 9)], [⟨31, 31, .rw, 0x0⟩, ⟨30, 30, .rw, 0x0⟩, ⟨29, 24, .rw, 0x0⟩, ⟨15, 0, .ro, 0x0⟩]⟩,
  ⟨0x4048, [(0x50, 256)], [⟨31, 31, .rw, 0x0⟩, ⟨30, 28, .rw, 0x0⟩, ⟨27, 27, .rw, 0x0⟩, ⟨26, 23, .rw, 0x0⟩, ⟨22, 22, .rw, 0x0⟩, ⟨21, 21, .rw, 0x0⟩, ⟨20, 20, .wo, 0x0⟩]⟩,
  ⟨0x404C, [(0x50, 256)], [⟨31, 16, .ro, 0x0⟩, ⟨15, 15, .w1c, 0x0⟩, ⟨14, 14, .ro, 0x0⟩, ⟨13, 13, .w1c, 0x0⟩, ⟨8, 0, .w1c, 0x0⟩]⟩]

/-- Register rows: QL_CTL to QL_LM_NEWID. -/
def glRows5 : List RegRow := [
  ⟨0x9000, [], [⟨31, 31, .rw, 0x0⟩, ⟨30, 30, .rw, 0x0⟩, ⟨29, 29, .ro, 0x0⟩, ⟨28, 28, .ro, 0x0⟩, ⟨27, 25, .rw, 0x2⟩, ⟨24, 22, .ro, 0x2⟩]⟩,
  ⟨0x9004, [], [⟨31, 29, .ro, 0x0⟩, ⟨28, 28, .w1c, 0x0⟩, ⟨27, 27, .w1c, 0x0⟩, ⟨26, 26, .w1c, 0x0⟩, ⟨25, 25, .w1c, 0x0⟩, ⟨24, 24, .w1c, 0x0⟩, ⟨23, 23, .w1c, 0x0⟩, ⟨22, 22, .w1c, 0x0⟩, ⟨21, 21, .w1c, 0x0⟩, ⟨15, 0, .ro, 0x0⟩]⟩,
  ⟨0x9008, [], [⟨31, 0, .rw, 0x0⟩]⟩,
  ⟨0x900C, [], [⟨31, 31, .wo, 0x0⟩, ⟨15, 0, .rw, 0x0⟩]⟩,
  ⟨0x9010, [], [⟨31, 16, .ro, 0xBF68⟩, ⟨15, 0, .ro, 0x0⟩]⟩,
  ⟨0x9014, [], [⟨31, 16, .ro, 0x2000⟩, ⟨15, 0, .ro, 0x0⟩]⟩,
  ⟨0x9018, [], [⟨31, 0, .ro, 0x0⟩]⟩,
  ⟨0x901C, [], [⟨31, 16, .ro, 0x0⟩, ⟨15, 0, .ro, 0x0⟩]⟩,
  ⟨0x9020, [], [⟨5, 0, .rw, 0x0⟩]⟩,
  ⟨0x9024, [], [⟨31, 31, .rw, 0x0⟩, ⟨29, 24, .rw, 0x0⟩]⟩,
  ⟨0x9028, [], [⟨31, 0, .rw, 0x0⟩]⟩,
  ⟨0x902C, [], [⟨31, 0, .rw, 0x0⟩]⟩]

/-- Register rows: QL_LM_STAT to DG_ENT_C. -/
def glRows6 : List RegRow := [
  ⟨0x9030, [], [⟨31, 29, .ro, 0x0⟩, ⟨28, 28, .w1c, 0x0⟩, ⟨27, 27, .w1c, 0x0⟩, ⟨26, 26, .w1c, 0x0⟩, ⟨25, 25, .w1c, 0x0⟩, ⟨24, 22, .ro, 0x0⟩, ⟨13, 0, .ro, 0x0⟩]⟩,
  ⟨0x9400, [(0x4, 256)], [⟨31, 31, .rw, 0x0⟩, ⟨30, 24, .rw, 0x0⟩, ⟨23, 16, .rw, 0x0⟩, ⟨15, 11, .rw, 0x0⟩, ⟨10, 10, .rw, 0x0⟩, ⟨9, 9, .rw, 0x0⟩]⟩,
  ⟨0x9800, [(0x4, 256)], [⟨31, 24, .rc, 0x0⟩, ⟨23, 16, .rc, 0x0⟩, ⟨15, 13, .ro, 0x0⟩, ⟨12, 12, .ro, 0x0⟩, ⟨7, 7, .ro, 0x0⟩, ⟨6, 0, .ro, 0x0⟩]⟩,
  ⟨0xA000, [], [⟨31, 28, .rw, 0x0⟩, ⟨27, 26, .rw, 0x0⟩, ⟨25, 25, .ro, 0x0⟩, ⟨24, 24, .ro, 0x0⟩]⟩,
  ⟨0xA008, [(0x4, 2)], [⟨31, 0, .srw, 0x0⟩]⟩,
  ⟨0xA020, [(0x4, 4)], [⟨31, 24, .rc, 0x0⟩, ⟨23, 16, .rc, 0x0⟩, ⟨15, 8, .rc, 0x0⟩, ⟨7, 0, .rc, 0x0⟩]⟩,
  ⟨0xA030, [(0x4, 4)], [⟨31, 0, .ro, 0x0⟩]⟩,
  ⟨0xA040, [(0x8, 8), (0x4, 2)], [⟨31, 0, .srw, 0x0⟩]⟩,
  ⟨0xA080, [(0x4, 4)], [⟨31, 0, .ro, 0x0⟩]⟩,
  ⟨0xA100, [(0x100, 4), (0x10, 16)], [⟨31, 16, .rw, 0x0⟩, ⟨15, 0, .rw, 0x0⟩]⟩,
  ⟨0xA104, [(0x100, 4), (0x10, 16)], [⟨31, 16, .rw, 0x0⟩, ⟨15, 15, .rw, 0x0⟩, ⟨14, 14, .rw, 0x0⟩, ⟨13, 13, .rw, 0x0⟩, ⟨12, 12, .rw, 0x0⟩, ⟨11, 11, .rw, 0x0⟩, ⟨10, 8, .rw, 0x0⟩, ⟨7, 4, .rw, 0x0⟩]⟩,
  ⟨0xA108, [(0x100, 4), (0x10, 16)], [⟨31, 24, .rw, 0x0⟩, ⟨23, 16, .rw, 0x8D⟩]⟩]

/-- Register rows: DG_ENT_D to PT_SEED_LO. -/
def glRows7 : List RegRow := [
  ⟨0xA10C, [(0x100, 4), (0x10, 16)], [⟨31, 24, .ro, 0x0⟩, ⟨23, 0, .ro, 0x0⟩]⟩,
  ⟨0xB000, [], [⟨31, 31, .wo, 0x0⟩, ⟨30, 30, .wo, 0x0⟩, ⟨27, 24, .rw, 0x0⟩, ⟨23, 0, .rw, 0x0⟩]⟩,
  ⟨0xB004, [], [⟨31, 0, .rw, 0x0⟩]⟩,
  ⟨0xB008, [], [⟨31, 30, .ro, 0x3⟩, ⟨29, 29, .ro, 0x0⟩, ⟨28, 26, .ro, 0x0⟩, ⟨25, 25, .w1c, 0x0⟩, ⟨24, 24, .w1c, 0x0⟩, ⟨7, 0, .ro, 0x0⟩]⟩,
  ⟨0xB010, [(0x8, 4)], [⟨31, 0, .ro, 0x0⟩]⟩,
  ⟨0xB014, [(0x8, 4)], [⟨31, 0, .ro, 0x0⟩]⟩,
  ⟨0xB100, [(0x4, 64)], [⟨31, 0, .ro, 0x0⟩]⟩,
  ⟨0xC000, [], [⟨31, 0, .rwp, 0x0⟩]⟩,
  ⟨0xC004, [], [⟨0, 0, .rwp, 0x0⟩]⟩,
  ⟨0xC008, [], [⟨31, 0, .ro, 0x0⟩]⟩,
  ⟨0xC00C, [], [⟨31, 16, .rwp, 0x0⟩, ⟨15, 0, .rwp, 0x0⟩]⟩,
  ⟨0xC010, [], [⟨31, 0, .rw, 0x0⟩]⟩]

/-- Register rows: PT_SEED_HI to HB_STAT. -/
def glRows8 : List RegRow := [
  ⟨0xC014, [], [⟨31, 0, .rwp, 0x0⟩]⟩,
  ⟨0xC018, [], [⟨31, 27, .ro, 0x0⟩, ⟨26, 24, .ro, 0x0⟩, ⟨23, 16, .ro, 0x0⟩]⟩,
  ⟨0xC01C, [], [⟨31, 29, .ro, 0x4⟩, ⟨28, 24, .ro, 0x10⟩, ⟨23, 16, .ro, 0x40⟩, ⟨15, 12, .ro, 0x8⟩, ⟨11, 9, .ro, 0x4⟩]⟩,
  ⟨0xC400, [(0x4, 256)], [⟨31, 0, .ro, 0x0⟩]⟩,
  ⟨0xD000, [], [⟨31, 31, .rw, 0x0⟩, ⟨30, 23, .rw, 0x18⟩, ⟨22, 15, .rw, 0x4⟩, ⟨14, 7, .rw, 0x1⟩, ⟨6, 1, .rw, 0x0⟩]⟩,
  ⟨0xD004, [], [⟨31, 24, .rw, 0x28⟩, ⟨23, 16, .rw, 0x37⟩, ⟨15, 8, .rw, 0x46⟩, ⟨7, 0, .rw, 0x50⟩]⟩,
  ⟨0xD008, [], [⟨31, 24, .rw, 0x5A⟩, ⟨23, 16, .rw, 0x64⟩, ⟨15, 8, .rw, 0x6E⟩]⟩,
  ⟨0xD00C, [], [⟨3, 0, .rw, 0x0⟩]⟩,
  ⟨0xD010, [], [⟨31, 24, .rc, 0x0⟩, ⟨23, 16, .rc, 0x0⟩, ⟨15, 8, .rc, 0x0⟩, ⟨7, 0, .rc, 0x0⟩]⟩,
  ⟨0xD040, [(0x4, 16)], [⟨31, 30, .ro, 0x0⟩, ⟨29, 29, .ro, 0x0⟩, ⟨28, 26, .ro, 0x0⟩, ⟨25, 22, .ro, 0x0⟩, ⟨21, 21, .ro, 0x0⟩, ⟨20, 20, .ro, 0x0⟩, ⟨19, 16, .ro, 0x0⟩, ⟨15, 12, .rw, 0x0⟩, ⟨11, 11, .rw, 0x0⟩, ⟨10, 0, .ro, 0x0⟩]⟩,
  ⟨0xD100, [], [⟨31, 31, .rw, 0x0⟩, ⟨30, 24, .rw, 0x3⟩, ⟨15, 0, .rw, 0x64⟩]⟩,
  ⟨0xD104, [], [⟨31, 31, .ro, 0x0⟩, ⟨30, 30, .ro, 0x1⟩, ⟨23, 16, .ro, 0x0⟩, ⟨15, 0, .rc, 0x0⟩]⟩]

/-- Register rows: HB_BEATS to EC_LAST. -/
def glRows9 : List RegRow := [
  ⟨0xD108, [], [⟨31, 0, .ro, 0x0⟩]⟩,
  ⟨0xD110, [], [⟨31, 16, .rc, 0x0⟩, ⟨15, 8, .rc, 0x0⟩, ⟨7, 0, .rc, 0x0⟩]⟩,
  ⟨0xD114, [], [⟨31, 24, .rw, 0x18⟩, ⟨15, 0, .ro, 0x0⟩]⟩,
  ⟨0xD118, [], [⟨31, 31, .ro, 0x0⟩, ⟨15, 0, .ro, 0x0⟩]⟩]

/-- Every register of the leaf (Table 19.1). -/
def glRows : List RegRow :=
  glRows0 ++
  glRows1 ++
  glRows2 ++
  glRows3 ++
  glRows4 ++
  glRows5 ++
  glRows6 ++
  glRows7 ++
  glRows8 ++
  glRows9

/-- Register rows: IDENT to EC_PASS. -/
def pzRows0 : List RegRow := [
  ⟨0x0, [], [⟨31, 16, .ro, 0xD20⟩, ⟨15, 8, .ro, 0xB1⟩, ⟨7, 4, .ro, 0x1⟩, ⟨3, 0, .ro, 0x2⟩]⟩,
  ⟨0x10000, [], [⟨31, 30, .rw, 0x0⟩]⟩,
  ⟨0x10004, [], [⟨31, 16, .ro, 0x0⟩, ⟨15, 14, .ro, 0x0⟩, ⟨13, 13, .w1c, 0x0⟩, ⟨12, 12, .w1c, 0x0⟩, ⟨11, 11, .ro, 0x0⟩]⟩,
  ⟨0x10100, [(0x4, 16)], [⟨15, 0, .ro, 0x0⟩]⟩,
  ⟨0x10200, [], [⟨31, 22, .rw, 0x15E⟩, ⟨15, 8, .rw, 0x5⟩]⟩,
  ⟨0x10204, [], [⟨31, 25, .ro, 0x0⟩, ⟨24, 24, .ro, 0x0⟩, ⟨23, 23, .w1c, 0x0⟩, ⟨22, 22, .ro, 0x0⟩, ⟨15, 0, .rc, 0x0⟩]⟩,
  ⟨0x10300, [], [⟨31, 24, .rw, 0x18⟩, ⟨23, 16, .rw, 0x18⟩]⟩,
  ⟨0x10310, [(0x4, 16)], [⟨31, 16, .rc, 0x0⟩, ⟨15, 8, .rc, 0x0⟩, ⟨7, 0, .rc, 0x0⟩]⟩,
  ⟨0x10350, [(0x4, 24)], [⟨31, 16, .rc, 0x0⟩, ⟨15, 8, .rc, 0x0⟩]⟩,
  ⟨0x103B0, [], [⟨31, 0, .ro, 0x0⟩]⟩,
  ⟨0x103B4, [], [⟨31, 0, .ro, 0x0⟩]⟩,
  ⟨0x103B8, [], [⟨31, 16, .ro, 0x0⟩, ⟨15, 0, .ro, 0x0⟩]⟩]

/-- Register rows: WD_CTL to B2_STAT. -/
def pzRows1 : List RegRow := [
  ⟨0x103C0, [], [⟨31, 16, .rw, 0xA⟩]⟩,
  ⟨0x103C4, [], [⟨31, 16, .rc, 0x0⟩, ⟨15, 0, .rc, 0x0⟩]⟩,
  ⟨0x10400, [], [⟨31, 24, .rw, 0x64⟩, ⟨23, 16, .rw, 0x69⟩, ⟨15, 9, .rw, 0x10⟩, ⟨7, 0, .rw, 0x8⟩]⟩,
  ⟨0x10404, [], [⟨31, 25, .ro, 0x40⟩, ⟨24, 24, .ro, 0x0⟩, ⟨23, 23, .w1c, 0x0⟩, ⟨15, 8, .ro, 0x0⟩, ⟨7, 4, .ro, 0x0⟩]⟩,
  ⟨0x10410, [(0x4, 18)], [⟨15, 8, .rc, 0x0⟩, ⟨7, 0, .ro, 0x0⟩]⟩,
  ⟨0x10460, [], [⟨31, 31, .ro, 0x0⟩, ⟨30, 24, .ro, 0x0⟩, ⟨23, 17, .ro, 0x0⟩, ⟨16, 13, .ro, 0x0⟩]⟩,
  ⟨0x10464, [], [⟨31, 28, .ro, 0x1⟩, ⟨27, 21, .ro, 0x0⟩, ⟨20, 20, .w1c, 0x0⟩]⟩,
  ⟨0x10470, [], [⟨23, 0, .ro, 0x0⟩]⟩,
  ⟨0x10474, [], [⟨2, 0, .rw, 0x5⟩]⟩,
  ⟨0x10800, [(0x4, 16)], [⟨31, 31, .rw, 0x0⟩, ⟨30, 30, .rw, 0x0⟩, ⟨16, 0, .rw, 0x0⟩]⟩,
  ⟨0x10840, [(0x4, 16)], [⟨31, 31, .srw, 0x0⟩, ⟨30, 30, .srw, 0x0⟩, ⟨16, 0, .srw, 0x0⟩]⟩,
  ⟨0x10880, [], [⟨31, 24, .rc, 0x0⟩, ⟨23, 16, .rc, 0x0⟩, ⟨15, 8, .rc, 0x0⟩]⟩]

/-- Register rows: ST_STAT to SG_DIE_HI. -/
def pzRows2 : List RegRow := [
  ⟨0x20000, [(0x400, 64)], [⟨31, 28, .ro, 0x0⟩, ⟨27, 27, .ro, 0x0⟩, ⟨20, 16, .ro, 0x0⟩, ⟨15, 0, .rc, 0x0⟩]⟩,
  ⟨0x20040, [(0x400, 64), (0x4, 16)], [⟨31, 30, .ro, 0x0⟩, ⟨29, 29, .ro, 0x0⟩, ⟨28, 26, .ro, 0x0⟩, ⟨25, 25, .ro, 0x0⟩, ⟨24, 20, .ro, 0x0⟩, ⟨19, 12, .rc, 0x0⟩, ⟨11, 0, .rc, 0x0⟩]⟩,
  ⟨0x20080, [(0x400, 64), (0x4, 16)], [⟨31, 0, .ro, 0x0⟩]⟩,
  ⟨0x200C0, [(0x400, 64)], [⟨31, 16, .rc, 0x0⟩, ⟨15, 0, .rc, 0x0⟩]⟩,
  ⟨0x30000, [], [⟨31, 24, .rw, 0x40⟩]⟩,
  ⟨0x30004, [], [⟨31, 31, .ro, 0x0⟩, ⟨30, 30, .ro, 0x0⟩, ⟨23, 16, .ro, 0x0⟩, ⟨8, 0, .ro, 0x0⟩]⟩,
  ⟨0x30008, [], [⟨31, 0, .ro, 0x0⟩]⟩,
  ⟨0x3000C, [], [⟨31, 0, .ro, 0x0⟩]⟩,
  ⟨0x30010, [], [⟨31, 0, .ro, 0x0⟩]⟩,
  ⟨0x30014, [], [⟨31, 0, .ro, 0x0⟩]⟩,
  ⟨0x30100, [(0x4, 14)], [⟨31, 16, .ro, 0x3BC⟩, ⟨15, 0, .ro, 0x0⟩]⟩,
  ⟨0x30138, [(0x4, 2)], [⟨31, 16, .ro, 0x2BC⟩, ⟨15, 0, .ro, 0x0⟩]⟩]

/-- Register rows: TM_CTL to ING_CTL. -/
def pzRows3 : List RegRow := [
  ⟨0x40000, [], [⟨31, 24, .rw, 0x0⟩, ⟨23, 16, .rw, 0x1⟩, ⟨15, 14, .rw, 0x0⟩, ⟨13, 8, .rw, 0xA⟩, ⟨7, 4, .rw, 0x4⟩]⟩,
  ⟨0x40004, [], [⟨31, 30, .ro, 0x0⟩, ⟨29, 29, .ro, 0x0⟩, ⟨28, 28, .ro, 0x0⟩, ⟨27, 27, .ro, 0x0⟩, ⟨26, 26, .ro, 0x0⟩, ⟨15, 0, .rc, 0x0⟩]⟩,
  ⟨0x40008, [], [⟨31, 0, .rw, 0x0⟩]⟩,
  ⟨0x40100, [(0x4, 16)], [⟨31, 0, .rw, 0x0⟩]⟩,
  ⟨0x40140, [(0x4, 2)], [⟨31, 0, .rw, 0x0⟩]⟩,
  ⟨0x40200, [(0x10, 4)], [⟨31, 29, .rw, 0x0⟩, ⟨28, 28, .rw, 0x0⟩, ⟨27, 25, .rw, 0x2⟩, ⟨24, 24, .w1c, 0x0⟩, ⟨23, 0, .rw, 0x10⟩]⟩,
  ⟨0x40204, [(0x10, 4)], [⟨31, 0, .rw, 0x0⟩]⟩,
  ⟨0x40208, [(0x10, 4)], [⟨31, 0, .rw, 0x0⟩]⟩,
  ⟨0x40300, [(0x10, 4)], [⟨31, 30, .rw, 0x0⟩, ⟨15, 8, .rc, 0x0⟩, ⟨7, 0, .ro, 0x0⟩]⟩,
  ⟨0x40304, [(0x10, 4)], [⟨31, 0, .ro, 0x0⟩]⟩,
  ⟨0x40308, [(0x10, 4)], [⟨31, 0, .ro, 0x0⟩]⟩,
  ⟨0x50000, [], [⟨31, 16, .rw, 0x88B5⟩, ⟨13, 8, .rw, 0x18⟩]⟩]

/-- Register rows: ING_ADMIT to PORT_STAT. -/
def pzRows4 : List RegRow := [
  ⟨0x50004, [], [⟨31, 16, .rw, 0x1000⟩, ⟨15, 0, .rw, 0x100⟩]⟩,
  ⟨0x50100, [(0x10, 5)], [⟨31, 0, .rw, 0x0⟩]⟩,
  ⟨0x50104, [(0x10, 5)], [⟨31, 0, .rw, 0x0⟩]⟩,
  ⟨0x50108, [(0x10, 5)], [⟨31, 0, .rw, 0x0⟩]⟩,
  ⟨0x5010C, [(0x10, 5)], [⟨31, 0, .rw, 0x0⟩]⟩,
  ⟨0x50400, [(0x10, 16)], [⟨31, 16, .ro, 0x0⟩, ⟨15, 0, .ro, 0x0⟩]⟩,
  ⟨0x50404, [(0x10, 16)], [⟨31, 16, .ro, 0x0⟩, ⟨15, 0, .ro, 0x0⟩]⟩,
  ⟨0x50408, [(0x10, 16)], [⟨31, 16, .rc, 0x0⟩, ⟨15, 0, .rc, 0x0⟩]⟩,
  ⟨0x5040C, [(0x10, 16)], [⟨31, 16, .rc, 0x0⟩, ⟨15, 0, .rc, 0x0⟩]⟩,
  ⟨0x50800, [(0x8, 16)], [⟨31, 29, .rw, 0x1⟩, ⟨28, 28, .rw, 0x0⟩]⟩,
  ⟨0x50880, [(0x8, 2)], [⟨31, 29, .rw, 0x3⟩, ⟨28, 28, .rw, 0x0⟩]⟩,
  ⟨0x50804, [(0x8, 18)], [⟨31, 31, .ro, 0x0⟩, ⟨15, 8, .rc, 0x0⟩, ⟨7, 0, .rc, 0x0⟩]⟩]

/-- Register rows: MB_CTL to VD_COUNT1. -/
def pzRows5 : List RegRow := [
  ⟨0x60000, [], [⟨31, 16, .srw, 0x0⟩, ⟨15, 8, .rc, 0x0⟩]⟩,
  ⟨0x60004, [], [⟨31, 12, .rw, 0x0⟩]⟩,
  ⟨0x60008, [], [⟨31, 0, .rw, 0x0⟩]⟩,
  ⟨0x6000C, [], [⟨15, 0, .rw, 0x0⟩]⟩,
  ⟨0x60010, [], [⟨31, 16, .ro, 0x0⟩, ⟨15, 0, .rw, 0x0⟩]⟩,
  ⟨0x60014, [], [⟨31, 0, .srw, 0x2A⟩]⟩,
  ⟨0x70000, [], [⟨31, 16, .rw, 0x100⟩, ⟨15, 8, .rw, 0x8⟩, ⟨7, 0, .rw, 0x10⟩]⟩,
  ⟨0x70004, [], [⟨31, 24, .rw, 0x8⟩, ⟨23, 16, .rw, 0x2⟩, ⟨15, 8, .rw, 0xA⟩, ⟨7, 0, .rw, 0x32⟩]⟩,
  ⟨0x70008, [], [⟨31, 16, .rc, 0x0⟩, ⟨15, 0, .rc, 0x0⟩]⟩,
  ⟨0x7000C, [], [⟨31, 16, .rc, 0x0⟩, ⟨15, 0, .rc, 0x0⟩]⟩,
  ⟨0x70010, [], [⟨31, 16, .ro, 0x0⟩, ⟨15, 0, .ro, 0x0⟩]⟩,
  ⟨0x70014, [], [⟨31, 16, .ro, 0x0⟩, ⟨15, 0, .ro, 0x0⟩]⟩]

/-- Register rows: VD_DISAG to CF_LEFT. -/
def pzRows6 : List RegRow := [
  ⟨0x70018, [], [⟨15, 0, .ro, 0x0⟩]⟩,
  ⟨0x70020, [], [⟨31, 0, .ro, 0x0⟩]⟩,
  ⟨0x70024, [], [⟨31, 0, .ro, 0x0⟩]⟩,
  ⟨0x70030, [], [⟨31, 12, .rw, 0x0⟩]⟩,
  ⟨0x70034, [], [⟨31, 0, .rw, 0x0⟩]⟩,
  ⟨0x70038, [], [⟨15, 0, .rw, 0x0⟩]⟩,
  ⟨0x7003C, [], [⟨31, 16, .ro, 0x0⟩, ⟨15, 0, .rw, 0x0⟩]⟩,
  ⟨0x80000, [], [⟨31, 16, .rw, 0x3E8⟩, ⟨15, 8, .rw, 0xA⟩, ⟨7, 7, .wo, 0x0⟩]⟩,
  ⟨0x80004, [], [⟨31, 30, .ro, 0x0⟩, ⟨29, 29, .ro, 0x0⟩, ⟨15, 0, .ro, 0x0⟩]⟩,
  ⟨0x80008, [], [⟨31, 0, .ro, 0x0⟩]⟩,
  ⟨0x8000C, [], [⟨31, 0, .ro, 0x0⟩]⟩,
  ⟨0x80010, [], [⟨31, 16, .ro, 0x0⟩, ⟨15, 0, .ro, 0x0⟩]⟩]

/-- Register rows: CF_CNT to PS_EPBASE_HI. -/
def pzRows7 : List RegRow := [
  ⟨0x80014, [], [⟨31, 16, .rc, 0x0⟩, ⟨15, 0, .rc, 0x0⟩]⟩,
  ⟨0x90000, [], [⟨31, 0, .rwp, 0x0⟩]⟩,
  ⟨0x90004, [], [⟨31, 29, .ro, 0x0⟩, ⟨28, 27, .ro, 0x0⟩, ⟨26, 17, .ro, 0x0⟩]⟩,
  ⟨0x90008, [], [⟨31, 31, .wo, 0x0⟩, ⟨15, 0, .rw, 0x12C⟩]⟩,
  ⟨0x9000C, [], [⟨31, 0, .ro, 0x0⟩]⟩,
  ⟨0x90010, [], [⟨31, 0, .ro, 0x0⟩]⟩,
  ⟨0x90014, [], [⟨31, 28, .rw, 0x3⟩, ⟨27, 16, .rw, 0x258⟩]⟩,
  ⟨0x90018, [], [⟨31, 0, .wo, 0x0⟩]⟩,
  ⟨0x9001C, [], [⟨9, 0, .rw, 0x0⟩]⟩,
  ⟨0x90020, [], [⟨31, 0, .ro, 0x0⟩]⟩,
  ⟨0x90024, [], [⟨31, 0, .rwp, 0x0⟩]⟩,
  ⟨0x90028, [], [⟨15, 0, .rwp, 0x0⟩]⟩]

/-- Register rows: PS_VIEW to SN_SEQ_HI. -/
def pzRows8 : List RegRow := [
  ⟨0x91000, [(0x4, 1024)], [⟨31, 0, .ro, 0x0⟩]⟩,
  ⟨0xA0000, [], [⟨30, 30, .wo, 0x0⟩, ⟨27, 24, .rw, 0x0⟩, ⟨23, 0, .rw, 0x0⟩]⟩,
  ⟨0xA0004, [], [⟨31, 0, .rw, 0x0⟩]⟩,
  ⟨0xA0008, [], [⟨31, 30, .ro, 0x3⟩, ⟨29, 29, .ro, 0x0⟩, ⟨28, 26, .ro, 0x0⟩, ⟨25, 25, .w1c, 0x0⟩, ⟨24, 24, .w1c, 0x0⟩, ⟨7, 0, .ro, 0x0⟩]⟩,
  ⟨0xA0010, [(0x8, 7)], [⟨31, 0, .ro, 0x0⟩]⟩,
  ⟨0xA0014, [(0x8, 7)], [⟨31, 0, .ro, 0x0⟩]⟩,
  ⟨0xA0080, [(0x4, 7)], [⟨15, 0, .rw, 0x0⟩]⟩,
  ⟨0xA1000, [(0x4, 1024)], [⟨31, 0, .ro, 0x0⟩]⟩,
  ⟨0xB0000, [], [⟨31, 31, .rw, 0x0⟩, ⟨23, 16, .rw, 0x32⟩, ⟨15, 0, .rw, 0x3E8⟩]⟩,
  ⟨0xB0004, [], [⟨31, 29, .ro, 0x0⟩, ⟨28, 28, .w1c, 0x0⟩, ⟨27, 24, .ro, 0x0⟩, ⟨23, 16, .rc, 0x0⟩, ⟨15, 0, .ro, 0x0⟩]⟩,
  ⟨0xB0008, [], [⟨31, 0, .ro, 0x0⟩]⟩,
  ⟨0xB000C, [], [⟨31, 0, .ro, 0x0⟩]⟩]

/-- Register rows: SN_DBASE_LO to MSIX_TBL. -/
def pzRows9 : List RegRow := [
  ⟨0xB0010, [], [⟨31, 0, .rw, 0x0⟩]⟩,
  ⟨0xB0014, [], [⟨31, 0, .rw, 0x0⟩]⟩,
  ⟨0xB0018, [], [⟨31, 0, .rw, 0x0⟩]⟩,
  ⟨0xB001C, [], [⟨31, 0, .rw, 0x0⟩]⟩,
  ⟨0xB0020, [], [⟨31, 0, .rw, 0x0⟩]⟩,
  ⟨0xB0024, [], [⟨31, 0, .rw, 0x0⟩]⟩,
  ⟨0xB002C, [], [⟨31, 31, .wo, 0x0⟩, ⟨15, 0, .rw, 0x0⟩]⟩,
  ⟨0xB0030, [], [⟨31, 0, .ro, 0x0⟩]⟩,
  ⟨0xB0100, [(0x10, 64)], [⟨21, 0, .rw, 0x0⟩]⟩,
  ⟨0xB0104, [(0x10, 64)], [⟨31, 8, .rw, 0x0⟩]⟩,
  ⟨0xB0108, [(0x10, 64)], [⟨19, 0, .rw, 0x0⟩]⟩,
  ⟨0xC0000, [(0x10, 8), (0x4, 3)], [⟨31, 0, .rw, 0x0⟩]⟩]

/-- Register rows: MSIX_CTL to SEC_RGN_SIZE. -/
def pzRows10 : List RegRow := [
  ⟨0xC000C, [(0x10, 8)], [⟨0, 0, .rw, 0x1⟩]⟩,
  ⟨0xC0800, [], [⟨7, 0, .ro, 0x0⟩]⟩,
  ⟨0xC1000, [], [⟨31, 12, .rw, 0x0⟩]⟩,
  ⟨0xC1004, [], [⟨31, 0, .rw, 0x0⟩]⟩,
  ⟨0xC1008, [], [⟨15, 0, .rw, 0x0⟩]⟩,
  ⟨0xC100C, [], [⟨31, 16, .ro, 0x0⟩, ⟨15, 0, .rw, 0x0⟩]⟩,
  ⟨0xC1010, [], [⟨31, 16, .rc, 0x0⟩, ⟨8, 0, .ro, 0x0⟩]⟩,
  ⟨0xC1020, [], [⟨23, 16, .rw, 0x0⟩, ⟨15, 8, .rw, 0x0⟩, ⟨7, 0, .rw, 0x0⟩]⟩,
  ⟨0xD0000, [], [⟨13, 13, .ro, 0x1⟩, ⟨12, 1, .srw, 0xFFF⟩, ⟨0, 0, .ro, 0x0⟩]⟩,
  ⟨0xD0004, [], [⟨0, 0, .srw, 0x0⟩]⟩,
  ⟨0xD0100, [(0x10, 16)], [⟨31, 0, .srw, 0x0⟩]⟩,
  ⟨0xD0104, [(0x10, 16)], [⟨31, 0, .srw, 0x0⟩]⟩]

/-- Register rows: SEC_VIOL to SEC_VIOL. -/
def pzRows11 : List RegRow := [
  ⟨0xD0200, [(0x4, 16)], [⟨15, 0, .rc, 0x0⟩]⟩]

/-- Every register of Polornaz BAR0 (Table 19.2). -/
def pzRows : List RegRow :=
  pzRows0 ++
  pzRows1 ++
  pzRows2 ++
  pzRows3 ++
  pzRows4 ++
  pzRows5 ++
  pzRows6 ++
  pzRows7 ++
  pzRows8 ++
  pzRows9 ++
  pzRows10 ++
  pzRows11

/-- The row that holds the register at `off`, if one does (R13). -/
def findRow (rows : List RegRow) (off : Nat) : Option RegRow := rows.find? (·.has off)

/-- Reset word of the leaf's register at `off` (Table 19.1). -/
def glReset (off : Nat) : Word := ((findRow glRows off).map RegRow.reset).getD 0

/-- Default meter profiles of Table 7.6, by class: CIR, CBS, PIR, PBS. -/
def mtrDefault (c k : Nat) : Nat :=
  (([[112000, 3584, 224000, 7168], [2000000, 2240, 4000000, 4480], [40000000, 4480, 48000000, 8960], [4000000, 2240, 8000000, 4480], [8000000, 4480, 40000000, 8960]] : List (List Nat)).getD c []).getD k 0

/-- Reset word of the Polornaz register at `off` (Table 19.2; meter profiles from Table 7.6). -/
def pzReset (off : Nat) : Word :=
  if 0x50100 ≤ off ∧ off < 0x50150 then BitVec.ofNat 32 (mtrDefault ((off - 0x50100) / 16) ((off % 16) / 4))
  else ((findRow pzRows off).map RegRow.reset).getD 0

/-! Names of the fields of `GL_` registers. -/

/-- `GL_IDENT_VENDOR.VALUE` (R4). -/
abbrev GlR.IDENT_VENDOR_VALUE : Fld := ⟨0x0, 31, 0⟩
/-- `GL_IDENT_VERSION.MAJOR` (Table 0.2). -/
abbrev GlR.IDENT_VERSION_MAJOR : Fld := ⟨0x4, 31, 24⟩
/-- `GL_IDENT_VERSION.MINOR` (Table 0.2). -/
abbrev GlR.IDENT_VERSION_MINOR : Fld := ⟨0x4, 23, 16⟩
/-- `GL_IDENT_VERSION.PATCH` (Table 0.2). -/
abbrev GlR.IDENT_VERSION_PATCH : Fld := ⟨0x4, 15, 8⟩
/-- `GL_IDENT_VERSION.HARDEN` (Table 0.2). -/
abbrev GlR.IDENT_VERSION_HARDEN : Fld := ⟨0x4, 7, 0⟩
/-- `GL_IDENT_STATUS.RESET_CAUSE` (Table 2.10). -/
abbrev GlR.IDENT_STATUS_RESET_CAUSE : Fld := ⟨0x8, 7, 4⟩
/-- `GL_IDENT_STATUS.REFCLK_LOST` (Table 2.10). -/
abbrev GlR.IDENT_STATUS_REFCLK_LOST : Fld := ⟨0x8, 3, 3⟩
/-- `GL_IDENT_STATUS.HOST_ISO` (Table 2.10). -/
abbrev GlR.IDENT_STATUS_HOST_ISO : Fld := ⟨0x8, 2, 2⟩
/-- `GL_IDENT_STATUS.PEAT_OK` (Table 2.10). -/
abbrev GlR.IDENT_STATUS_PEAT_OK : Fld := ⟨0x8, 1, 1⟩
/-- `GL_IDENT_STATUS.READY` (Table 2.10). -/
abbrev GlR.IDENT_STATUS_READY : Fld := ⟨0x8, 0, 0⟩
/-- `GL_IDENT_HPARAM0.HOSTLINK` (Table 2.12). -/
abbrev GlR.IDENT_HPARAM0_HOSTLINK : Fld := ⟨0x10, 31, 24⟩
/-- `GL_IDENT_HPARAM0.IRQ_TGT` (Table 2.12). -/
abbrev GlR.IDENT_HPARAM0_IRQ_TGT : Fld := ⟨0x10, 23, 21⟩
/-- `GL_IDENT_HPARAM0.TM_MODE` (Table 2.12). -/
abbrev GlR.IDENT_HPARAM0_TM_MODE : Fld := ⟨0x10, 20, 20⟩
/-- `GL_IDENT_HPARAM0.TM_FIXED` (Table 2.12). -/
abbrev GlR.IDENT_HPARAM0_TM_FIXED : Fld := ⟨0x10, 15, 0⟩
/-- `GL_IDENT_HPARAM1.BANK_EN` (Table 2.13). -/
abbrev GlR.IDENT_HPARAM1_BANK_EN : Fld := ⟨0x14, 31, 16⟩
/-- `GL_IDENT_HPARAM1.TAP_EN` (Table 2.13). -/
abbrev GlR.IDENT_HPARAM1_TAP_EN : Fld := ⟨0x14, 15, 12⟩
/-- `GL_IDENT_HPARAM1.TEST_EN` (Table 2.13). -/
abbrev GlR.IDENT_HPARAM1_TEST_EN : Fld := ⟨0x14, 11, 11⟩
/-- `GL_IDENT_HPARAM1.HB_EN` (Table 2.13). -/
abbrev GlR.IDENT_HPARAM1_HB_EN : Fld := ⟨0x14, 10, 10⟩
/-- `GL_IDENT_CMDMAP.CMD_BANK` (Table 2.14). -/
abbrev GlR.IDENT_CMDMAP_CMD_BANK : Fld := ⟨0x18, 31, 0⟩
/-- `GL_IDENT_VPEN.VP_EN` (Table 2.15). -/
abbrev GlR.IDENT_VPEN_VP_EN : Fld := ⟨0x20, 31, 0⟩
/-- `GL_SEC_BLK.BLK` (Table 16.10). -/
abbrev GlR.SEC_BLK_BLK : Fld := ⟨0x400, 11, 2⟩
/-- `GL_SEC_BLK.SEC` (Table 16.10). -/
abbrev GlR.SEC_BLK_SEC : Fld := ⟨0x400, 1, 1⟩
/-- `GL_SEC_BLK.IDENT` (Table 16.10). -/
abbrev GlR.SEC_BLK_IDENT : Fld := ⟨0x400, 0, 0⟩
/-- `GL_SEC_RGN.RGN` (Table 16.10). -/
abbrev GlR.SEC_RGN_RGN : Fld := ⟨0x404, 6, 0⟩
/-- `GL_SEC_USER.USER` (Table 16.10). -/
abbrev GlR.SEC_USER_USER : Fld := ⟨0x408, 15, 0⟩
/-- `GL_SEC_VIOL.COUNT` (Table 16.10). -/
abbrev GlR.SEC_VIOL_COUNT : Fld := ⟨0x440, 15, 0⟩
/-- `GL_IRQ_PEND.PEND` (Table 16.6). -/
abbrev GlR.IRQ_PEND_PEND : Fld := ⟨0x800, 31, 0⟩
/-- `GL_IRQ_CNT.CNT` (Table 16.7). -/
abbrev GlR.IRQ_CNT_CNT : Fld := ⟨0x840, 31, 0⟩
/-- `GL_IRQ_ROUTE.MASK` (Table 16.7). -/
abbrev GlR.IRQ_ROUTE_MASK : Fld := ⟨0xA40, 31, 0⟩
/-- `GL_IRQ_APRI.PRI7` (Table 16.8). -/
abbrev GlR.IRQ_APRI_PRI7 : Fld := ⟨0xC40, 30, 28⟩
/-- `GL_IRQ_APRI.PRI6` (Table 16.8). -/
abbrev GlR.IRQ_APRI_PRI6 : Fld := ⟨0xC40, 26, 24⟩
/-- `GL_IRQ_APRI.PRI5` (Table 16.8). -/
abbrev GlR.IRQ_APRI_PRI5 : Fld := ⟨0xC40, 22, 20⟩
/-- `GL_IRQ_APRI.PRI4` (Table 16.8). -/
abbrev GlR.IRQ_APRI_PRI4 : Fld := ⟨0xC40, 18, 16⟩
/-- `GL_IRQ_APRI.PRI3` (Table 16.8). -/
abbrev GlR.IRQ_APRI_PRI3 : Fld := ⟨0xC40, 14, 12⟩
/-- `GL_IRQ_APRI.PRI2` (Table 16.8). -/
abbrev GlR.IRQ_APRI_PRI2 : Fld := ⟨0xC40, 10, 8⟩
/-- `GL_IRQ_APRI.PRI1` (Table 16.8). -/
abbrev GlR.IRQ_APRI_PRI1 : Fld := ⟨0xC40, 6, 4⟩
/-- `GL_IRQ_APRI.PRI0` (Table 16.8). -/
abbrev GlR.IRQ_APRI_PRI0 : Fld := ⟨0xC40, 2, 0⟩
/-- `GL_IRQ_CLAIM.COUNT` (Table 16.9). -/
abbrev GlR.IRQ_CLAIM_COUNT : Fld := ⟨0xD00, 23, 16⟩
/-- `GL_IRQ_CLAIM.SRC` (Table 16.9). -/
abbrev GlR.IRQ_CLAIM_SRC : Fld := ⟨0xD00, 15, 0⟩
/-- `GL_IRQ_EOI.SRC` (Table 16.9). -/
abbrev GlR.IRQ_EOI_SRC : Fld := ⟨0xD04, 8, 0⟩
/-- `GL_IRQ_TCTL.SEC` (Table 16.9). -/
abbrev GlR.IRQ_TCTL_SEC : Fld := ⟨0xD08, 31, 31⟩
/-- `GL_IRQ_TCTL.HOLDOFF` (Table 16.9). -/
abbrev GlR.IRQ_TCTL_HOLDOFF : Fld := ⟨0xD08, 7, 0⟩
/-- `GL_IRQ_TSTAT.RUNPRI` (Table 16.9). -/
abbrev GlR.IRQ_TSTAT_RUNPRI : Fld := ⟨0xD0C, 31, 29⟩
/-- `GL_IRQ_TSTAT.DEPTH` (Table 16.9). -/
abbrev GlR.IRQ_TSTAT_DEPTH : Fld := ⟨0xD0C, 28, 25⟩
/-- `GL_IRQ_TSTAT.NASVC` (Table 16.9). -/
abbrev GlR.IRQ_TSTAT_NASVC : Fld := ⟨0xD0C, 24, 24⟩
/-- `GL_IRQ_TSTAT.HOLD` (Table 16.9). -/
abbrev GlR.IRQ_TSTAT_HOLD : Fld := ⟨0xD0C, 23, 23⟩
/-- `GL_IRQ_TSTAT.IDLE` (Table 16.9). -/
abbrev GlR.IRQ_TSTAT_IDLE : Fld := ⟨0xD0C, 22, 22⟩
/-- `GL_IRQ_TSTAT.BADEOI` (Table 16.9). -/
abbrev GlR.IRQ_TSTAT_BADEOI : Fld := ⟨0xD0C, 15, 8⟩
/-- `GL_TM_CTL.SRC` (Table 5.7). -/
abbrev GlR.TM_CTL_SRC : Fld := ⟨0x1000, 31, 30⟩
/-- `GL_TM_CTL.STEP_INH` (Table 5.7). -/
abbrev GlR.TM_CTL_STEP_INH : Fld := ⟨0x1000, 29, 29⟩
/-- `GL_TM_STAT.STATE` (Table 5.8). -/
abbrev GlR.TM_STAT_STATE : Fld := ⟨0x1004, 31, 29⟩
/-- `GL_TM_STAT.SOURCE` (Table 5.8). -/
abbrev GlR.TM_STAT_SOURCE : Fld := ⟨0x1004, 28, 27⟩
/-- `GL_TM_STAT.NOFREQ` (Table 5.8). -/
abbrev GlR.TM_STAT_NOFREQ : Fld := ⟨0x1004, 26, 26⟩
/-- `GL_TM_STAT.XCHK` (Table 5.8). -/
abbrev GlR.TM_STAT_XCHK : Fld := ⟨0x1004, 25, 25⟩
/-- `GL_TM_STAT.STEPPED` (Table 5.8). -/
abbrev GlR.TM_STAT_STEPPED : Fld := ⟨0x1004, 24, 24⟩
/-- `GL_TM_STAT.LOSTLOCK` (Table 5.8). -/
abbrev GlR.TM_STAT_LOSTLOCK : Fld := ⟨0x1004, 23, 23⟩
/-- `GL_TM_STAT.LATE_INK` (Table 5.8). -/
abbrev GlR.TM_STAT_LATE_INK : Fld := ⟨0x1004, 22, 22⟩
/-- `GL_TM_STAT.INK_FULL` (Table 5.8). -/
abbrev GlR.TM_STAT_INK_FULL : Fld := ⟨0x1004, 21, 21⟩
/-- `GL_TM_STAT.LOCKRUN` (Table 5.8). -/
abbrev GlR.TM_STAT_LOCKRUN : Fld := ⟨0x1004, 15, 0⟩
/-- `GL_TM_REFFREQ.KHZ` (Table 5.9). -/
abbrev GlR.TM_REFFREQ_KHZ : Fld := ⟨0x1008, 17, 0⟩
/-- `GL_TM_NOW32.TIME` (Table 5.10). -/
abbrev GlR.TM_NOW32_TIME : Fld := ⟨0x100C, 31, 0⟩
/-- `GL_TM_NOW_LO.TIME` (Table 5.10). -/
abbrev GlR.TM_NOW_LO_TIME : Fld := ⟨0x1010, 31, 0⟩
/-- `GL_TM_NOW_HI.TIME` (Table 5.10). -/
abbrev GlR.TM_NOW_HI_TIME : Fld := ⟨0x1014, 31, 0⟩
/-- `GL_TM_OFFSET.THETA` (Table 5.11). -/
abbrev GlR.TM_OFFSET_THETA : Fld := ⟨0x1018, 31, 0⟩
/-- `GL_TM_FADJ.ADJ` (Table 5.12). -/
abbrev GlR.TM_FADJ_ADJ : Fld := ⟨0x101C, 31, 0⟩
/-- `GL_TM_SERVO.KP` (Table 5.13). -/
abbrev GlR.TM_SERVO_KP : Fld := ⟨0x1020, 31, 28⟩
/-- `GL_TM_SERVO.KI` (Table 5.13). -/
abbrev GlR.TM_SERVO_KI : Fld := ⟨0x1020, 27, 24⟩
/-- `GL_TM_SERVO.STEP` (Table 5.13). -/
abbrev GlR.TM_SERVO_STEP : Fld := ⟨0x1020, 23, 16⟩
/-- `GL_TM_SERVO.HOLD` (Table 5.13). -/
abbrev GlR.TM_SERVO_HOLD : Fld := ⟨0x1020, 15, 8⟩
/-- `GL_TM_HOP.HOP_B` (Table 5.14). -/
abbrev GlR.TM_HOP_HOP_B : Fld := ⟨0x1024, 31, 16⟩
/-- `GL_TM_HOP.HOP_A` (Table 5.14). -/
abbrev GlR.TM_HOP_HOP_A : Fld := ⟨0x1024, 15, 0⟩
/-- `GL_TM_EXCH.EXCH` (Table 5.15). -/
abbrev GlR.TM_EXCH_EXCH : Fld := ⟨0x1028, 31, 16⟩
/-- `GL_TM_EXCH.XCNT` (Table 5.15). -/
abbrev GlR.TM_EXCH_XCNT : Fld := ⟨0x1028, 15, 8⟩
/-- `GL_TM_EXCH.HOPS` (Table 5.15). -/
abbrev GlR.TM_EXCH_HOPS : Fld := ⟨0x1028, 5, 0⟩
/-- `GL_CH_CTL.MPRI` (Table 6.5). -/
abbrev GlR.CH_CTL_MPRI : Fld := ⟨0x2000, 31, 28⟩
/-- `GL_CH_CTL.ABDICATE` (Table 6.5). -/
abbrev GlR.CH_CTL_ABDICATE : Fld := ⟨0x2000, 27, 27⟩
/-- `GL_CH_CTL.WAVE_F` (Table 6.5). -/
abbrev GlR.CH_CTL_WAVE_F : Fld := ⟨0x2000, 26, 20⟩
/-- `GL_CH_STAT.ROLE` (Table 6.6). -/
abbrev GlR.CH_STAT_ROLE : Fld := ⟨0x2004, 31, 30⟩
/-- `GL_CH_STAT.RING` (Table 6.6). -/
abbrev GlR.CH_STAT_RING : Fld := ⟨0x2004, 29, 29⟩
/-- `GL_CH_STAT.STOPPED` (Table 6.6). -/
abbrev GlR.CH_STAT_STOPPED : Fld := ⟨0x2004, 28, 28⟩
/-- `GL_CH_STAT.MAJOR_ERR` (Table 6.6). -/
abbrev GlR.CH_STAT_MAJOR_ERR : Fld := ⟨0x2004, 27, 27⟩
/-- `GL_CH_STAT.SUB` (Table 6.6). -/
abbrev GlR.CH_STAT_SUB : Fld := ⟨0x2004, 26, 26⟩
/-- `GL_CH_STAT.AHEAD` (Table 6.6). -/
abbrev GlR.CH_STAT_AHEAD : Fld := ⟨0x2004, 25, 25⟩
/-- `GL_CH_STAT.PORT_UP` (Table 6.6). -/
abbrev GlR.CH_STAT_PORT_UP : Fld := ⟨0x2004, 24, 23⟩
/-- `GL_CH_STAT.EFF_MINOR` (Table 6.6). -/
abbrev GlR.CH_STAT_EFF_MINOR : Fld := ⟨0x2004, 22, 19⟩
/-- `GL_CH_STAT.NEXT_MINOR` (Table 6.6). -/
abbrev GlR.CH_STAT_NEXT_MINOR : Fld := ⟨0x2004, 18, 15⟩
/-- `GL_CH_STAT.MEMBERS` (Table 6.6). -/
abbrev GlR.CH_STAT_MEMBERS : Fld := ⟨0x2004, 14, 8⟩
/-- `GL_CH_STAT.MPOS` (Table 6.6). -/
abbrev GlR.CH_STAT_MPOS : Fld := ⟨0x2004, 5, 0⟩
/-- `GL_CH_MASTER.VALUE` (Table 6.7). -/
abbrev GlR.CH_MASTER_VALUE : Fld := ⟨0x2008, 31, 0⟩
/-- `GL_CH_EPOCH.VALUE` (Table 6.7). -/
abbrev GlR.CH_EPOCH_VALUE : Fld := ⟨0x200C, 31, 0⟩
/-- `GL_CH_CUT.EP` (Table 6.8). -/
abbrev GlR.CH_CUT_EP : Fld := ⟨0x2010, 31, 16⟩
/-- `GL_CH_CUT.LATE` (Table 6.8). -/
abbrev GlR.CH_CUT_LATE : Fld := ⟨0x2010, 15, 15⟩
/-- `GL_CH_CUT.CATCHUP` (Table 6.8). -/
abbrev GlR.CH_CUT_CATCHUP : Fld := ⟨0x2010, 14, 14⟩
/-- `GL_CH_CUT.KIND` (Table 6.8). -/
abbrev GlR.CH_CUT_KIND : Fld := ⟨0x2010, 13, 11⟩
/-- `GL_CH_CUT.REFUSED` (Table 6.8). -/
abbrev GlR.CH_CUT_REFUSED : Fld := ⟨0x2010, 10, 7⟩
/-- `GL_CH_CUT.MISSING` (Table 6.8). -/
abbrev GlR.CH_CUT_MISSING : Fld := ⟨0x2010, 6, 0⟩
/-- `GL_CH_INK_CTL.GO` (Table 6.9). -/
abbrev GlR.CH_INK_CTL_GO : Fld := ⟨0x2014, 31, 31⟩
/-- `GL_CH_INK_CTL.KIND` (Table 6.9). -/
abbrev GlR.CH_INK_CTL_KIND : Fld := ⟨0x2014, 30, 28⟩
/-- `GL_CH_INK_CTL.LEASE_LEFT` (Table 6.9). -/
abbrev GlR.CH_INK_CTL_LEASE_LEFT : Fld := ⟨0x2014, 23, 16⟩
/-- `GL_CH_INK_T_LO.TIME` (Table 6.9). -/
abbrev GlR.CH_INK_T_LO_TIME : Fld := ⟨0x2018, 31, 0⟩
/-- `GL_CH_INK_T_HI.TIME` (Table 6.9). -/
abbrev GlR.CH_INK_T_HI_TIME : Fld := ⟨0x201C, 31, 0⟩
/-- `GL_CH_LEASE.EPOCH` (Table 6.9). -/
abbrev GlR.CH_LEASE_EPOCH : Fld := ⟨0x2020, 31, 0⟩
/-- `GL_CH_ERR.CRC` (Table 6.10). -/
abbrev GlR.CH_ERR_CRC : Fld := ⟨0x2030, 31, 24⟩
/-- `GL_CH_ERR.DOWNS` (Table 6.10). -/
abbrev GlR.CH_ERR_DOWNS : Fld := ⟨0x2030, 23, 16⟩
/-- `GL_CH_ERR.QDROP` (Table 6.10). -/
abbrev GlR.CH_ERR_QDROP : Fld := ⟨0x2030, 15, 8⟩
/-- `GL_CH_NBR_ID.VALUE` (Table 6.11). -/
abbrev GlR.CH_NBR_ID_VALUE : Fld := ⟨0x2040, 31, 0⟩
/-- `GL_CH_NBR.VERSION` (Table 6.11). -/
abbrev GlR.CH_NBR_VERSION : Fld := ⟨0x2044, 31, 24⟩
/-- `GL_CH_NBR.POS` (Table 6.11). -/
abbrev GlR.CH_NBR_POS : Fld := ⟨0x2044, 5, 0⟩
/-- `GL_CH_WAVE.WAVES` (Table 6.12). -/
abbrev GlR.CH_WAVE_WAVES : Fld := ⟨0x2050, 31, 16⟩
/-- `GL_CH_WAVE.DROP` (Table 6.12). -/
abbrev GlR.CH_WAVE_DROP : Fld := ⟨0x2050, 15, 8⟩
/-- `GL_CH_WAVE.EXCL` (Table 6.12). -/
abbrev GlR.CH_WAVE_EXCL : Fld := ⟨0x2050, 7, 0⟩
/-- `GL_CH_JOB.JOB_TAG` (Table 14.13). -/
abbrev GlR.CH_JOB_JOB_TAG : Fld := ⟨0x2060, 31, 8⟩
/-- `GL_CH_JOB.TD` (Table 14.13). -/
abbrev GlR.CH_JOB_TD : Fld := ⟨0x2060, 7, 7⟩
/-- `GL_CH_JOB.PHASE` (Table 14.13). -/
abbrev GlR.CH_JOB_PHASE : Fld := ⟨0x2060, 6, 6⟩
/-- `GL_CH_JOB.PCODE` (Table 14.13). -/
abbrev GlR.CH_JOB_PCODE : Fld := ⟨0x2060, 5, 3⟩
/-- `GL_UL_CTL.OVH` (Table 7.8). -/
abbrev GlR.UL_CTL_OVH : Fld := ⟨0x3000, 5, 0⟩
/-- `GL_UL_SHP1.RATE` (Table 7.9). -/
abbrev GlR.UL_SHP1_RATE : Fld := ⟨0x3014, 31, 16⟩
/-- `GL_UL_SHP1.BURST` (Table 7.9). -/
abbrev GlR.UL_SHP1_BURST : Fld := ⟨0x3014, 15, 0⟩
/-- `GL_UL_SHP2.RATE` (Table 7.9). -/
abbrev GlR.UL_SHP2_RATE : Fld := ⟨0x3018, 31, 16⟩
/-- `GL_UL_SHP2.BURST` (Table 7.9). -/
abbrev GlR.UL_SHP2_BURST : Fld := ⟨0x3018, 15, 0⟩
/-- `GL_UL_SHP3.RATE` (Table 7.9). -/
abbrev GlR.UL_SHP3_RATE : Fld := ⟨0x301C, 31, 16⟩
/-- `GL_UL_SHP3.BURST` (Table 7.9). -/
abbrev GlR.UL_SHP3_BURST : Fld := ⟨0x301C, 15, 0⟩
/-- `GL_UL_SHP4.RATE` (Table 7.9). -/
abbrev GlR.UL_SHP4_RATE : Fld := ⟨0x3020, 31, 16⟩
/-- `GL_UL_SHP4.BURST` (Table 7.9). -/
abbrev GlR.UL_SHP4_BURST : Fld := ⟨0x3020, 15, 0⟩
/-- `GL_UL_WEIGHT.W_BULK` (Table 7.10). -/
abbrev GlR.UL_WEIGHT_W_BULK : Fld := ⟨0x3024, 23, 16⟩
/-- `GL_UL_WEIGHT.W_TRACE` (Table 7.10). -/
abbrev GlR.UL_WEIGHT_W_TRACE : Fld := ⟨0x3024, 15, 8⟩
/-- `GL_UL_WEIGHT.W_FRAME` (Table 7.10). -/
abbrev GlR.UL_WEIGHT_W_FRAME : Fld := ⟨0x3024, 7, 0⟩
/-- `GL_UL_CEIL.CAP` (Table 7.11). -/
abbrev GlR.UL_CEIL_CAP : Fld := ⟨0x3028, 31, 16⟩
/-- `GL_UL_CEIL.TOKENS` (Table 7.11). -/
abbrev GlR.UL_CEIL_TOKENS : Fld := ⟨0x3028, 15, 0⟩
/-- `GL_UL_ALM.CREDIT` (Table 7.12). -/
abbrev GlR.UL_ALM_CREDIT : Fld := ⟨0x302C, 23, 16⟩
/-- `GL_UL_ALM.SEQ` (Table 7.12). -/
abbrev GlR.UL_ALM_SEQ : Fld := ⟨0x302C, 15, 0⟩
/-- `GL_UL_ASUPP.COUNT` (Table 7.13). -/
abbrev GlR.UL_ASUPP_COUNT : Fld := ⟨0x3030, 31, 0⟩
/-- `GL_UL_STAT.CEIL_WAIT` (Table 7.14). -/
abbrev GlR.UL_STAT_CEIL_WAIT : Fld := ⟨0x3034, 31, 31⟩
/-- `GL_UL_STAT.FDROP` (Table 7.14). -/
abbrev GlR.UL_STAT_FDROP : Fld := ⟨0x3034, 30, 30⟩
/-- `GL_UL_STAT.ASUPP` (Table 7.14). -/
abbrev GlR.UL_STAT_ASUPP : Fld := ⟨0x3034, 29, 29⟩
/-- `GL_UL_STAT.RXHOLD` (Table 7.14). -/
abbrev GlR.UL_STAT_RXHOLD : Fld := ⟨0x3034, 28, 28⟩
/-- `GL_UL_TXCNT.CELLS` (Table 7.15). -/
abbrev GlR.UL_TXCNT_CELLS : Fld := ⟨0x3040, 31, 0⟩
/-- `GL_UL_FWD.FWD` (Table 7.16). -/
abbrev GlR.UL_FWD_FWD : Fld := ⟨0x3060, 31, 16⟩
/-- `GL_UL_FWD.DROP` (Table 7.16). -/
abbrev GlR.UL_FWD_DROP : Fld := ⟨0x3060, 15, 0⟩
/-- `GL_CG_LO.COUNT_LO` (Table 3.4). -/
abbrev GlR.CG_LO_COUNT_LO : Fld := ⟨0x4000, 31, 0⟩
/-- `GL_CG_HI.EN` (Table 3.5). -/
abbrev GlR.CG_HI_EN : Fld := ⟨0x4004, 31, 31⟩
/-- `GL_CG_HI.OVF_IE` (Table 3.5). -/
abbrev GlR.CG_HI_OVF_IE : Fld := ⟨0x4004, 30, 30⟩
/-- `GL_CG_HI.LINE` (Table 3.5). -/
abbrev GlR.CG_HI_LINE : Fld := ⟨0x4004, 29, 24⟩
/-- `GL_CG_HI.COUNT_HI` (Table 3.5). -/
abbrev GlR.CG_HI_COUNT_HI : Fld := ⟨0x4004, 15, 0⟩
/-- `GL_CG_CTL.EN` (Table 3.6). -/
abbrev GlR.CG_CTL_EN : Fld := ⟨0x4048, 31, 31⟩
/-- `GL_CG_CTL.VIEW` (Table 3.6). -/
abbrev GlR.CG_CTL_VIEW : Fld := ⟨0x4048, 30, 28⟩
/-- `GL_CG_CTL.CMD_EN` (Table 3.6). -/
abbrev GlR.CG_CTL_CMD_EN : Fld := ⟨0x4048, 27, 27⟩
/-- `GL_CG_CTL.CMD` (Table 3.6). -/
abbrev GlR.CG_CTL_CMD : Fld := ⟨0x4048, 26, 23⟩
/-- `GL_CG_CTL.RST_START` (Table 3.6). -/
abbrev GlR.CG_CTL_RST_START : Fld := ⟨0x4048, 22, 22⟩
/-- `GL_CG_CTL.USER_RD` (Table 3.6). -/
abbrev GlR.CG_CTL_USER_RD : Fld := ⟨0x4048, 21, 21⟩
/-- `GL_CG_CTL.CLR` (Table 3.6). -/
abbrev GlR.CG_CTL_CLR : Fld := ⟨0x4048, 20, 20⟩
/-- `GL_CG_STAT.SNAP_EP` (Table 3.7). -/
abbrev GlR.CG_STAT_SNAP_EP : Fld := ⟨0x404C, 31, 16⟩
/-- `GL_CG_STAT.BIND_ERR` (Table 3.7). -/
abbrev GlR.CG_STAT_BIND_ERR : Fld := ⟨0x404C, 15, 15⟩
/-- `GL_CG_STAT.CLR_PEND` (Table 3.7). -/
abbrev GlR.CG_STAT_CLR_PEND : Fld := ⟨0x404C, 14, 14⟩
/-- `GL_CG_STAT.HELD` (Table 3.7). -/
abbrev GlR.CG_STAT_HELD : Fld := ⟨0x404C, 13, 13⟩
/-- `GL_CG_STAT.OVF` (Table 3.7). -/
abbrev GlR.CG_STAT_OVF : Fld := ⟨0x404C, 8, 0⟩
/-- `GL_QL_CTL.EN` (Table 4.6). -/
abbrev GlR.QL_CTL_EN : Fld := ⟨0x9000, 31, 31⟩
/-- `GL_QL_CTL.RDACT` (Table 4.6). -/
abbrev GlR.QL_CTL_RDACT : Fld := ⟨0x9000, 30, 30⟩
/-- `GL_QL_CTL.ACT_BANK` (Table 4.6). -/
abbrev GlR.QL_CTL_ACT_BANK : Fld := ⟨0x9000, 29, 29⟩
/-- `GL_QL_CTL.ARMED` (Table 4.6). -/
abbrev GlR.QL_CTL_ARMED : Fld := ⟨0x9000, 28, 28⟩
/-- `GL_QL_CTL.PEND_PN` (Table 4.6). -/
abbrev GlR.QL_CTL_PEND_PN : Fld := ⟨0x9000, 27, 25⟩
/-- `GL_QL_CTL.ACT_PN` (Table 4.6). -/
abbrev GlR.QL_CTL_ACT_PN : Fld := ⟨0x9000, 24, 22⟩
/-- `GL_QL_STAT.ARM_ERR` (Table 4.7). -/
abbrev GlR.QL_STAT_ARM_ERR : Fld := ⟨0x9004, 31, 29⟩
/-- `GL_QL_STAT.ARM_FAIL` (Table 4.7). -/
abbrev GlR.QL_STAT_ARM_FAIL : Fld := ⟨0x9004, 28, 28⟩
/-- `GL_QL_STAT.DISARM` (Table 4.7). -/
abbrev GlR.QL_STAT_DISARM : Fld := ⟨0x9004, 27, 27⟩
/-- `GL_QL_STAT.ACTWR` (Table 4.7). -/
abbrev GlR.QL_STAT_ACTWR : Fld := ⟨0x9004, 26, 26⟩
/-- `GL_QL_STAT.DEADLINE` (Table 4.7). -/
abbrev GlR.QL_STAT_DEADLINE : Fld := ⟨0x9004, 25, 25⟩
/-- `GL_QL_STAT.OVERRUN` (Table 4.7). -/
abbrev GlR.QL_STAT_OVERRUN : Fld := ⟨0x9004, 24, 24⟩
/-- `GL_QL_STAT.PFAULT` (Table 4.7). -/
abbrev GlR.QL_STAT_PFAULT : Fld := ⟨0x9004, 23, 23⟩
/-- `GL_QL_STAT.GAP` (Table 4.7). -/
abbrev GlR.QL_STAT_GAP : Fld := ⟨0x9004, 22, 22⟩
/-- `GL_QL_STAT.SWITCHED` (Table 4.7). -/
abbrev GlR.QL_STAT_SWITCHED : Fld := ⟨0x9004, 21, 21⟩
/-- `GL_QL_STAT.FSEQ` (Table 4.7). -/
abbrev GlR.QL_STAT_FSEQ : Fld := ⟨0x9004, 15, 0⟩
/-- `GL_QL_ARM_EP.EPOCH` (Table 4.8). -/
abbrev GlR.QL_ARM_EP_EPOCH : Fld := ⟨0x9008, 31, 0⟩
/-- `GL_QL_ARM_CFG.GO` (Table 4.9). -/
abbrev GlR.QL_ARM_CFG_GO : Fld := ⟨0x900C, 31, 31⟩
/-- `GL_QL_ARM_CFG.CFG_EP` (Table 4.9). -/
abbrev GlR.QL_ARM_CFG_CFG_EP : Fld := ⟨0x900C, 15, 0⟩
/-- `GL_QL_BUDGET.LIMIT` (Table 4.10). -/
abbrev GlR.QL_BUDGET_LIMIT : Fld := ⟨0x9010, 31, 16⟩
/-- `GL_QL_BUDGET.SUM` (Table 4.10). -/
abbrev GlR.QL_BUDGET_SUM : Fld := ⟨0x9010, 15, 0⟩
/-- `GL_QL_BUF.FREE` (Table 4.11). -/
abbrev GlR.QL_BUF_FREE : Fld := ⟨0x9014, 31, 16⟩
/-- `GL_QL_BUF.FRAMES` (Table 4.11). -/
abbrev GlR.QL_BUF_FRAMES : Fld := ⟨0x9014, 15, 0⟩
/-- `GL_QL_DISCARDS.COUNT` (Table 4.12). -/
abbrev GlR.QL_DISCARDS_COUNT : Fld := ⟨0x9018, 31, 0⟩
/-- `GL_QL_LASTRUN.EXEC` (Table 4.13). -/
abbrev GlR.QL_LASTRUN_EXEC : Fld := ⟨0x901C, 31, 16⟩
/-- `GL_QL_LASTRUN.CLOSE_T` (Table 4.13). -/
abbrev GlR.QL_LASTRUN_CLOSE_T : Fld := ⟨0x901C, 15, 0⟩
/-- `GL_QL_PAGE.PAGE` (Table 4.14). -/
abbrev GlR.QL_PAGE_PAGE : Fld := ⟨0x9020, 5, 0⟩
/-- `GL_QL_LM_CTL.STAGE` (Table 12.11). -/
abbrev GlR.QL_LM_CTL_STAGE : Fld := ⟨0x9024, 31, 31⟩
/-- `GL_QL_LM_CTL.D` (Table 12.11). -/
abbrev GlR.QL_LM_CTL_D : Fld := ⟨0x9024, 29, 24⟩
/-- `GL_QL_LM_ID.ID` (Table 12.12). -/
abbrev GlR.QL_LM_ID_ID : Fld := ⟨0x9028, 31, 0⟩
/-- `GL_QL_LM_NEWID.ID` (Table 12.12). -/
abbrev GlR.QL_LM_NEWID_ID : Fld := ⟨0x902C, 31, 0⟩
/-- `GL_QL_LM_STAT.CHECKS` (Table 12.13). -/
abbrev GlR.QL_LM_STAT_CHECKS : Fld := ⟨0x9030, 31, 29⟩
/-- `GL_QL_LM_STAT.CHKFAIL` (Table 12.13). -/
abbrev GlR.QL_LM_STAT_CHKFAIL : Fld := ⟨0x9030, 28, 28⟩
/-- `GL_QL_LM_STAT.BUSY` (Table 12.13). -/
abbrev GlR.QL_LM_STAT_BUSY : Fld := ⟨0x9030, 27, 27⟩
/-- `GL_QL_LM_STAT.LIVEWR` (Table 12.13). -/
abbrev GlR.QL_LM_STAT_LIVEWR : Fld := ⟨0x9030, 26, 26⟩
/-- `GL_QL_LM_STAT.DERR` (Table 12.13). -/
abbrev GlR.QL_LM_STAT_DERR : Fld := ⟨0x9030, 25, 25⟩
/-- `GL_QL_LM_STAT.ERR` (Table 12.13). -/
abbrev GlR.QL_LM_STAT_ERR : Fld := ⟨0x9030, 24, 22⟩
/-- `GL_QL_LM_STAT.ETREE` (Table 12.13). -/
abbrev GlR.QL_LM_STAT_ETREE : Fld := ⟨0x9030, 13, 0⟩
/-- `GL_QL_SLICE.EN` (Table 4.15). -/
abbrev GlR.QL_SLICE_EN : Fld := ⟨0x9400, 31, 31⟩
/-- `GL_QL_SLICE.BUDGET` (Table 4.15). -/
abbrev GlR.QL_SLICE_BUDGET : Fld := ⟨0x9400, 30, 24⟩
/-- `GL_QL_SLICE.FBASE` (Table 4.15). -/
abbrev GlR.QL_SLICE_FBASE : Fld := ⟨0x9400, 23, 16⟩
/-- `GL_QL_SLICE.FCNT` (Table 4.15). -/
abbrev GlR.QL_SLICE_FCNT : Fld := ⟨0x9400, 15, 11⟩
/-- `GL_QL_SLICE.RED` (Table 4.15). -/
abbrev GlR.QL_SLICE_RED : Fld := ⟨0x9400, 10, 10⟩
/-- `GL_QL_SLICE.ALM` (Table 4.15). -/
abbrev GlR.QL_SLICE_ALM : Fld := ⟨0x9400, 9, 9⟩
/-- `GL_QL_CHST.OVR` (Table 4.16). -/
abbrev GlR.QL_CHST_OVR : Fld := ⟨0x9800, 31, 24⟩
/-- `GL_QL_CHST.FLT` (Table 4.16). -/
abbrev GlR.QL_CHST_FLT : Fld := ⟨0x9800, 23, 16⟩
/-- `GL_QL_CHST.LAST_FLT` (Table 4.16). -/
abbrev GlR.QL_CHST_LAST_FLT : Fld := ⟨0x9800, 15, 13⟩
/-- `GL_QL_CHST.DIS` (Table 4.16). -/
abbrev GlR.QL_CHST_DIS : Fld := ⟨0x9800, 12, 12⟩
/-- `GL_QL_CHST.DONE` (Table 4.16). -/
abbrev GlR.QL_CHST_DONE : Fld := ⟨0x9800, 7, 7⟩
/-- `GL_QL_CHST.EXEC` (Table 4.16). -/
abbrev GlR.QL_CHST_EXEC : Fld := ⟨0x9800, 6, 0⟩
/-- `GL_DG_CTL.TAP_EN` (Table 8.9). -/
abbrev GlR.DG_CTL_TAP_EN : Fld := ⟨0xA000, 31, 28⟩
/-- `GL_DG_CTL.TTAP` (Table 8.9). -/
abbrev GlR.DG_CTL_TTAP : Fld := ⟨0xA000, 27, 26⟩
/-- `GL_DG_CTL.KEYGEN` (Table 8.9). -/
abbrev GlR.DG_CTL_KEYGEN : Fld := ⟨0xA000, 25, 25⟩
/-- `GL_DG_CTL.PEND` (Table 8.9). -/
abbrev GlR.DG_CTL_PEND : Fld := ⟨0xA000, 24, 24⟩
/-- `GL_DG_KEY.VALUE` (Table 8.10). -/
abbrev GlR.DG_KEY_VALUE : Fld := ⟨0xA008, 31, 0⟩
/-- `GL_DG_TAPST.RECDROP` (Table 8.11). -/
abbrev GlR.DG_TAPST_RECDROP : Fld := ⟨0xA020, 31, 24⟩
/-- `GL_DG_TAPST.ORPHAN` (Table 8.11). -/
abbrev GlR.DG_TAPST_ORPHAN : Fld := ⟨0xA020, 23, 16⟩
/-- `GL_DG_TAPST.FMTERR` (Table 8.11). -/
abbrev GlR.DG_TAPST_FMTERR : Fld := ⟨0xA020, 15, 8⟩
/-- `GL_DG_TAPST.OVERLEN` (Table 8.11). -/
abbrev GlR.DG_TAPST_OVERLEN : Fld := ⟨0xA020, 7, 0⟩
/-- `GL_DG_DISC.COUNT` (Table 8.11). -/
abbrev GlR.DG_DISC_COUNT : Fld := ⟨0xA030, 31, 0⟩
/-- `GL_DG_SEED.VALUE` (Table 8.10). -/
abbrev GlR.DG_SEED_VALUE : Fld := ⟨0xA040, 31, 0⟩
/-- `GL_DG_UNM.COUNT` (Table 8.11). -/
abbrev GlR.DG_UNM_COUNT : Fld := ⟨0xA080, 31, 0⟩
/-- `GL_DG_ENT_A.TID` (Table 8.12). -/
abbrev GlR.DG_ENT_A_TID : Fld := ⟨0xA100, 31, 16⟩
/-- `GL_DG_ENT_A.MASK` (Table 8.12). -/
abbrev GlR.DG_ENT_A_MASK : Fld := ⟨0xA100, 15, 0⟩
/-- `GL_DG_ENT_B.GROUP` (Table 8.12). -/
abbrev GlR.DG_ENT_B_GROUP : Fld := ⟨0xA104, 31, 16⟩
/-- `GL_DG_ENT_B.EN` (Table 8.12). -/
abbrev GlR.DG_ENT_B_EN : Fld := ⟨0xA104, 15, 15⟩
/-- `GL_DG_ENT_B.STATS` (Table 8.12). -/
abbrev GlR.DG_ENT_B_STATS : Fld := ⟨0xA104, 14, 14⟩
/-- `GL_DG_ENT_B.SKETCH` (Table 8.12). -/
abbrev GlR.DG_ENT_B_SKETCH : Fld := ⟨0xA104, 13, 13⟩
/-- `GL_DG_ENT_B.HIST` (Table 8.12). -/
abbrev GlR.DG_ENT_B_HIST : Fld := ⟨0xA104, 12, 12⟩
/-- `GL_DG_ENT_B.ROLE` (Table 8.12). -/
abbrev GlR.DG_ENT_B_ROLE : Fld := ⟨0xA104, 11, 11⟩
/-- `GL_DG_ENT_B.SEEDSEL` (Table 8.12). -/
abbrev GlR.DG_ENT_B_SEEDSEL : Fld := ⟨0xA104, 10, 8⟩
/-- `GL_DG_ENT_B.UNIT` (Table 8.12). -/
abbrev GlR.DG_ENT_B_UNIT : Fld := ⟨0xA104, 7, 4⟩
/-- `GL_DG_ENT_C.E` (Table 8.12). -/
abbrev GlR.DG_ENT_C_E : Fld := ⟨0xA108, 31, 24⟩
/-- `GL_DG_ENT_C.HBASE` (Table 8.12). -/
abbrev GlR.DG_ENT_C_HBASE : Fld := ⟨0xA108, 23, 16⟩
/-- `GL_DG_ENT_D.OCC` (Table 8.12). -/
abbrev GlR.DG_ENT_D_OCC : Fld := ⟨0xA10C, 31, 24⟩
/-- `GL_DG_ENT_D.TENSORS` (Table 8.12). -/
abbrev GlR.DG_ENT_D_TENSORS : Fld := ⟨0xA10C, 23, 0⟩
/-- `GL_IW_CTL.DUMP` (Table 15.10). -/
abbrev GlR.IW_CTL_DUMP : Fld := ⟨0xB000, 31, 31⟩
/-- `GL_IW_CTL.NEXT` (Table 15.10). -/
abbrev GlR.IW_CTL_NEXT : Fld := ⟨0xB000, 30, 30⟩
/-- `GL_IW_CTL.REC` (Table 15.10). -/
abbrev GlR.IW_CTL_REC : Fld := ⟨0xB000, 27, 24⟩
/-- `GL_IW_CTL.DTAG` (Table 15.10). -/
abbrev GlR.IW_CTL_DTAG : Fld := ⟨0xB000, 23, 0⟩
/-- `GL_IW_CURSOR.SEQ` (Table 15.11). -/
abbrev GlR.IW_CURSOR_SEQ : Fld := ⟨0xB004, 31, 0⟩
/-- `GL_IW_STAT.RES` (Table 15.11). -/
abbrev GlR.IW_STAT_RES : Fld := ⟨0xB008, 31, 30⟩
/-- `GL_IW_STAT.DBUSY` (Table 15.11). -/
abbrev GlR.IW_STAT_DBUSY : Fld := ⟨0xB008, 29, 29⟩
/-- `GL_IW_STAT.DQUEUE` (Table 15.11). -/
abbrev GlR.IW_STAT_DQUEUE : Fld := ⟨0xB008, 28, 26⟩
/-- `GL_IW_STAT.DREFUSED` (Table 15.11). -/
abbrev GlR.IW_STAT_DREFUSED : Fld := ⟨0xB008, 25, 25⟩
/-- `GL_IW_STAT.TORN` (Table 15.11). -/
abbrev GlR.IW_STAT_TORN : Fld := ⟨0xB008, 24, 24⟩
/-- `GL_IW_STAT.UNITS` (Table 15.11). -/
abbrev GlR.IW_STAT_UNITS : Fld := ⟨0xB008, 7, 0⟩
/-- `GL_IW_OLDEST.SEQ` (Table 15.11). -/
abbrev GlR.IW_OLDEST_SEQ : Fld := ⟨0xB010, 31, 0⟩
/-- `GL_IW_NEXT.SEQ` (Table 15.11). -/
abbrev GlR.IW_NEXT_SEQ : Fld := ⟨0xB014, 31, 0⟩
/-- `GL_IW_WINDOW.DATA` (R345). -/
abbrev GlR.IW_WINDOW_DATA : Fld := ⟨0xB100, 31, 0⟩
/-- `GL_PT_FLEET.FLEET_ID` (Table 15.12). -/
abbrev GlR.PT_FLEET_FLEET_ID : Fld := ⟨0xC000, 31, 0⟩
/-- `GL_PT_OOS.MARK` (Table 15.12). -/
abbrev GlR.PT_OOS_MARK : Fld := ⟨0xC004, 0, 0⟩
/-- `GL_PT_HEALTH.STATE` (Table 15.12). -/
abbrev GlR.PT_HEALTH_STATE : Fld := ⟨0xC008, 31, 0⟩
/-- `GL_PT_TRIM.TRIM_B` (Table 15.12). -/
abbrev GlR.PT_TRIM_TRIM_B : Fld := ⟨0xC00C, 31, 16⟩
/-- `GL_PT_TRIM.TRIM_A` (Table 15.12). -/
abbrev GlR.PT_TRIM_TRIM_A : Fld := ⟨0xC00C, 15, 0⟩
/-- `GL_PT_SEED_LO.SEED` (Table 15.12). -/
abbrev GlR.PT_SEED_LO_SEED : Fld := ⟨0xC010, 31, 0⟩
/-- `GL_PT_SEED_HI.SEED` (Table 15.12). -/
abbrev GlR.PT_SEED_HI_SEED : Fld := ⟨0xC014, 31, 0⟩
/-- `GL_PT_STAT.EXHAUSTED` (Table 15.12). -/
abbrev GlR.PT_STAT_EXHAUSTED : Fld := ⟨0xC018, 31, 27⟩
/-- `GL_PT_STAT.LAST_RES` (Table 15.12). -/
abbrev GlR.PT_STAT_LAST_RES : Fld := ⟨0xC018, 26, 24⟩
/-- `GL_PT_STAT.TORN` (Table 15.12). -/
abbrev GlR.PT_STAT_TORN : Fld := ⟨0xC018, 23, 16⟩
/-- `GL_PT_LEFT.FLEET` (Table 15.12). -/
abbrev GlR.PT_LEFT_FLEET : Fld := ⟨0xC01C, 31, 29⟩
/-- `GL_PT_LEFT.OOS` (Table 15.12). -/
abbrev GlR.PT_LEFT_OOS : Fld := ⟨0xC01C, 28, 24⟩
/-- `GL_PT_LEFT.HEALTH` (Table 15.12). -/
abbrev GlR.PT_LEFT_HEALTH : Fld := ⟨0xC01C, 23, 16⟩
/-- `GL_PT_LEFT.TRIM` (Table 15.12). -/
abbrev GlR.PT_LEFT_TRIM : Fld := ⟨0xC01C, 15, 12⟩
/-- `GL_PT_LEFT.SEED` (Table 15.12). -/
abbrev GlR.PT_LEFT_SEED : Fld := ⟨0xC01C, 11, 9⟩
/-- `GL_PT_VIEW.BITS` (Table 15.12). -/
abbrev GlR.PT_VIEW_BITS : Fld := ⟨0xC400, 31, 0⟩
/-- `GL_TS_CTL.EN` (Table 8.13). -/
abbrev GlR.TS_CTL_EN : Fld := ⟨0xD000, 31, 31⟩
/-- `GL_TS_CTL.LATE` (Table 8.13). -/
abbrev GlR.TS_CTL_LATE : Fld := ⟨0xD000, 30, 23⟩
/-- `GL_TS_CTL.INT_H` (Table 8.13). -/
abbrev GlR.TS_CTL_INT_H : Fld := ⟨0xD000, 22, 15⟩
/-- `GL_TS_CTL.SPMASK` (Table 8.13). -/
abbrev GlR.TS_CTL_SPMASK : Fld := ⟨0xD000, 14, 7⟩
/-- `GL_TS_CTL.TEMP_VP` (Table 8.13). -/
abbrev GlR.TS_CTL_TEMP_VP : Fld := ⟨0xD000, 6, 1⟩
/-- `GL_TS_TBIN0.T1` (Table 8.14). -/
abbrev GlR.TS_TBIN0_T1 : Fld := ⟨0xD004, 31, 24⟩
/-- `GL_TS_TBIN0.T2` (Table 8.14). -/
abbrev GlR.TS_TBIN0_T2 : Fld := ⟨0xD004, 23, 16⟩
/-- `GL_TS_TBIN0.T3` (Table 8.14). -/
abbrev GlR.TS_TBIN0_T3 : Fld := ⟨0xD004, 15, 8⟩
/-- `GL_TS_TBIN0.T4` (Table 8.14). -/
abbrev GlR.TS_TBIN0_T4 : Fld := ⟨0xD004, 7, 0⟩
/-- `GL_TS_TBIN1.T5` (Table 8.14). -/
abbrev GlR.TS_TBIN1_T5 : Fld := ⟨0xD008, 31, 24⟩
/-- `GL_TS_TBIN1.T6` (Table 8.14). -/
abbrev GlR.TS_TBIN1_T6 : Fld := ⟨0xD008, 23, 16⟩
/-- `GL_TS_TBIN1.T7` (Table 8.14). -/
abbrev GlR.TS_TBIN1_T7 : Fld := ⟨0xD008, 15, 8⟩
/-- `GL_TS_LOADSIG.SIG` (Table 8.15). -/
abbrev GlR.TS_LOADSIG_SIG : Fld := ⟨0xD00C, 3, 0⟩
/-- `GL_TS_STAT.TPDROP` (Table 8.15). -/
abbrev GlR.TS_STAT_TPDROP : Fld := ⟨0xD010, 31, 24⟩
/-- `GL_TS_STAT.ABORTS` (Table 8.15). -/
abbrev GlR.TS_STAT_ABORTS : Fld := ⟨0xD010, 23, 16⟩
/-- `GL_TS_STAT.IGNORED` (Table 8.15). -/
abbrev GlR.TS_STAT_IGNORED : Fld := ⟨0xD010, 15, 8⟩
/-- `GL_TS_STAT.LATE_EV` (Table 8.15). -/
abbrev GlR.TS_STAT_LATE_EV : Fld := ⟨0xD010, 7, 0⟩
/-- `GL_TS_UNIT.STATE` (Table 8.16). -/
abbrev GlR.TS_UNIT_STATE : Fld := ⟨0xD040, 31, 30⟩
/-- `GL_TS_UNIT.COND` (Table 8.16). -/
abbrev GlR.TS_UNIT_COND : Fld := ⟨0xD040, 29, 29⟩
/-- `GL_TS_UNIT.CTBIN` (Table 8.16). -/
abbrev GlR.TS_UNIT_CTBIN : Fld := ⟨0xD040, 28, 26⟩
/-- `GL_TS_UNIT.CSIG` (Table 8.16). -/
abbrev GlR.TS_UNIT_CSIG : Fld := ⟨0xD040, 25, 22⟩
/-- `GL_TS_UNIT.DUE` (Table 8.16). -/
abbrev GlR.TS_UNIT_DUE : Fld := ⟨0xD040, 21, 21⟩
/-- `GL_TS_UNIT.OVERDUE` (Table 8.16). -/
abbrev GlR.TS_UNIT_OVERDUE : Fld := ⟨0xD040, 20, 20⟩
/-- `GL_TS_UNIT.CLEAN` (Table 8.16). -/
abbrev GlR.TS_UNIT_CLEAN : Fld := ⟨0xD040, 19, 16⟩
/-- `GL_TS_UNIT.PARTNER` (Table 8.16). -/
abbrev GlR.TS_UNIT_PARTNER : Fld := ⟨0xD040, 15, 12⟩
/-- `GL_TS_UNIT.FITTED` (Table 8.16). -/
abbrev GlR.TS_UNIT_FITTED : Fld := ⟨0xD040, 11, 11⟩
/-- `GL_TS_UNIT.AGE` (Table 8.16). -/
abbrev GlR.TS_UNIT_AGE : Fld := ⟨0xD040, 10, 0⟩
/-- `GL_HB_CTL.EN` (Table 17.3). -/
abbrev GlR.HB_CTL_EN : Fld := ⟨0xD100, 31, 31⟩
/-- `GL_HB_CTL.MISS` (Table 17.3). -/
abbrev GlR.HB_CTL_MISS : Fld := ⟨0xD100, 30, 24⟩
/-- `GL_HB_CTL.PERIOD` (Table 17.3). -/
abbrev GlR.HB_CTL_PERIOD : Fld := ⟨0xD100, 15, 0⟩
/-- `GL_HB_STAT.HUNG` (Table 17.3). -/
abbrev GlR.HB_STAT_HUNG : Fld := ⟨0xD104, 31, 31⟩
/-- `GL_HB_STAT.SUSP` (Table 17.3). -/
abbrev GlR.HB_STAT_SUSP : Fld := ⟨0xD104, 30, 30⟩
/-- `GL_HB_STAT.MISSED` (Table 17.3). -/
abbrev GlR.HB_STAT_MISSED : Fld := ⟨0xD104, 23, 16⟩
/-- `GL_HB_STAT.HANGS` (Table 17.3). -/
abbrev GlR.HB_STAT_HANGS : Fld := ⟨0xD104, 15, 0⟩
/-- `GL_HB_BEATS.COUNT` (Table 17.3). -/
abbrev GlR.HB_BEATS_COUNT : Fld := ⟨0xD108, 31, 0⟩
/-- `GL_EC_STAT.CE` (Table 17.3). -/
abbrev GlR.EC_STAT_CE : Fld := ⟨0xD110, 31, 16⟩
/-- `GL_EC_STAT.UE` (Table 17.3). -/
abbrev GlR.EC_STAT_UE : Fld := ⟨0xD110, 15, 8⟩
/-- `GL_EC_STAT.PAR` (Table 17.3). -/
abbrev GlR.EC_STAT_PAR : Fld := ⟨0xD110, 7, 0⟩
/-- `GL_EC_SCRUB.PERIOD_H` (Table 17.3). -/
abbrev GlR.EC_SCRUB_PERIOD_H : Fld := ⟨0xD114, 31, 24⟩
/-- `GL_EC_SCRUB.PASSES` (Table 17.3). -/
abbrev GlR.EC_SCRUB_PASSES : Fld := ⟨0xD114, 15, 0⟩
/-- `GL_EC_LAST.VALID` (Table 17.3). -/
abbrev GlR.EC_LAST_VALID : Fld := ⟨0xD118, 31, 31⟩
/-- `GL_EC_LAST.WORD` (Table 17.3). -/
abbrev GlR.EC_LAST_WORD : Fld := ⟨0xD118, 15, 0⟩

/-! Names of the fields of `PZ_` registers. -/

/-- `PZ_IDENT.PART` (Table 0.3). -/
abbrev PzR.IDENT_PART : Fld := ⟨0x0, 31, 16⟩
/-- `PZ_IDENT.STEPPING` (Table 0.3). -/
abbrev PzR.IDENT_STEPPING : Fld := ⟨0x0, 15, 8⟩
/-- `PZ_IDENT.JAREND_MAJOR` (Table 0.3). -/
abbrev PzR.IDENT_JAREND_MAJOR : Fld := ⟨0x0, 7, 4⟩
/-- `PZ_IDENT.JAREND_MINOR` (Table 0.3). -/
abbrev PzR.IDENT_JAREND_MINOR : Fld := ⟨0x0, 3, 0⟩
/-- `PZ_PKG_CTL.ROLE` (Table 9.11). -/
abbrev PzR.PKG_CTL_ROLE : Fld := ⟨0x10000, 31, 30⟩
/-- `PZ_PKG_STAT.DIE_OK` (Table 9.12). -/
abbrev PzR.PKG_STAT_DIE_OK : Fld := ⟨0x10004, 31, 16⟩
/-- `PZ_PKG_STAT.KEEPER_OK` (Table 9.12). -/
abbrev PzR.PKG_STAT_KEEPER_OK : Fld := ⟨0x10004, 15, 14⟩
/-- `PZ_PKG_STAT.BELOW_FLOOR` (Table 9.12). -/
abbrev PzR.PKG_STAT_BELOW_FLOOR : Fld := ⟨0x10004, 13, 13⟩
/-- `PZ_PKG_STAT.MESH_DEG` (Table 9.12). -/
abbrev PzR.PKG_STAT_MESH_DEG : Fld := ⟨0x10004, 12, 12⟩
/-- `PZ_PKG_STAT.ROLE_LOCK` (Table 9.12). -/
abbrev PzR.PKG_STAT_ROLE_LOCK : Fld := ⟨0x10004, 11, 11⟩
/-- `PZ_SPD.RATIO` (Table 9.13). -/
abbrev PzR.SPD_RATIO : Fld := ⟨0x10100, 15, 0⟩
/-- `PZ_GOV_CTL.PCAP` (Table 9.14). -/
abbrev PzR.GOV_CTL_PCAP : Fld := ⟨0x10200, 31, 22⟩
/-- `PZ_GOV_CTL.STEP` (Table 9.14). -/
abbrev PzR.GOV_CTL_STEP : Fld := ⟨0x10200, 15, 8⟩
/-- `PZ_GOV_STAT.LEVEL` (Table 9.15). -/
abbrev PzR.GOV_STAT_LEVEL : Fld := ⟨0x10204, 31, 25⟩
/-- `PZ_GOV_STAT.RAMPING` (Table 9.15). -/
abbrev PzR.GOV_STAT_RAMPING : Fld := ⟨0x10204, 24, 24⟩
/-- `PZ_GOV_STAT.PCAP_HIT` (Table 9.15). -/
abbrev PzR.GOV_STAT_PCAP_HIT : Fld := ⟨0x10204, 23, 23⟩
/-- `PZ_GOV_STAT.BALLAST` (Table 9.15). -/
abbrev PzR.GOV_STAT_BALLAST : Fld := ⟨0x10204, 22, 22⟩
/-- `PZ_GOV_STAT.DEFER` (Table 9.15). -/
abbrev PzR.GOV_STAT_DEFER : Fld := ⟨0x10204, 15, 0⟩
/-- `PZ_EC_CTL.SRAM_H` (Table 17.4). -/
abbrev PzR.EC_CTL_SRAM_H : Fld := ⟨0x10300, 31, 24⟩
/-- `PZ_EC_CTL.DRAM_H` (Table 17.4). -/
abbrev PzR.EC_CTL_DRAM_H : Fld := ⟨0x10300, 23, 16⟩
/-- `PZ_EC_DIE.CE` (Table 17.4). -/
abbrev PzR.EC_DIE_CE : Fld := ⟨0x10310, 31, 16⟩
/-- `PZ_EC_DIE.UE` (Table 17.4). -/
abbrev PzR.EC_DIE_UE : Fld := ⟨0x10310, 15, 8⟩
/-- `PZ_EC_DIE.PAR` (Table 17.4). -/
abbrev PzR.EC_DIE_PAR : Fld := ⟨0x10310, 7, 0⟩
/-- `PZ_EC_DRAM.CE` (Table 17.4). -/
abbrev PzR.EC_DRAM_CE : Fld := ⟨0x10350, 31, 16⟩
/-- `PZ_EC_DRAM.UE` (Table 17.4). -/
abbrev PzR.EC_DRAM_UE : Fld := ⟨0x10350, 15, 8⟩
/-- `PZ_EC_LAST_LO.ADDR` (Table 17.4). -/
abbrev PzR.EC_LAST_LO_ADDR : Fld := ⟨0x103B0, 31, 0⟩
/-- `PZ_EC_LAST_HI.ADDR` (Table 17.4). -/
abbrev PzR.EC_LAST_HI_ADDR : Fld := ⟨0x103B4, 31, 0⟩
/-- `PZ_EC_PASS.SRAM` (Table 17.4). -/
abbrev PzR.EC_PASS_SRAM : Fld := ⟨0x103B8, 31, 16⟩
/-- `PZ_EC_PASS.DRAM` (Table 17.4). -/
abbrev PzR.EC_PASS_DRAM : Fld := ⟨0x103B8, 15, 0⟩
/-- `PZ_WD_CTL.WAIT` (Table 17.4). -/
abbrev PzR.WD_CTL_WAIT : Fld := ⟨0x103C0, 31, 16⟩
/-- `PZ_WD_STAT.FIRED` (Table 17.4). -/
abbrev PzR.WD_STAT_FIRED : Fld := ⟨0x103C4, 31, 16⟩
/-- `PZ_WD_STAT.STALLS` (Table 17.4). -/
abbrev PzR.WD_STAT_STALLS : Fld := ⟨0x103C4, 15, 0⟩
/-- `PZ_THERM_CTL.TJ_THR` (Table 18.7). -/
abbrev PzR.THERM_CTL_TJ_THR : Fld := ⟨0x10400, 31, 24⟩
/-- `PZ_THERM_CTL.TJ_ALM` (Table 18.7). -/
abbrev PzR.THERM_CTL_TJ_ALM : Fld := ⟨0x10400, 23, 16⟩
/-- `PZ_THERM_CTL.CEIL_MIN` (Table 18.7). -/
abbrev PzR.THERM_CTL_CEIL_MIN : Fld := ⟨0x10400, 15, 9⟩
/-- `PZ_THERM_CTL.CEIL_STEP` (Table 18.7). -/
abbrev PzR.THERM_CTL_CEIL_STEP : Fld := ⟨0x10400, 7, 0⟩
/-- `PZ_THERM_STAT.CEIL` (Table 18.8). -/
abbrev PzR.THERM_STAT_CEIL : Fld := ⟨0x10404, 31, 25⟩
/-- `PZ_THERM_STAT.THROTTLE` (Table 18.8). -/
abbrev PzR.THERM_STAT_THROTTLE : Fld := ⟨0x10404, 24, 24⟩
/-- `PZ_THERM_STAT.HOT` (Table 18.8). -/
abbrev PzR.THERM_STAT_HOT : Fld := ⟨0x10404, 23, 23⟩
/-- `PZ_THERM_STAT.TMAX` (Table 18.8). -/
abbrev PzR.THERM_STAT_TMAX : Fld := ⟨0x10404, 15, 8⟩
/-- `PZ_THERM_STAT.HOTDIE` (Table 18.8). -/
abbrev PzR.THERM_STAT_HOTDIE : Fld := ⟨0x10404, 7, 4⟩
/-- `PZ_TEMP.PEAK` (Table 18.9). -/
abbrev PzR.TEMP_PEAK : Fld := ⟨0x10410, 15, 8⟩
/-- `PZ_TEMP.TEMP` (Table 18.9). -/
abbrev PzR.TEMP_TEMP : Fld := ⟨0x10410, 7, 0⟩
/-- `PZ_PWR_STAT.UP` (Table 18.10). -/
abbrev PzR.PWR_STAT_UP : Fld := ⟨0x10460, 31, 31⟩
/-- `PZ_PWR_STAT.EN` (Table 18.10). -/
abbrev PzR.PWR_STAT_EN : Fld := ⟨0x10460, 30, 24⟩
/-- `PZ_PWR_STAT.PG` (Table 18.10). -/
abbrev PzR.PWR_STAT_PG : Fld := ⟨0x10460, 23, 17⟩
/-- `PZ_PWR_STAT.STEP` (Table 18.10). -/
abbrev PzR.PWR_STAT_STEP : Fld := ⟨0x10460, 16, 13⟩
/-- `PZ_RST_STAT.CAUSE` (Table 18.11). -/
abbrev PzR.RST_STAT_CAUSE : Fld := ⟨0x10464, 31, 28⟩
/-- `PZ_RST_STAT.RAILF` (Table 18.11). -/
abbrev PzR.RST_STAT_RAILF : Fld := ⟨0x10464, 27, 21⟩
/-- `PZ_RST_STAT.PERST` (Table 18.11). -/
abbrev PzR.RST_STAT_PERST : Fld := ⟨0x10464, 20, 20⟩
/-- `PZ_DDR_STAT.TRAINED` (Table 18.12). -/
abbrev PzR.DDR_STAT_TRAINED : Fld := ⟨0x10470, 23, 0⟩
/-- `PZ_DDR_CFG.RATE` (Table 18.12). -/
abbrev PzR.DDR_CFG_RATE : Fld := ⟨0x10474, 2, 0⟩
/-- `PZ_B2_WIN.EN` (Table 19.3). -/
abbrev PzR.B2_WIN_EN : Fld := ⟨0x10800, 31, 31⟩
/-- `PZ_B2_WIN.WR` (Table 19.3). -/
abbrev PzR.B2_WIN_WR : Fld := ⟨0x10800, 30, 30⟩
/-- `PZ_B2_WIN.BASE` (Table 19.3). -/
abbrev PzR.B2_WIN_BASE : Fld := ⟨0x10800, 16, 0⟩
/-- `PZ_B2_WIN_HI.EN` (Table 19.3). -/
abbrev PzR.B2_WIN_HI_EN : Fld := ⟨0x10840, 31, 31⟩
/-- `PZ_B2_WIN_HI.WR` (Table 19.3). -/
abbrev PzR.B2_WIN_HI_WR : Fld := ⟨0x10840, 30, 30⟩
/-- `PZ_B2_WIN_HI.BASE` (Table 19.3). -/
abbrev PzR.B2_WIN_HI_BASE : Fld := ⟨0x10840, 16, 0⟩
/-- `PZ_B2_STAT.UNMAPPED` (Table 19.4). -/
abbrev PzR.B2_STAT_UNMAPPED : Fld := ⟨0x10880, 31, 24⟩
/-- `PZ_B2_STAT.HOLE` (Table 19.4). -/
abbrev PzR.B2_STAT_HOLE : Fld := ⟨0x10880, 23, 16⟩
/-- `PZ_B2_STAT.PROT` (Table 19.4). -/
abbrev PzR.B2_STAT_PROT : Fld := ⟨0x10880, 15, 8⟩
/-- `PZ_ST_STAT.CTX_BUSY` (Table 10.14). -/
abbrev PzR.ST_STAT_CTX_BUSY : Fld := ⟨0x20000, 31, 28⟩
/-- `PZ_ST_STAT.OUT` (Table 10.14). -/
abbrev PzR.ST_STAT_OUT : Fld := ⟨0x20000, 27, 27⟩
/-- `PZ_ST_STAT.NACTIVE` (Table 10.14). -/
abbrev PzR.ST_STAT_NACTIVE : Fld := ⟨0x20000, 20, 16⟩
/-- `PZ_ST_STAT.FAULTS` (Table 10.14). -/
abbrev PzR.ST_STAT_FAULTS : Fld := ⟨0x20000, 15, 0⟩
/-- `PZ_PG_STAT.STATE` (Table 10.15). -/
abbrev PzR.PG_STAT_STATE : Fld := ⟨0x20040, 31, 30⟩
/-- `PZ_PG_STAT.SHADOW` (Table 10.15). -/
abbrev PzR.PG_STAT_SHADOW : Fld := ⟨0x20040, 29, 29⟩
/-- `PZ_PG_STAT.PEND` (Table 10.15). -/
abbrev PzR.PG_STAT_PEND : Fld := ⟨0x20040, 28, 26⟩
/-- `PZ_PG_STAT.RUN` (Table 10.15). -/
abbrev PzR.PG_STAT_RUN : Fld := ⟨0x20040, 25, 25⟩
/-- `PZ_PG_STAT.LAST_FLT` (Table 10.15). -/
abbrev PzR.PG_STAT_LAST_FLT : Fld := ⟨0x20040, 24, 20⟩
/-- `PZ_PG_STAT.FLT` (Table 10.15). -/
abbrev PzR.PG_STAT_FLT : Fld := ⟨0x20040, 19, 12⟩
/-- `PZ_PG_STAT.COAL` (Table 10.15). -/
abbrev PzR.PG_STAT_COAL : Fld := ⟨0x20040, 11, 0⟩
/-- `PZ_PG_DROP.COUNT` (Table 10.16). -/
abbrev PzR.PG_DROP_COUNT : Fld := ⟨0x20080, 31, 0⟩
/-- `PZ_ST_EGDROP.TRACE` (Table 19.7). -/
abbrev PzR.ST_EGDROP_TRACE : Fld := ⟨0x200C0, 31, 16⟩
/-- `PZ_ST_EGDROP.ALMSUPP` (Table 19.7). -/
abbrev PzR.ST_EGDROP_ALMSUPP : Fld := ⟨0x200C0, 15, 0⟩
/-- `PZ_SG_CTL.RATE` (Table 12.14). -/
abbrev PzR.SG_CTL_RATE : Fld := ⟨0x30000, 31, 24⟩
/-- `PZ_SG_STAT.STAGING` (Table 12.15). -/
abbrev PzR.SG_STAT_STAGING : Fld := ⟨0x30004, 31, 31⟩
/-- `PZ_SG_STAT.SHADOW` (Table 12.15). -/
abbrev PzR.SG_STAT_SHADOW : Fld := ⟨0x30004, 30, 30⟩
/-- `PZ_SG_STAT.PROGRESS` (Table 12.15). -/
abbrev PzR.SG_STAT_PROGRESS : Fld := ⟨0x30004, 23, 16⟩
/-- `PZ_SG_STAT.MODELS` (Table 12.15). -/
abbrev PzR.SG_STAT_MODELS : Fld := ⟨0x30004, 8, 0⟩
/-- `PZ_SG_STAGE_OLD.ID` (Table 12.16). -/
abbrev PzR.SG_STAGE_OLD_ID : Fld := ⟨0x30008, 31, 0⟩
/-- `PZ_SG_STAGE_NEW.ID` (Table 12.16). -/
abbrev PzR.SG_STAGE_NEW_ID : Fld := ⟨0x3000C, 31, 0⟩
/-- `PZ_SG_OMIT.COUNT` (Table 12.17). -/
abbrev PzR.SG_OMIT_COUNT : Fld := ⟨0x30010, 31, 0⟩
/-- `PZ_SG_LAUNCH.COUNT` (Table 12.17). -/
abbrev PzR.SG_LAUNCH_COUNT : Fld := ⟨0x30014, 31, 0⟩
/-- `PZ_SG_DIE.FREE` (Table 12.18). -/
abbrev PzR.SG_DIE_FREE : Fld := ⟨0x30100, 31, 16⟩
/-- `PZ_SG_DIE.USED` (Table 12.18). -/
abbrev PzR.SG_DIE_USED : Fld := ⟨0x30100, 15, 0⟩
/-- `PZ_SG_DIE_HI.FREE` (Table 12.18). -/
abbrev PzR.SG_DIE_HI_FREE : Fld := ⟨0x30138, 31, 16⟩
/-- `PZ_SG_DIE_HI.USED` (Table 12.18). -/
abbrev PzR.SG_DIE_HI_USED : Fld := ⟨0x30138, 15, 0⟩
/-- `PZ_TM_CTL.DOM0` (Table 5.16). -/
abbrev PzR.TM_CTL_DOM0 : Fld := ⟨0x40000, 31, 24⟩
/-- `PZ_TM_CTL.DOM1` (Table 5.16). -/
abbrev PzR.TM_CTL_DOM1 : Fld := ⟨0x40000, 23, 16⟩
/-- `PZ_TM_CTL.SEL` (Table 5.16). -/
abbrev PzR.TM_CTL_SEL : Fld := ⟨0x40000, 15, 14⟩
/-- `PZ_TM_CTL.SLEW` (Table 5.16). -/
abbrev PzR.TM_CTL_SLEW : Fld := ⟨0x40000, 13, 8⟩
/-- `PZ_TM_CTL.TXDIV` (Table 5.16). -/
abbrev PzR.TM_CTL_TXDIV : Fld := ⟨0x40000, 7, 4⟩
/-- `PZ_TM_STAT.ACTIVE` (Table 5.17). -/
abbrev PzR.TM_STAT_ACTIVE : Fld := ⟨0x40004, 31, 30⟩
/-- `PZ_TM_STAT.SLEWING` (Table 5.17). -/
abbrev PzR.TM_STAT_SLEWING : Fld := ⟨0x40004, 29, 29⟩
/-- `PZ_TM_STAT.HOLDOVER` (Table 5.17). -/
abbrev PzR.TM_STAT_HOLDOVER : Fld := ⟨0x40004, 28, 28⟩
/-- `PZ_TM_STAT.OUT_OF_SPEC` (Table 5.17). -/
abbrev PzR.TM_STAT_OUT_OF_SPEC : Fld := ⟨0x40004, 27, 27⟩
/-- `PZ_TM_STAT.UNTIMED` (Table 5.17). -/
abbrev PzR.TM_STAT_UNTIMED : Fld := ⟨0x40004, 26, 26⟩
/-- `PZ_TM_STAT.EXT_PRED` (Table 5.17). -/
abbrev PzR.TM_STAT_EXT_PRED : Fld := ⟨0x40004, 15, 0⟩
/-- `PZ_TM_HOLD.VALUE` (Table 5.18). -/
abbrev PzR.TM_HOLD_VALUE : Fld := ⟨0x40008, 31, 0⟩
/-- `PZ_TM_ASYM.VALUE` (Table 5.18). -/
abbrev PzR.TM_ASYM_VALUE : Fld := ⟨0x40100, 31, 0⟩
/-- `PZ_TM_UASYM.VALUE` (Table 5.18). -/
abbrev PzR.TM_UASYM_VALUE : Fld := ⟨0x40140, 31, 0⟩
/-- `PZ_TOUT_CFG.MODE` (Table 5.19). -/
abbrev PzR.TOUT_CFG_MODE : Fld := ⟨0x40200, 31, 29⟩
/-- `PZ_TOUT_CFG.DOMSEL` (Table 5.19). -/
abbrev PzR.TOUT_CFG_DOMSEL : Fld := ⟨0x40200, 28, 28⟩
/-- `PZ_TOUT_CFG.PCODE` (Table 5.19). -/
abbrev PzR.TOUT_CFG_PCODE : Fld := ⟨0x40200, 27, 25⟩
/-- `PZ_TOUT_CFG.MISSED` (Table 5.19). -/
abbrev PzR.TOUT_CFG_MISSED : Fld := ⟨0x40200, 24, 24⟩
/-- `PZ_TOUT_CFG.WIDTH` (Table 5.19). -/
abbrev PzR.TOUT_CFG_WIDTH : Fld := ⟨0x40200, 23, 0⟩
/-- `PZ_TOUT_T_LO.TIME` (Table 5.19). -/
abbrev PzR.TOUT_T_LO_TIME : Fld := ⟨0x40204, 31, 0⟩
/-- `PZ_TOUT_T_HI.TIME` (Table 5.19). -/
abbrev PzR.TOUT_T_HI_TIME : Fld := ⟨0x40208, 31, 0⟩
/-- `PZ_TIN_CFG.EDGE` (Table 5.20). -/
abbrev PzR.TIN_CFG_EDGE : Fld := ⟨0x40300, 31, 30⟩
/-- `PZ_TIN_CFG.DROPS` (Table 5.20). -/
abbrev PzR.TIN_CFG_DROPS : Fld := ⟨0x40300, 15, 8⟩
/-- `PZ_TIN_CFG.LEVEL` (Table 5.20). -/
abbrev PzR.TIN_CFG_LEVEL : Fld := ⟨0x40300, 7, 0⟩
/-- `PZ_TIN_DATA_LO.STAMP` (Table 5.20). -/
abbrev PzR.TIN_DATA_LO_STAMP : Fld := ⟨0x40304, 31, 0⟩
/-- `PZ_TIN_DATA_HI.STAMP` (Table 5.20). -/
abbrev PzR.TIN_DATA_HI_STAMP : Fld := ⟨0x40308, 31, 0⟩
/-- `PZ_ING_CTL.ETYPE` (Table 7.17). -/
abbrev PzR.ING_CTL_ETYPE : Fld := ⟨0x50000, 31, 16⟩
/-- `PZ_ING_CTL.OVH` (Table 7.17). -/
abbrev PzR.ING_CTL_OVH : Fld := ⟨0x50000, 13, 8⟩
/-- `PZ_ING_ADMIT.CTL_RATE` (Table 7.18). -/
abbrev PzR.ING_ADMIT_CTL_RATE : Fld := ⟨0x50004, 31, 16⟩
/-- `PZ_ING_ADMIT.CTL_BURST` (Table 7.18). -/
abbrev PzR.ING_ADMIT_CTL_BURST : Fld := ⟨0x50004, 15, 0⟩
/-- `PZ_MTR_CIR.VALUE` (Table 7.19). -/
abbrev PzR.MTR_CIR_VALUE : Fld := ⟨0x50100, 31, 0⟩
/-- `PZ_MTR_CBS.VALUE` (Table 7.19). -/
abbrev PzR.MTR_CBS_VALUE : Fld := ⟨0x50104, 31, 0⟩
/-- `PZ_MTR_PIR.VALUE` (Table 7.19). -/
abbrev PzR.MTR_PIR_VALUE : Fld := ⟨0x50108, 31, 0⟩
/-- `PZ_MTR_PBS.VALUE` (Table 7.19). -/
abbrev PzR.MTR_PBS_VALUE : Fld := ⟨0x5010C, 31, 0⟩
/-- `PZ_ING_Q0.FRAME_LVL` (Table 9.16). -/
abbrev PzR.ING_Q0_FRAME_LVL : Fld := ⟨0x50400, 31, 16⟩
/-- `PZ_ING_Q0.CTL_LVL` (Table 9.16). -/
abbrev PzR.ING_Q0_CTL_LVL : Fld := ⟨0x50400, 15, 0⟩
/-- `PZ_ING_Q1.TRACE_LVL` (Table 9.16). -/
abbrev PzR.ING_Q1_TRACE_LVL : Fld := ⟨0x50404, 31, 16⟩
/-- `PZ_ING_Q1.BULK_LVL` (Table 9.16). -/
abbrev PzR.ING_Q1_BULK_LVL : Fld := ⟨0x50404, 15, 0⟩
/-- `PZ_ING_Q2.YDROP` (Table 9.16). -/
abbrev PzR.ING_Q2_YDROP : Fld := ⟨0x50408, 31, 16⟩
/-- `PZ_ING_Q2.FDROP` (Table 9.16). -/
abbrev PzR.ING_Q2_FDROP : Fld := ⟨0x50408, 15, 0⟩
/-- `PZ_ING_Q3.UNKNOWN` (Table 9.16). -/
abbrev PzR.ING_Q3_UNKNOWN : Fld := ⟨0x5040C, 31, 16⟩
/-- `PZ_ING_Q3.CHKERR` (Table 9.16). -/
abbrev PzR.ING_Q3_CHKERR : Fld := ⟨0x5040C, 15, 0⟩
/-- `PZ_PORT_CFG.MODE` (Table 18.13). -/
abbrev PzR.PORT_CFG_MODE : Fld := ⟨0x50800, 31, 29⟩
/-- `PZ_PORT_CFG.LOOP` (Table 18.13). -/
abbrev PzR.PORT_CFG_LOOP : Fld := ⟨0x50800, 28, 28⟩
/-- `PZ_PORT_CFG_U.MODE` (Table 18.13). -/
abbrev PzR.PORT_CFG_U_MODE : Fld := ⟨0x50880, 31, 29⟩
/-- `PZ_PORT_CFG_U.LOOP` (Table 18.13). -/
abbrev PzR.PORT_CFG_U_LOOP : Fld := ⟨0x50880, 28, 28⟩
/-- `PZ_PORT_STAT.LINK` (Table 18.13). -/
abbrev PzR.PORT_STAT_LINK : Fld := ⟨0x50804, 31, 31⟩
/-- `PZ_PORT_STAT.DOWNS` (Table 18.13). -/
abbrev PzR.PORT_STAT_DOWNS : Fld := ⟨0x50804, 15, 8⟩
/-- `PZ_PORT_STAT.FECUNC` (Table 18.13). -/
abbrev PzR.PORT_STAT_FECUNC : Fld := ⟨0x50804, 7, 0⟩
/-- `PZ_MB_CTL.SECMASK` (Table 10.17). -/
abbrev PzR.MB_CTL_SECMASK : Fld := ⟨0x60000, 31, 16⟩
/-- `PZ_MB_CTL.WRDROP` (Table 10.17). -/
abbrev PzR.MB_CTL_WRDROP : Fld := ⟨0x60000, 15, 8⟩
/-- `PZ_MB_RBASE_LO.ADDR` (Table 10.18). -/
abbrev PzR.MB_RBASE_LO_ADDR : Fld := ⟨0x60004, 31, 12⟩
/-- `PZ_MB_RBASE_HI.ADDR` (Table 10.18). -/
abbrev PzR.MB_RBASE_HI_ADDR : Fld := ⟨0x60008, 31, 0⟩
/-- `PZ_MB_RSIZE.ENTRIES` (Table 10.18). -/
abbrev PzR.MB_RSIZE_ENTRIES : Fld := ⟨0x6000C, 15, 0⟩
/-- `PZ_MB_RPTR.WR` (Table 10.18). -/
abbrev PzR.MB_RPTR_WR : Fld := ⟨0x60010, 31, 16⟩
/-- `PZ_MB_RPTR.RD` (Table 10.18). -/
abbrev PzR.MB_RPTR_RD : Fld := ⟨0x60010, 15, 0⟩
/-- `PZ_MB_SECTYPE.MASK` (R384). -/
abbrev PzR.MB_SECTYPE_MASK : Fld := ⟨0x60014, 31, 0⟩
/-- `PZ_VD_CTL.PRIME` (Table 13.8). -/
abbrev PzR.VD_CTL_PRIME : Fld := ⟨0x70000, 31, 16⟩
/-- `PZ_VD_CTL.COHORT_MIN` (Table 13.8). -/
abbrev PzR.VD_CTL_COHORT_MIN : Fld := ⟨0x70000, 15, 8⟩
/-- `PZ_VD_CTL.QMIN` (Table 13.8). -/
abbrev PzR.VD_CTL_QMIN : Fld := ⟨0x70000, 7, 0⟩
/-- `PZ_VD_LIVE.LATE_N` (Table 13.9). -/
abbrev PzR.VD_LIVE_LATE_N : Fld := ⟨0x70004, 31, 24⟩
/-- `PZ_VD_LIVE.LATE_MS` (Table 13.9). -/
abbrev PzR.VD_LIVE_LATE_MS : Fld := ⟨0x70004, 23, 16⟩
/-- `PZ_VD_LIVE.PROBE_MS` (Table 13.9). -/
abbrev PzR.VD_LIVE_PROBE_MS : Fld := ⟨0x70004, 15, 8⟩
/-- `PZ_VD_LIVE.MUTE_MS` (Table 13.9). -/
abbrev PzR.VD_LIVE_MUTE_MS : Fld := ⟨0x70004, 7, 0⟩
/-- `PZ_VD_STAT.UNPRIMED` (Table 13.10). -/
abbrev PzR.VD_STAT_UNPRIMED : Fld := ⟨0x70008, 31, 16⟩
/-- `PZ_VD_STAT.BASEMIS` (Table 13.10). -/
abbrev PzR.VD_STAT_BASEMIS : Fld := ⟨0x70008, 15, 0⟩
/-- `PZ_VD_DROP.RDROP` (Table 13.10). -/
abbrev PzR.VD_DROP_RDROP : Fld := ⟨0x7000C, 31, 16⟩
/-- `PZ_VD_DROP.PROGDROP` (Table 13.10). -/
abbrev PzR.VD_DROP_PROGDROP : Fld := ⟨0x7000C, 15, 0⟩
/-- `PZ_VD_COUNT0.LIVE` (Table 13.11). -/
abbrev PzR.VD_COUNT0_LIVE : Fld := ⟨0x70010, 31, 16⟩
/-- `PZ_VD_COUNT0.LATE` (Table 13.11). -/
abbrev PzR.VD_COUNT0_LATE : Fld := ⟨0x70010, 15, 0⟩
/-- `PZ_VD_COUNT1.MUTE` (Table 13.11). -/
abbrev PzR.VD_COUNT1_MUTE : Fld := ⟨0x70014, 31, 16⟩
/-- `PZ_VD_COUNT1.FENCED` (Table 13.11). -/
abbrev PzR.VD_COUNT1_FENCED : Fld := ⟨0x70014, 15, 0⟩
/-- `PZ_VD_DISAG.DISAG` (Table 13.11). -/
abbrev PzR.VD_DISAG_DISAG : Fld := ⟨0x70018, 15, 0⟩
/-- `PZ_VD_PRIOR_LO.ADDR` (Table 13.12). -/
abbrev PzR.VD_PRIOR_LO_ADDR : Fld := ⟨0x70020, 31, 0⟩
/-- `PZ_VD_PRIOR_HI.ADDR` (Table 13.12). -/
abbrev PzR.VD_PRIOR_HI_ADDR : Fld := ⟨0x70024, 31, 0⟩
/-- `PZ_VD_RBASE_LO.ADDR` (Table 13.13). -/
abbrev PzR.VD_RBASE_LO_ADDR : Fld := ⟨0x70030, 31, 12⟩
/-- `PZ_VD_RBASE_HI.ADDR` (Table 13.13). -/
abbrev PzR.VD_RBASE_HI_ADDR : Fld := ⟨0x70034, 31, 0⟩
/-- `PZ_VD_RSIZE.UNITS` (Table 13.13). -/
abbrev PzR.VD_RSIZE_UNITS : Fld := ⟨0x70038, 15, 0⟩
/-- `PZ_VD_RPTR.WR` (Table 13.13). -/
abbrev PzR.VD_RPTR_WR : Fld := ⟨0x7003C, 31, 16⟩
/-- `PZ_VD_RPTR.RD` (Table 13.13). -/
abbrev PzR.VD_RPTR_RD : Fld := ⟨0x7003C, 15, 0⟩
/-- `PZ_CF_CTL.LEAD` (Table 14.14). -/
abbrev PzR.CF_CTL_LEAD : Fld := ⟨0x80000, 31, 16⟩
/-- `PZ_CF_CTL.PREP_TO` (Table 14.14). -/
abbrev PzR.CF_CTL_PREP_TO : Fld := ⟨0x80000, 15, 8⟩
/-- `PZ_CF_CTL.RETURN` (Table 14.14). -/
abbrev PzR.CF_CTL_RETURN : Fld := ⟨0x80000, 7, 7⟩
/-- `PZ_CF_STAT.PATH` (Table 14.15). -/
abbrev PzR.CF_STAT_PATH : Fld := ⟨0x80004, 31, 30⟩
/-- `PZ_CF_STAT.PREP` (Table 14.15). -/
abbrev PzR.CF_STAT_PREP : Fld := ⟨0x80004, 29, 29⟩
/-- `PZ_CF_STAT.LAST_CFG` (Table 14.15). -/
abbrev PzR.CF_STAT_LAST_CFG : Fld := ⟨0x80004, 15, 0⟩
/-- `PZ_CF_PARENT.VALUE` (Table 14.16). -/
abbrev PzR.CF_PARENT_VALUE : Fld := ⟨0x80008, 31, 0⟩
/-- `PZ_CF_LEASE.VALUE` (Table 14.16). -/
abbrev PzR.CF_LEASE_VALUE : Fld := ⟨0x8000C, 31, 0⟩
/-- `PZ_CF_LEFT.GRANTED` (Table 14.16). -/
abbrev PzR.CF_LEFT_GRANTED : Fld := ⟨0x80010, 31, 16⟩
/-- `PZ_CF_LEFT.LEFT` (Table 14.16). -/
abbrev PzR.CF_LEFT_LEFT : Fld := ⟨0x80010, 15, 0⟩
/-- `PZ_CF_CNT.REPARENTS` (Table 14.17). -/
abbrev PzR.CF_CNT_REPARENTS : Fld := ⟨0x80014, 31, 16⟩
/-- `PZ_CF_CNT.MISSING` (Table 14.17). -/
abbrev PzR.CF_CNT_MISSING : Fld := ⟨0x80014, 15, 0⟩
/-- `PZ_PS_FLEET.FLEET_ID` (Table 15.13). -/
abbrev PzR.PS_FLEET_FLEET_ID : Fld := ⟨0x90000, 31, 0⟩
/-- `PZ_PS_STAT.LAST_RES` (Table 15.13). -/
abbrev PzR.PS_STAT_LAST_RES : Fld := ⟨0x90004, 31, 29⟩
/-- `PZ_PS_STAT.KSLOT` (Table 15.13). -/
abbrev PzR.PS_STAT_KSLOT : Fld := ⟨0x90004, 28, 27⟩
/-- `PZ_PS_STAT.WORNPG` (Table 15.13). -/
abbrev PzR.PS_STAT_WORNPG : Fld := ⟨0x90004, 26, 17⟩
/-- `PZ_PS_CTL.SAVE` (Table 15.13). -/
abbrev PzR.PS_CTL_SAVE : Fld := ⟨0x90008, 31, 31⟩
/-- `PZ_PS_CTL.SAVEMIN` (Table 15.13). -/
abbrev PzR.PS_CTL_SAVEMIN : Fld := ⟨0x90008, 15, 0⟩
/-- `PZ_PS_KSEQ_LO.SEQ` (Table 15.13). -/
abbrev PzR.PS_KSEQ_LO_SEQ : Fld := ⟨0x9000C, 31, 0⟩
/-- `PZ_PS_KSEQ_HI.SEQ` (Table 15.13). -/
abbrev PzR.PS_KSEQ_HI_SEQ : Fld := ⟨0x90010, 31, 0⟩
/-- `PZ_PS_TALLY.N` (Table 15.13). -/
abbrev PzR.PS_TALLY_N : Fld := ⟨0x90014, 31, 28⟩
/-- `PZ_PS_TALLY.WIN` (Table 15.13). -/
abbrev PzR.PS_TALLY_WIN : Fld := ⟨0x90014, 27, 16⟩
/-- `PZ_PS_OOSCLR.FLEET_ID` (Table 15.13). -/
abbrev PzR.PS_OOSCLR_FLEET_ID : Fld := ⟨0x90018, 31, 0⟩
/-- `PZ_PS_PAGE.PAGE` (Table 15.13). -/
abbrev PzR.PS_PAGE_PAGE : Fld := ⟨0x9001C, 9, 0⟩
/-- `PZ_PS_WEAR.WEAR` (Table 15.13). -/
abbrev PzR.PS_WEAR_WEAR : Fld := ⟨0x90020, 31, 0⟩
/-- `PZ_PS_EPBASE_LO.INK` (Table 15.13). -/
abbrev PzR.PS_EPBASE_LO_INK : Fld := ⟨0x90024, 31, 0⟩
/-- `PZ_PS_EPBASE_HI.CFG` (Table 15.13). -/
abbrev PzR.PS_EPBASE_HI_CFG : Fld := ⟨0x90028, 15, 0⟩
/-- `PZ_PS_VIEW.DATA` (Table 15.13). -/
abbrev PzR.PS_VIEW_DATA : Fld := ⟨0x91000, 31, 0⟩
/-- `PZ_IW_CTL.NEXT` (Table 15.10). -/
abbrev PzR.IW_CTL_NEXT : Fld := ⟨0xA0000, 30, 30⟩
/-- `PZ_IW_CTL.REC` (Table 15.10). -/
abbrev PzR.IW_CTL_REC : Fld := ⟨0xA0000, 27, 24⟩
/-- `PZ_IW_CTL.DTAG` (Table 15.10). -/
abbrev PzR.IW_CTL_DTAG : Fld := ⟨0xA0000, 23, 0⟩
/-- `PZ_IW_CURSOR.SEQ` (Table 15.11). -/
abbrev PzR.IW_CURSOR_SEQ : Fld := ⟨0xA0004, 31, 0⟩
/-- `PZ_IW_STAT.RES` (Table 15.11). -/
abbrev PzR.IW_STAT_RES : Fld := ⟨0xA0008, 31, 30⟩
/-- `PZ_IW_STAT.DBUSY` (Table 15.11). -/
abbrev PzR.IW_STAT_DBUSY : Fld := ⟨0xA0008, 29, 29⟩
/-- `PZ_IW_STAT.DQUEUE` (Table 15.11). -/
abbrev PzR.IW_STAT_DQUEUE : Fld := ⟨0xA0008, 28, 26⟩
/-- `PZ_IW_STAT.DREFUSED` (Table 15.11). -/
abbrev PzR.IW_STAT_DREFUSED : Fld := ⟨0xA0008, 25, 25⟩
/-- `PZ_IW_STAT.TORN` (Table 15.11). -/
abbrev PzR.IW_STAT_TORN : Fld := ⟨0xA0008, 24, 24⟩
/-- `PZ_IW_STAT.UNITS` (Table 15.11). -/
abbrev PzR.IW_STAT_UNITS : Fld := ⟨0xA0008, 7, 0⟩
/-- `PZ_IW_OLDEST.SEQ` (Table 15.11). -/
abbrev PzR.IW_OLDEST_SEQ : Fld := ⟨0xA0010, 31, 0⟩
/-- `PZ_IW_NEXT.SEQ` (Table 15.11). -/
abbrev PzR.IW_NEXT_SEQ : Fld := ⟨0xA0014, 31, 0⟩
/-- `PZ_IW_DSIZE.MIB` (Table 15.11). -/
abbrev PzR.IW_DSIZE_MIB : Fld := ⟨0xA0080, 15, 0⟩
/-- `PZ_IW_WINDOW.DATA` (R345). -/
abbrev PzR.IW_WINDOW_DATA : Fld := ⟨0xA1000, 31, 0⟩
/-- `PZ_SN_CTL.EN` (Table 15.14). -/
abbrev PzR.SN_CTL_EN : Fld := ⟨0xB0000, 31, 31⟩
/-- `PZ_SN_CTL.LEAFWAIT` (Table 15.14). -/
abbrev PzR.SN_CTL_LEAFWAIT : Fld := ⟨0xB0000, 23, 16⟩
/-- `PZ_SN_CTL.RATE` (Table 15.14). -/
abbrev PzR.SN_CTL_RATE : Fld := ⟨0xB0000, 15, 0⟩
/-- `PZ_SN_STAT.STATE` (Table 15.14). -/
abbrev PzR.SN_STAT_STATE : Fld := ⟨0xB0004, 31, 29⟩
/-- `PZ_SN_STAT.RFAIL` (Table 15.14). -/
abbrev PzR.SN_STAT_RFAIL : Fld := ⟨0xB0004, 28, 28⟩
/-- `PZ_SN_STAT.RERR` (Table 15.14). -/
abbrev PzR.SN_STAT_RERR : Fld := ⟨0xB0004, 27, 24⟩
/-- `PZ_SN_STAT.SKIPPED` (Table 15.14). -/
abbrev PzR.SN_STAT_SKIPPED : Fld := ⟨0xB0004, 23, 16⟩
/-- `PZ_SN_STAT.LEAVES` (Table 15.14). -/
abbrev PzR.SN_STAT_LEAVES : Fld := ⟨0xB0004, 15, 0⟩
/-- `PZ_SN_SEQ_LO.SEQ` (Table 15.14). -/
abbrev PzR.SN_SEQ_LO_SEQ : Fld := ⟨0xB0008, 31, 0⟩
/-- `PZ_SN_SEQ_HI.SEQ` (Table 15.14). -/
abbrev PzR.SN_SEQ_HI_SEQ : Fld := ⟨0xB000C, 31, 0⟩
/-- `PZ_SN_DBASE_LO.ADDR` (Table 15.14). -/
abbrev PzR.SN_DBASE_LO_ADDR : Fld := ⟨0xB0010, 31, 0⟩
/-- `PZ_SN_DBASE_HI.ADDR` (Table 15.14). -/
abbrev PzR.SN_DBASE_HI_ADDR : Fld := ⟨0xB0014, 31, 0⟩
/-- `PZ_SN_HA_LO.ADDR` (Table 15.14). -/
abbrev PzR.SN_HA_LO_ADDR : Fld := ⟨0xB0018, 31, 0⟩
/-- `PZ_SN_HA_HI.ADDR` (Table 15.14). -/
abbrev PzR.SN_HA_HI_ADDR : Fld := ⟨0xB001C, 31, 0⟩
/-- `PZ_SN_HB_LO.ADDR` (Table 15.14). -/
abbrev PzR.SN_HB_LO_ADDR : Fld := ⟨0xB0020, 31, 0⟩
/-- `PZ_SN_HB_HI.ADDR` (Table 15.14). -/
abbrev PzR.SN_HB_HI_ADDR : Fld := ⟨0xB0024, 31, 0⟩
/-- `PZ_SN_RESTORE.GO` (Table 15.14). -/
abbrev PzR.SN_RESTORE_GO : Fld := ⟨0xB002C, 31, 31⟩
/-- `PZ_SN_RESTORE.CFG_EP` (Table 15.14). -/
abbrev PzR.SN_RESTORE_CFG_EP : Fld := ⟨0xB002C, 15, 0⟩
/-- `PZ_SN_DRAHEAD.COUNT` (Table 15.14). -/
abbrev PzR.SN_DRAHEAD_COUNT : Fld := ⟨0xB0030, 31, 0⟩
/-- `PZ_SN_RANGE_A.BASE` (Table 15.15). -/
abbrev PzR.SN_RANGE_A_BASE : Fld := ⟨0xB0100, 21, 0⟩
/-- `PZ_SN_RANGE_B.JOB_TAG` (Table 15.15). -/
abbrev PzR.SN_RANGE_B_JOB_TAG : Fld := ⟨0xB0104, 31, 8⟩
/-- `PZ_SN_RANGE_C.SIZE` (Table 15.15). -/
abbrev PzR.SN_RANGE_C_SIZE : Fld := ⟨0xB0108, 19, 0⟩
/-- `PZ_MSIX_TBL.WORD` (Table 16.11). -/
abbrev PzR.MSIX_TBL_WORD : Fld := ⟨0xC0000, 31, 0⟩
/-- `PZ_MSIX_CTL.MASKED` (Table 16.11). -/
abbrev PzR.MSIX_CTL_MASKED : Fld := ⟨0xC000C, 0, 0⟩
/-- `PZ_MSIX_PBA.PBA` (Table 16.11). -/
abbrev PzR.MSIX_PBA_PBA : Fld := ⟨0xC0800, 7, 0⟩
/-- `PZ_AL_RBASE_LO.ADDR` (Table 16.11). -/
abbrev PzR.AL_RBASE_LO_ADDR : Fld := ⟨0xC1000, 31, 12⟩
/-- `PZ_AL_RBASE_HI.ADDR` (Table 16.11). -/
abbrev PzR.AL_RBASE_HI_ADDR : Fld := ⟨0xC1004, 31, 0⟩
/-- `PZ_AL_RSIZE.ENTRIES` (Table 16.11). -/
abbrev PzR.AL_RSIZE_ENTRIES : Fld := ⟨0xC1008, 15, 0⟩
/-- `PZ_AL_RPTR.WR` (Table 16.11). -/
abbrev PzR.AL_RPTR_WR : Fld := ⟨0xC100C, 31, 16⟩
/-- `PZ_AL_RPTR.RD` (Table 16.11). -/
abbrev PzR.AL_RPTR_RD : Fld := ⟨0xC100C, 15, 0⟩
/-- `PZ_AL_STAT.DROP` (Table 16.11). -/
abbrev PzR.AL_STAT_DROP : Fld := ⟨0xC1010, 31, 16⟩
/-- `PZ_AL_STAT.QLVL` (Table 16.11). -/
abbrev PzR.AL_STAT_QLVL : Fld := ⟨0xC1010, 8, 0⟩
/-- `PZ_IRQ_HOLD.H3` (Table 16.11). -/
abbrev PzR.IRQ_HOLD_H3 : Fld := ⟨0xC1020, 23, 16⟩
/-- `PZ_IRQ_HOLD.H2` (Table 16.11). -/
abbrev PzR.IRQ_HOLD_H2 : Fld := ⟨0xC1020, 15, 8⟩
/-- `PZ_IRQ_HOLD.H1` (Table 16.11). -/
abbrev PzR.IRQ_HOLD_H1 : Fld := ⟨0xC1020, 7, 0⟩
/-- `PZ_SEC_BLK.SEC` (Table 16.12). -/
abbrev PzR.SEC_BLK_SEC : Fld := ⟨0xD0000, 13, 13⟩
/-- `PZ_SEC_BLK.BLK` (Table 16.12). -/
abbrev PzR.SEC_BLK_BLK : Fld := ⟨0xD0000, 12, 1⟩
/-- `PZ_SEC_BLK.IDENT` (Table 16.12). -/
abbrev PzR.SEC_BLK_IDENT : Fld := ⟨0xD0000, 0, 0⟩
/-- `PZ_SEC_VIEW.ALIAS_OFF` (Table 16.12). -/
abbrev PzR.SEC_VIEW_ALIAS_OFF : Fld := ⟨0xD0004, 0, 0⟩
/-- `PZ_SEC_RGN_BASE.BASE` (Table 16.12). -/
abbrev PzR.SEC_RGN_BASE_BASE : Fld := ⟨0xD0100, 31, 0⟩
/-- `PZ_SEC_RGN_SIZE.SIZE` (Table 16.12). -/
abbrev PzR.SEC_RGN_SIZE_SIZE : Fld := ⟨0xD0104, 31, 0⟩
/-- `PZ_SEC_VIOL.COUNT` (Table 16.12). -/
abbrev PzR.SEC_VIOL_COUNT : Fld := ⟨0xD0200, 15, 0⟩

end Sys2Proof.Machine
end

