-- ==== Sys2Proof/Machine/Ops.lean ====
section
/-!
DEFINITION. Sys2Proof/Machine/Ops.lean: the named operations over sparse tables, registers and bit fields that every
meaning uses.
-/

namespace Sys2Proof.Machine

/-! ## Sparse tables -/

/-- What the table lists at a key. -/
def tblLookup {α : Type} : Tbl α → Nat → Option α
  | [], _ => none
  | (k', v) :: t, k => if k = k' then some v else tblLookup t k

/-- The table without a key. -/
def tblDel {α : Type} (t : Tbl α) (k : Nat) : Tbl α := t.filter (fun p => p.1 != k)

/-- The table with a pair put in at its place by key. -/
def tblIns {α : Type} : Tbl α → Nat → α → Tbl α
  | [], k, v => [(k, v)]
  | (k', w) :: t, k, v =>
    if k < k' then (k, v) :: (k', w) :: t
    else if k = k' then (k, v) :: t
    else (k', w) :: tblIns t k v

/-- A write: a value that an unlisted key reads as removes the pair. The table is looked at first, so that a write to a
table that is not known does not unfold the value. -/
def tblPut {α : Type} [DecidableEq α] (d : α) (t : Tbl α) (k : Nat) (v : α) : Tbl α :=
  match t with
  | [] => if v = d then [] else [(k, v)]
  | p :: t => if v = d then tblDel (p :: t) k else tblIns (p :: t) k v

/-- A read of a table whose unlisted keys read as the type's default. -/
def tget {α : Type} [Inhabited α] (t : Tbl α) (k : Nat) : α := (tblLookup t k).getD default

/-- A write of a table whose unlisted keys read as the type's default. -/
def tput {α : Type} [Inhabited α] [DecidableEq α] (t : Tbl α) (k : Nat) (v : α) : Tbl α := tblPut default t k v

/-- A change of one entry. -/
def tmod {α : Type} [Inhabited α] [DecidableEq α] (t : Tbl α) (k : Nat) (f : α → α) : Tbl α :=
  tput t k (f (tget t k))

/-- The canonical form: keys strictly rising, no entry equal to what its unlisted key reads as. -/
def Tbl.wf {α : Type} [DecidableEq α] (d : Nat → α) : Tbl α → Bool
  | [] => true
  | (k, v) :: t => t.all (fun p => decide (k < p.1)) && !decide (v = d k) && Tbl.wf d t

/-- The canonical form of memory: addresses strictly rising, no listed byte zero, which is what an unlisted address reads
as (assumption log 7). -/
def Memory.wf (m : List Host.Cell) : Bool := Tbl.wf (fun _ => (0 : Byte)) m

/-! ## Bits, bytes and serial numbers -/

/-- Bits `hi` to `lo` of a number. -/
def bits (w hi lo : Nat) : Nat := (w >>> lo) % 2 ^ (hi + 1 - lo)

/-- The number with bits `hi` to `lo` replaced. -/
def setBits (w hi lo v : Nat) : Nat :=
  w - 2 ^ lo * bits w hi lo + 2 ^ lo * (v % 2 ^ (hi + 1 - lo))

/-- Bit `i` of a number. -/
def bit (w i : Nat) : Bool := w.testBit i

/-- One for true. -/
def b2n (b : Bool) : Nat := if b then 1 else 0

/-- `n` steps of a function. -/
def iter {α : Type} (f : α → α) : Nat → α → α
  | 0, x => x
  | n + 1, x => iter f n (f x)

/-- The `n` low bytes of a number, least significant first (R10). -/
def leB : Nat → Nat → List Byte
  | 0, _ => []
  | n + 1, v => BitVec.ofNat 8 v :: leB n (v / 256)

/-- The number that bytes spell, least significant first (R10). -/
def ofLe : List Byte → Nat
  | [] => 0
  | b :: bs => b.toNat + 256 * ofLe bs

/-- Bytes with zeros up to a multiple of `n`. -/
def padTo (n : Nat) (bs : List Byte) : List Byte :=
  bs ++ List.replicate ((n - bs.length % n) % n) 0

/-- `n` bytes of a list from an offset, zeros beyond its end. -/
def slice (bs : List Byte) (off n : Nat) : List Byte :=
  let xs := (bs.drop off).take n
  xs ++ List.replicate (n - xs.length) 0

/-- A number read at an offset, least significant byte first. -/
def leAt (bs : List Byte) (off n : Nat) : Nat := ofLe (slice bs off n)

/-- A list cut into runs of `n`, at most `fuel` of them. -/
def chunks {α : Type} (n : Nat) : Nat → List α → List (List α)
  | 0, _ => []
  | fuel + 1, xs => if xs.isEmpty then [] else xs.take n :: chunks n fuel (xs.drop n)

/-- Whether Inkline epoch `a` is later than `b` (R25); the half range itself is neither earlier nor later. -/
def laterInk (a b : Word) : Bool := decide (1 ≤ (a - b).toNat ∧ (a - b).toNat ≤ 2 ^ 31 - 1)

/-- Whether config epoch `a` is later than `b` (R25). -/
def laterCfg (a b : BitVec 16) : Bool := decide (1 ≤ (a - b).toNat ∧ (a - b).toNat ≤ 2 ^ 15 - 1)

/-- The signed value of an `n`-bit number. -/
def sgn (n v : Nat) : Int := if v % 2 ^ n < 2 ^ (n - 1) then (v % 2 ^ n : Nat) else ((v % 2 ^ n : Nat) : Int) - 2 ^ n

/-- The `n`-bit two's complement of an integer. -/
def unsgn (n : Nat) (v : Int) : Nat := (v % (2 ^ n : Nat)).toNat

/-- An integer held between two limits. -/
def clampI (lo hi v : Int) : Int := if v < lo then lo else if hi < v then hi else v

/-- An entry put before the first entry of a list that it does not exceed. -/
def putUp {α : Type} (le : α → α → Bool) (a : α) : List α → List α
  | [] => [a]
  | b :: bs => if le a b then a :: b :: bs else b :: putUp le a bs

/-- A list in rising order. -/
def sortUp {α : Type} (le : α → α → Bool) (xs : List α) : List α := xs.foldr (putUp le) []

/-- The middle of a list of integers in rising order, the lower one of two (DEDUCED, assumption log 10). -/
def median (xs : List Int) : Int :=
  let ys := sortUp (fun a b => decide (a ≤ b)) xs
  ys.getD ((ys.length - 1) / 2) 0

/-! ## Check codes -/

/-- One byte of the CRC-16 of R133, most significant bit first. -/
def crc16Byte (c b : Nat) : Nat :=
  iter (fun c => if bit c 15 then ((c <<< 1) ^^^ 0x1021) % 65536 else (c <<< 1) % 65536) 8 (c ^^^ (b <<< 8))

/-- CRC-16, polynomial 0x1021, initial value 0xFFFF (R133). -/
def crc16 (bs : List Byte) : Nat := bs.foldl (fun c b => crc16Byte c b.toNat) 0xFFFF

/-- CRC-8, polynomial 0x07, initial value 0 (R347). -/
def crc8 (bs : List Byte) : Nat :=
  bs.foldl (fun c b => iter (fun c => if bit c 7 then ((c <<< 1) ^^^ 0x07) % 256 else (c <<< 1) % 256) 8
    (c ^^^ b.toNat)) 0

/-- CRC-32C: reflected polynomial 0x82F63B78, initial value and final XOR all ones. -/
def crc32c (bs : List Byte) : Nat :=
  (bs.foldl (fun c b => iter (fun c => if bit c 0 then (c >>> 1) ^^^ 0x82F63B78 else c >>> 1) 8
    (c ^^^ b.toNat)) 0xFFFFFFFF) ^^^ 0xFFFFFFFF

/-! ## Leaf registers: one home per field -/

/-- The word a leaf register holds: listed, or its reset value. -/
def Leaf.reg (l : Leaf) (off : Nat) : Word := (tblLookup l.regs off).getD (glReset off)

/-- The leaf with a register word set. -/
def Leaf.setReg (l : Leaf) (off : Nat) (w : Word) : Leaf :=
  { l with regs := tblPut (glReset off) l.regs off w }

/-- A field of a leaf register. -/
def Leaf.fld (l : Leaf) (f : Fld) : Nat := bits (l.reg f.off).toNat f.hi f.lo

/-- Whether a field of a leaf register is not zero. -/
def Leaf.flag (l : Leaf) (f : Fld) : Bool := l.fld f != 0

/-- The leaf with a field set. -/
def Leaf.setFld (l : Leaf) (f : Fld) (v : Nat) : Leaf :=
  l.setReg f.off (BitVec.ofNat 32 (setBits (l.reg f.off).toNat f.hi f.lo v))

/-- The leaf with a field raised by `n`, held at its largest value. -/
def Leaf.addSat (l : Leaf) (f : Fld) (n : Nat) : Leaf :=
  l.setFld f (min (l.fld f + n) (2 ^ (f.hi + 1 - f.lo) - 1))

/-- The leaf with a field raised by `n`, modulo its width. -/
def Leaf.addMod (l : Leaf) (f : Fld) (n : Nat) : Leaf := l.setFld f (l.fld f + n)

/-! ## Polornaz registers -/

/-- The word a Polornaz register holds: listed, or its reset value. -/
def Pz.reg (z : Pz) (off : Nat) : Word := (tblLookup z.regs off).getD (pzReset off)

/-- Polornaz with a register word set. -/
def Pz.setReg (z : Pz) (off : Nat) (w : Word) : Pz :=
  { z with regs := tblPut (pzReset off) z.regs off w }

/-- A field of a Polornaz register. -/
def Pz.fld (z : Pz) (f : Fld) : Nat := bits (z.reg f.off).toNat f.hi f.lo

/-- Whether a field of a Polornaz register is not zero. -/
def Pz.flag (z : Pz) (f : Fld) : Bool := z.fld f != 0

/-- Polornaz with a field set. -/
def Pz.setFld (z : Pz) (f : Fld) (v : Nat) : Pz :=
  z.setReg f.off (BitVec.ofNat 32 (setBits (z.reg f.off).toNat f.hi f.lo v))

/-- Polornaz with a field raised by `n`, held at its largest value. -/
def Pz.addSat (z : Pz) (f : Fld) (n : Nat) : Pz :=
  z.setFld f (min (z.fld f + n) (2 ^ (f.hi + 1 - f.lo) - 1))

/-- Polornaz with a field raised by `n`, modulo its width. -/
def Pz.addMod (z : Pz) (f : Fld) (n : Nat) : Pz := z.setFld f (z.fld f + n)

/-! ## The two parts within the state -/

/-- The state with a function applied to its leaf. -/
def State.onLeaf (f : Leaf → Leaf) (s : State) : State := { s with leaf := f s.leaf }

/-- The state with a function applied to its Polornaz. -/
def State.onPz (f : Pz → Pz) (s : State) : State := { s with pz := f s.pz }

/-- A function applied only when a condition holds. -/
def onlyIf {α : Type} (c : Bool) (f : α → α) (x : α) : α := if c then f x else x

end Sys2Proof.Machine
end

