-- ==== Sys2Proof/Machine/Operands.lean ====
section
/-!
DEFINITION. Sys2Proof/Machine/Operands.lean: the forms operands take: register accesses and who may make them
(R12, R13, R17, R55, R377 to R380), cells and their check code, and the byte layouts of messages.
-/

namespace Sys2Proof.Machine

/-! ## Register accesses -/

/-- The block of Table 16.5 that holds a leaf offset. -/
def glBlock (off : Nat) : Nat :=
  if off < 0x400 then 0 else if off < 0x800 then 1 else if off < 0x1000 then 2 else if off < 0x2000 then 3
  else if off < 0x3000 then 4 else if off < 0x4000 then 5 else if off < 0x9000 then 6 else if off < 0xA000 then 7
  else if off < 0xB000 then 8 else if off < 0xC000 then 9 else if off < 0xD000 then 10 else if off < 0xE000 then 11
  else 7

/-- Whether a leaf offset holds a register or lies in the program window (R13). -/
def glAssigned (off : Nat) : Bool := decide (0xE000 ≤ off ∧ off < 0x10000) || (findRow glRows off).isSome

/-- A violation counted against a leaf block (R17). -/
def Leaf.violate (b : Nat) (l : Leaf) : Leaf := l.addSat (GlR.SEC_VIOL_COUNT.at (4 * b)) 1

/-- Whether a leaf block belongs to the secure world (R377). -/
def Leaf.blockSecure (l : Leaf) (b : Nat) : Bool := bit (l.reg 0x400).toNat b

/-- Whether a requester is a user requester (R380). Accesses that no requester makes are not. -/
def Leaf.isUser (l : Leaf) (p : Port) : Bool := !p.side && bit (l.reg 0x408).toNat p.src.toNat

/-- What becomes of an access before its register's own rules: admitted, without effect, or a violation. -/
inductive Verdict where
  | pass
  | silent
  | violation (b : Nat)
deriving DecidableEq, Repr

/-- Per-target register of the IRQ block that an offset names, if it does (Table 16.9). -/
def irqTargetOf (off : Nat) : Option Nat :=
  if 0xD00 ≤ off ∧ off < 0xE00 then some ((off - 0xD00) / 0x20) else none

/-- Group whose registers an offset names, if it does. -/
def groupOf (off : Nat) : Option Nat :=
  if 0x4000 ≤ off ∧ off < 0x9000 then some ((off - 0x4000) / 0x50) else none

/-- Whether a user requester may make a read at this offset (R84, R380). -/
def Leaf.userMay (l : Leaf) (off : Nat) (write : Bool) : Bool :=
  !write && (decide (off < 0x400) ||
    match groupOf off with
    | some g => l.flag (GlR.CG_CTL_USER_RD.at (0x50 * g))
    | none => false)

/-- The rules that come before a register's own: width and alignment (R12, R44), an unassigned offset (R13), READY
(R55), the world of the block (R377) and of the target (R379), the user rule (R84, R85, R380). -/
def Leaf.verdict (l : Leaf) (p : Port) (off : Nat) (write : Bool) : Verdict :=
  let b := glBlock off
  if p.size ≠ 2 ∨ off % 4 ≠ 0 then .silent
  else if !glAssigned off then .silent
  else if b ≠ 0 ∧ b ≠ 1 ∧ !l.flag GlR.IDENT_STATUS_READY then .silent
  else if p.ns && l.blockSecure b then .violation b
  else if l.isUser p && !l.userMay off write then .violation b
  else if p.ns && (match irqTargetOf off with
      | some k => l.flag (GlR.IRQ_TCTL_SEC.at (0x20 * k))
      | none => false) then .violation b
  else .pass

/-- The effect of a register access that the verdict lets through. -/
def Leaf.guarded (p : Port) (off : Nat) (write : Bool) (f : Leaf → Leaf) (l : Leaf) : Leaf :=
  match l.verdict p off write with
  | .pass => f l
  | .silent => l
  | .violation b => l.violate b

/-- A register word after a write under the access codes of Table 0.5; fields that act (WO, RWP) or that a
non-secure access may not set (SRW) keep their content. -/
def RegRow.write (r : RegRow) (ns : Bool) (old new : Nat) : Nat :=
  r.flds.foldl (fun w f =>
    match f.acc with
    | .rw => setBits w f.hi f.lo (bits new f.hi f.lo)
    | .srw => if ns then w else setBits w f.hi f.lo (bits new f.hi f.lo)
    | .w1c => setBits w f.hi f.lo (bits w f.hi f.lo - (bits w f.hi f.lo &&& bits new f.hi f.lo))
    | .ro | .wo | .rc | .rwp => w) old

/-- What a read of a register word shows: write-only fields and, to the non-secure world, SRW fields read zero. -/
def RegRow.show (r : RegRow) (ns : Bool) (w : Nat) : Nat :=
  r.flds.foldl (fun a f =>
    match f.acc with
    | .wo => a
    | .srw => if ns then a else a + bits w f.hi f.lo * 2 ^ f.lo
    | _ => a + bits w f.hi f.lo * 2 ^ f.lo) 0

/-- A register word after a read: RC fields are cleared. -/
def RegRow.afterRead (r : RegRow) (w : Nat) : Nat :=
  r.flds.foldl (fun a f => if f.acc = .rc then setBits a f.hi f.lo 0 else a) w

/-- Whether a row has an SRW field (R17). -/
def RegRow.hasSrw (r : RegRow) : Bool := r.flds.any (fun f => f.acc == .srw)

/-! ## Cells -/

/-- Header bytes 0x00 to 0x0D of a cell (Table 7.1). -/
def cellHead (c : Cell) : List Byte :=
  leB 4 c.fleet.toNat ++
  leB 4 (c.cls.toNat * 2 ^ 29 + b2n c.som * 2 ^ 28 + b2n c.eom * 2 ^ 27 + b2n c.mark * 2 ^ 26 +
    c.cidx.toNat * 2 ^ 16 + c.mseq.toNat) ++
  leB 4 c.ink.toNat ++ leB 1 c.payload.length ++ leB 1 c.ty.toNat

/-- The CCRC of a cell (Table 7.1). -/
def cellCrc (c : Cell) : Nat := crc16 (cellHead c ++ c.payload)

/-- A cell with its CCRC filled in. -/
def cellSealed (c : Cell) : Cell := { c with ccrc := BitVec.ofNat 16 (cellCrc c) }

/-- Length of a cell in bytes: header, payload, zeros to whole beats (R160). -/
def cellLen (c : Cell) : Nat := 16 + (c.payload.length + 15) / 16 * 16

/-- Message TYPE values that Table 7.2 assigns. -/
def typeAssigned (ty : Nat) : Bool := decide (1 ≤ ty ∧ ty ≤ 0x0D)

/-- Whether a receiver keeps a cell (R161): CCRC right, TYPE assigned. -/
def cellGood (c : Cell) : Bool := c.ccrc.toNat == cellCrc c && typeAssigned c.ty.toNat

/-! ## Message bodies -/

/-- Alarm payload (Table 7.3). -/
def alarmBody (code aseq dtime pos : Nat) (relay untimed : Bool) : List Byte :=
  leB 2 code ++ leB 2 aseq ++ leB 8 dtime ++ leB 1 pos ++ leB 1 (b2n relay + 2 * b2n untimed) ++ leB 2 0

/-- KIND as a number (Table 6.2). -/
def kindNum (k : Kind) : Nat := b2n k.stop + 2 * b2n k.ckpt + 4 * b2n k.commit

/-- KIND from its bits. -/
def kindOf (n : Nat) : Kind := ⟨bit n 0, bit n 1, bit n 2⟩

/-- Body of an acknowledgement (Table 14.4). -/
def ackBody (cseq status op detail cfg sender missing ready : Nat) (list : List Byte) : List Byte :=
  leB 1 op ++ leB 1 status ++ leB 2 cseq ++ leB 2 cfg ++ leB 2 detail ++ leB 4 sender ++ leB 2 ready ++
  leB 2 missing ++ list

/-- Header and body of a configuration message (Table 14.2). -/
def cfgBody (tag op cseq cfg sender arg0 arg1 : Nat) (body : List Byte) : List Byte :=
  leB 1 op ++ leB 3 tag ++ leB 2 cfg ++ leB 2 cseq ++ leB 4 sender ++ leB 4 arg0 ++ leB 4 arg1 ++ body

/-- One entry of a registration payload (Table 14.12). -/
def regEntry (fleet ink flags servo pos cfg tag version : Nat) : List Byte :=
  leB 4 fleet ++ leB 4 ink ++ leB 4 (flags * 2 ^ 25 + servo * 2 ^ 22 + pos * 2 ^ 16 + cfg) ++ leB 1 version ++
  leB 3 tag

/-- Registration payload (Table 14.12). -/
def regBody (effMinor cause rkind : Nat) (entries : List (List Byte)) : List Byte :=
  leB 1 rkind ++ leB 1 (entries.length + cause * 16) ++ leB 2 effMinor ++ entries.flatten

/-- A wave's payload: bytes 1 up to and including the status byte (Table 6.2, R144). -/
def waveBytes (m : WaveMsg) : List Byte :=
  leB 4 m.tstamp.toNat ++ leB 4 m.epoch.toNat ++ leB 2 m.cfg.toNat ++ leB 1 m.recs.length ++ leB 8 m.mask.toNat ++
  [m.exCfg, m.exTime, m.exEp] ++
  (m.recs.map (fun r => leB 2 r.count.toNat ++ leB 6 r.sum.toNat ++ leB 4 r.kmin.toNat ++ leB 4 r.kmax.toNat)).flatten ++
  leB 1 (b2n m.bad + 2 * b2n m.drop)

/-- Header of a verdict or advisory record (Table 13.5): `units` counts 64-byte units, header included. -/
def recHead (adv dev : Bool) (origin units src tag : Nat) (phase mixed : Bool) (basis : Nat) (prov : Bool)
    (cfg time old rseq : Nat) : List Byte :=
  leB 4 (0x01000000 + b2n adv * 2 ^ 23 + b2n dev * 2 ^ 22 + origin * 2 ^ 16 + units) ++ leB 4 src ++
  leB 4 (tag * 256 + b2n phase * 128 + b2n mixed * 64 + basis * 16 + b2n prov * 8) ++ leB 4 (cfg * 2 ^ 16) ++
  leB 8 time ++ leB 4 old ++ leB 4 rseq

/-- Body prefix of a device record (Table 13.6). -/
def recPrefix (kind len subject ep model : Nat) : List Byte :=
  leB 4 (kind * 2 ^ 16 + len) ++ leB 4 subject ++ leB 8 0 ++ leB 4 ep ++ leB 4 model ++ leB 8 0

/-- 64-byte units of a record with a body. -/
def recUnits (body : List Byte) : Nat := (32 + body.length + 63) / 64

end Sys2Proof.Machine
end

