-- ==== Sys2Proof/Machine/Irq.lean ====
section
/-!
DEFINITION. Sys2Proof/Machine/Irq.lean: the leaf's interrupt sources, routing, claim and end of interrupt
(R365 to R374, R377, R379).
-/

namespace Sys2Proof.Machine

/-- The block that owns an interrupt source (Table 16.1, R377). -/
def srcBlock (src : Nat) : Nat :=
  if src < 272 then 6 else if src < 276 then 8 else if src < 292 then 11 else if src < 300 then 7
  else if src < 306 then 3 else if src < 312 then 4 else if src < 316 then 5 else if src < 318 then 9
  else if src < 319 then 10 else 5

/-- Whether an interrupt source is reserved: it never counts (R365, Table 19.6). -/
def srcReserved (src : Nat) : Bool := decide (319 ≤ src ∧ src < 448 ∨ 452 ≤ src ∧ src < 480 ∨ 512 ≤ src)

/-- An event of a source: its counter gains one, saturating at 255 (R365). -/
def Leaf.event (src : Nat) (l : Leaf) : Leaf :=
  if srcReserved src then l
  else { l with irq := { l.irq with cnt := tmod l.irq.cnt src (fun n => min (n + 1) 255) } }

/-- A W1C or status bit sets and its source counts. -/
def Leaf.setEvent (f : Fld) (src : Nat) (l : Leaf) : Leaf := (l.setFld f 1).event src

/-- Target mask of a source (R368). -/
def Leaf.routeOf (l : Leaf) (src : Nat) : Nat :=
  bits (l.reg (0xA40 + 4 * (src / 4))).toNat (8 * (src % 4) + 7) (8 * (src % 4))

/-- Priority of an alarm-class source (Table 16.8). -/
def Leaf.priOf (l : Leaf) (src : Nat) : Nat :=
  bits (l.reg (0xC40 + 4 * ((src - 448) / 8))).toNat (4 * ((src - 448) % 8) + 2) (4 * ((src - 448) % 8))

/-- Whether the world rule of R377 lets a target claim a source. -/
def Leaf.mayClaim (l : Leaf) (k src : Nat) : Bool :=
  !l.blockSecure (srcBlock src) || l.flag (GlR.IRQ_TCTL_SEC.at (0x20 * k))

/-- Whether some target holds a source in service (R368). -/
def Leaf.inService (l : Leaf) (src : Nat) : Bool :=
  l.irq.targets.any (fun t => t.2.stack.any (fun e => e.1 == src) || t.2.nasvc == some src)

/-- Whether the time base runs: KHZ in range and `refclk` present (R52, R107). -/
def Leaf.timeRuns (l : Leaf) : Bool :=
  l.pins.refclk && decide (25000 ≤ l.fld GlR.TM_REFFREQ_KHZ ∧ l.fld GlR.TM_REFFREQ_KHZ ≤ 200000)

/-- Whether a target is in holdoff (R374): the timer runs, the target is not idle, the time base runs. -/
def Leaf.inHoldoff (l : Leaf) (k : Nat) : Bool :=
  (match (tget l.irq.targets k).hold with
    | some e => decide (l.time.clk < e)
    | none => false) && !bit l.pins.irqIdle.toNat k && l.timeRuns

/-- Whether a source is claimable by a target (R368). -/
def Leaf.claimable (l : Leaf) (k src : Nat) : Bool :=
  let t := tget l.irq.targets k
  decide (0 < tget l.irq.cnt src) && bit (l.routeOf src) k && !l.inService src && l.mayClaim k src &&
  (if 448 ≤ src then
    match t.stack with
    | [] => true
    | (_, p) :: _ => decide (p < l.priOf src)
  else t.stack.isEmpty && t.nasvc.isNone && !l.inHoldoff k)

/-- The source that a claim of target `k` takes (R370). -/
def Leaf.bestClaim (l : Leaf) (k : Nat) : Option Nat :=
  let ok := (l.irq.cnt.map Prod.fst).filter (fun src => l.claimable k src)
  let al := ok.filter (fun src => decide (448 ≤ src))
  match al.foldl (fun (b : Option Nat) src =>
      match b with
      | none => some src
      | some o => if l.priOf o < l.priOf src then some src else some o) none with
  | some src => some src
  | none => ok.head?

/-- Level of `irq[k]` (R369). -/
def Leaf.irqPin (l : Leaf) (k : Nat) : Bool := (l.bestClaim k).isSome

/-- A claim by target `k` (R370): the word read, and the leaf after it. -/
def Leaf.claim (k : Nat) (l : Leaf) : Leaf :=
  match l.bestClaim k with
  | none => { l with rdata := 0xFFFF }
  | some src =>
    let n := tget l.irq.cnt src
    let t := tget l.irq.targets k
    let h := l.fld (GlR.IRQ_TCTL_HOLDOFF.at (0x20 * k))
    let t' := if 448 ≤ src then { t with stack := (src, l.priOf src) :: t.stack }
      else { t with nasvc := some src
                    hold := if h = 0 ∨ bit l.pins.irqIdle.toNat k ∨ !l.timeRuns then none
                            else some (l.time.clk + 1000 * h) }
    { l with rdata := BitVec.ofNat 32 (n * 65536 + src)
             irq := { cnt := tput l.irq.cnt src 0, targets := tput l.irq.targets k t' } }

/-- A write of a source number to `GL_IRQ_EOI[k]` (R371). -/
def Leaf.eoi (k src : Nat) (l : Leaf) : Leaf :=
  let t := tget l.irq.targets k
  match t.stack with
  | (top, _) :: rest =>
    if top = src then { l with irq := { l.irq with targets := tput l.irq.targets k { t with stack := rest } } }
    else l.addSat (GlR.IRQ_TSTAT_BADEOI.at (0x20 * k)) 1
  | [] =>
    if t.nasvc = some src then
      { l with irq := { l.irq with targets := tput l.irq.targets k { t with nasvc := none } } }
    else l.addSat (GlR.IRQ_TSTAT_BADEOI.at (0x20 * k)) 1

/-- The holdoff of a target ends (R374). -/
def Leaf.endHoldoff (k : Nat) (l : Leaf) : Leaf :=
  { l with irq := { l.irq with targets := tmod l.irq.targets k (fun t => { t with hold := none }) } }

/-- IRQ_CLAIM: a read of `GL_IRQ_CLAIM[k]` (R370). A read that is not admitted returns zero. -/
def execIrqClaim (k : BitVec 3) (p : Port) (s : State) : Host.Outcome State Fault Refusal :=
  .next (s.onLeaf fun l => Leaf.guarded p (0xD00 + 0x20 * k.toNat) false (Leaf.claim k.toNat) { l with rdata := 0 })

/-- IRQ_EOI: a write to `GL_IRQ_EOI[k]` (R371). A secure requester may write it whatever the target's world (R381). -/
def execIrqEoi (k : BitVec 3) (p : Port) (data : Word) (s : State) : Host.Outcome State Fault Refusal :=
  .next (s.onLeaf (Leaf.guarded p (0xD04 + 0x20 * k.toNat) true (Leaf.eoi k.toNat (bits data.toNat 8 0))))

/-- IRQ_IDLE_RISE: `irq_idle[k]` rises, the running holdoff ends (R374); the operand says whether the input stays
high after it or was a pulse. -/
def execIrqIdleRise (k : BitVec 3) (stays : Bool) (s : State) : Host.Outcome State Fault Refusal :=
  .next (s.onLeaf fun l =>
    Leaf.endHoldoff k.toNat { l with pins := { l.pins with
      irqIdle := BitVec.ofNat 8 (setBits l.pins.irqIdle.toNat k.toNat k.toNat (b2n stays)) } })

/-- HOLDOFF_EXPIRY: the interval clock reaches the end of target k's holdoff (R374); without one, nothing. -/
def execHoldoffExpiry (k : BitVec 3) (s : State) : Host.Outcome State Fault Refusal :=
  .next (s.onLeaf (Leaf.endHoldoff k.toNat))

end Sys2Proof.Machine
end

