-- ==== Sys2Proof/Machine/Inkwell.lean ====
section
/-!
DEFINITION. Sys2Proof/Machine/Inkwell.lean: Inkwell records, recorders and their reading in either part
(R339 to R345, R378).
-/

namespace Sys2Proof.Machine

/-- Length of a record: header, body, zeros to whole 16-byte units (R339). -/
def inkLen (x : InkRec) : Nat := 32 + (x.body.length + 15) / 16 * 16

/-- The bytes of a record (Table 15.1): recorder `r`, CRC-32C when `crc` (Polornaz), else zero. -/
def inkBytes (crc : Bool) (r : Nat) (x : InkRec) : List Byte :=
  let h := leB 1 (inkLen x / 16) ++ leB 1 0 ++ leB 1 (r * 16) ++ leB 1 0xA5 ++ leB 4 x.seq ++
    leB 2 x.origin.toNat ++ leB 2 x.code.toNat ++ leB 4 x.ink.toNat ++ leB 8 x.time ++ leB 1 0 ++ leB 3 x.tag.toNat
  let b := padTo 16 x.body
  if crc then h ++ leB 4 (crc32c (h ++ leB 4 0 ++ b)) ++ b else h ++ leB 4 0 ++ b

/-- Bytes of the first-N section in use, its 16-byte control block included (R341). -/
def firstUsed (R : Recorder) : Nat := R.first.foldl (fun n x => n + inkLen x) 16

/-- Ring records that overlap none of the bytes from `off` to `off + n` (R341). -/
def ringKeep (ring : List RingRec) (off n : Nat) : List RingRec :=
  ring.filter (fun e => decide (off + n ≤ e.off ∨ e.off + inkLen e.ent ≤ off))

/-- Ring records that overlap them. -/
def ringLost (ring : List RingRec) (off n : Nat) : List RingRec :=
  ring.filter (fun e => !decide (off + n ≤ e.off ∨ e.off + inkLen e.ent ≤ off))

/-- A record put into a ring of `size` bytes at its next offset `at`: the ring, the next offset, the records
overwritten. The rest of the ring is filled with a pad record when the record does not fit before its end. -/
def ringPut (size : Nat) (ring : List RingRec) (pos : Nat) (x : InkRec) : List RingRec × Nat × List RingRec :=
  let n := inkLen x
  if pos + n ≤ size then
    (ringKeep ring pos n ++ [⟨pos, x⟩], pos + n, ringLost ring pos n)
  else
    let pad := size - pos
    let r1 := ringKeep ring pos pad
    (ringKeep r1 0 n ++ [⟨0, x⟩], n, ringLost ring pos pad ++ ringLost r1 0 n)

/-- The SEQ after another (R340). -/
def seqNext (n : Nat) : Nat := if n = 0xFFFFFFFF then 1 else n + 1

/-- A record appended (R341): to the first-N section until one no longer fits there, then to the ring; records the
ring overwrites go to a DRAM ring of `spillSize` bytes when there is one (R343). -/
def Recorder.append (firstSize ringSize spillSize : Nat) (R : Recorder) (x : InkRec) : Recorder :=
  if !R.closed && decide (firstUsed R + inkLen x ≤ firstSize) then
    { R with first := R.first ++ [x], last := x.seq }
  else
    let (ring, nx, lost) := ringPut ringSize R.ring R.next x
    let (sp, sn) := if spillSize = 0 then (R.spill, R.snext) else
      lost.foldl (fun (a : List RingRec × Nat) e =>
        let q := ringPut spillSize a.1 a.2 e.ent
        (q.1, q.2.1)) (R.spill, R.snext)
    { R with closed := true, ring := ring, next := nx, last := x.seq, spill := sp, snext := sn }

/-- Every record a recorder holds, in SEQ order of making (R345): first-N, spilled, ring. -/
def Recorder.held (R : Recorder) : List InkRec := R.first ++ R.spill.map (·.ent) ++ R.ring.map (·.ent)

/-- First-N and ring sizes of a leaf recorder (Table 15.2). -/
def leafSizes (r : Nat) : Nat × Nat :=
  (([(32, 224), (32, 480), (16, 112), (16, 112)] : List (Nat × Nat)).map
    (fun p => (p.1 * 1024, p.2 * 1024))).getD r (16, 0)

/-- First-N and ring sizes of a Polornaz recorder (Table 15.2). -/
def pzSizes (r : Nat) : Nat × Nat :=
  (([(16, 112), (16, 240), (8, 120), (8, 56), (16, 112), (16, 240), (16, 48)] : List (Nat × Nat)).map
    (fun p => (p.1 * 1048576, p.2 * 1048576))).getD r (16, 0)

/-- The owning job tag that the leaf holds. -/
def Leaf.jobTag (l : Leaf) : Nat := l.fld GlR.CH_JOB_JOB_TAG

/-- The leaf makes a record in recorder `r` (R339, R342, R344). -/
def Leaf.record (r code origin : Nat) (body : List Byte) (l : Leaf) : Leaf :=
  let R := tget l.iw.recs r
  let x : InkRec := { seq := seqNext R.last, code := BitVec.ofNat 16 code, origin := BitVec.ofNat 16 origin
                      ink := l.reg 0x200C, time := l.time.ns, tag := BitVec.ofNat 24 l.jobTag, body := body }
  { l with iw := { l.iw with
      recs := tput l.iw.recs r (R.append (leafSizes r).1 (leafSizes r).2 0 x) } }

/-- What a recorder shows for a SEQ: the record held with it. -/
def Recorder.find (R : Recorder) (seq : Nat) : Option InkRec := R.held.find? (fun x => x.seq == seq)

/-- Whether the leaf holds an Inkwell record word as uncorrectable (Table 17.1). -/
def Leaf.inkBad (l : Leaf) (r seq : Nat) : Bool :=
  l.ecc.bad.any (fun a => decide (a.1 = .inkwell (BitVec.ofNat 2 r) (BitVec.ofNat 32 seq)))

/-- Whether a record of the leaf is hidden from an access: its recorder is a secure region (R378). -/
def Leaf.regionSecure (l : Leaf) (i : Nat) : Bool := bit (l.reg 0x404).toNat i

/-- The window and RES after a read of a record (R345): HIT 0, MISS 1, BAD 2. -/
def Leaf.showRecord (res : Nat) (bs : List Byte) (l : Leaf) : Leaf :=
  ({ l with iw := { l.iw with window := bs } }.setFld GlR.IW_STAT_RES res).setFld GlR.IW_STAT_UNITS
    (bs.length / 16)

/-- The cursor set to a SEQ of the recorder in REC (R345); a non-secure access to a secure recorder reads MISS and
counts against INKWELL (R378). -/
def Leaf.cursorTo (p : Port) (seq : Nat) (l : Leaf) : Leaf :=
  let r := l.fld GlR.IW_CTL_REC
  let l := l.setFld GlR.IW_CURSOR_SEQ seq
  if p.ns && l.regionSecure (3 + r) then (l.showRecord 1 []).violate 9
  else match (tget l.iw.recs r).find seq with
    | none => l.showRecord 1 []
    | some x => l.showRecord (if l.inkBad r seq then 2 else 0) (inkBytes false r x)

/-- NEXT: the first record held after the cursor's SEQ (R345); a non-secure NEXT skips secure recorders (R378). -/
def Leaf.cursorNext (p : Port) (l : Leaf) : Leaf :=
  let r := l.fld GlR.IW_CTL_REC
  let cur := l.fld GlR.IW_CURSOR_SEQ
  if p.ns && l.regionSecure (3 + r) then l.showRecord 1 []
  else match ((tget l.iw.recs r).held.dropWhile (fun x => decide (x.seq ≤ cur))).head? with
    | none => l.showRecord 1 []
    | some x => (l.setFld GlR.IW_CURSOR_SEQ x.seq).showRecord (if l.inkBad r x.seq then 2 else 0)
        (inkBytes false r x)

/-- The dump at the head of the queue begins: it covers the records of its filter that are held now (R346). -/
def Leaf.beginDump (l : Leaf) : Leaf :=
  match l.iw.dumps with
  | [] => l
  | d :: rest =>
    if d.begun then l
    else
      let xs := (tget l.iw.recs d.recNo).held.filter (fun x => d.tag == 0 || x.tag == d.tag)
      { l with iw := { l.iw with dumps := { d with begun := true, seqs := xs.map (·.seq) } :: rest } }

/-- A dump request: it runs, waits behind up to four others, or is refused (R346). -/
def Leaf.askDump (r tag reason : Nat) (l : Leaf) : Leaf :=
  if 5 ≤ l.iw.dumps.length then l.setFld GlR.IW_STAT_DREFUSED 1
  else
    Leaf.beginDump { l with iw := { l.iw with
        dumpId := l.iw.dumpId + 1
        dumps := l.iw.dumps ++ [{ recNo := r, tag := BitVec.ofNat 24 tag, reason := BitVec.ofNat 4 reason
                                  id := l.iw.dumpId, begun := false, seqs := [], lost := 0 }] } }

/-- The settings fields of `GL_IW_CTL` from a write. -/
def Leaf.iwCtlWrite (data : Nat) (l : Leaf) : Leaf :=
  (l.setFld GlR.IW_CTL_REC (bits data 27 24)).setFld GlR.IW_CTL_DTAG (bits data 23 0)

end Sys2Proof.Machine
end

