-- ==== Sys2Proof/Machine/Link.lean ====
section
/-!
DEFINITION. Sys2Proof/Machine/Link.lean: how a leaf sends: cells into its uplink queues (R160), messages onto the
Reed chain (R135 to R137), and alarms over both (R136, R162, R171, R366).
-/

namespace Sys2Proof.Machine

/-- ROLE codes of `GL_CH_STAT` (Table 6.6). -/
def roleMember : Nat := 0
/-- ROLE master. -/
def roleMaster : Nat := 1
/-- ROLE electing. -/
def roleElecting : Nat := 2
/-- ROLE isolated. -/
def roleIsolated : Nat := 3

/-- Whether the leaf is a chain master. -/
def Leaf.isMaster (l : Leaf) : Bool := l.fld GlR.CH_STAT_ROLE == roleMaster

/-- Inkline epoch in force. -/
def Leaf.epoch (l : Leaf) : Word := l.reg 0x200C

/-- Fleet ID in force. -/
def Leaf.fleet (l : Leaf) : Word := l.reg 0xC000

/-- Servo STATE codes (Table 5.8). -/
def svFree : Nat := 0
/-- ACQUIRE. -/
def svAcquire : Nat := 1
/-- LOCKED. -/
def svLocked : Nat := 2
/-- HOLD. -/
def svHold : Nat := 3

/-- A message put into an uplink class queue (R160): it takes the class's next MSEQ. -/
def Leaf.pushMsg (m : Message) (fseq : Option (BitVec 16)) (l : Leaf) : Leaf :=
  let c := m.cls.toNat
  let q := tget l.ul.mseq c
  { l with ul := { l.ul with
      mseq := tput l.ul.mseq c (q + 1)
      arrivals := l.ul.arrivals + 1
      queues := tmod l.ul.queues c (· ++ [{ msg := m, sent := 0, fseq := fseq, mseq := q, came := l.ul.arrivals }]) } }

/-- A message of the leaf's own: fleet ID and epoch in force (Table 7.1). -/
def Leaf.pushOwn (cls ty : Nat) (body : List Byte) (l : Leaf) : Leaf :=
  l.pushMsg { fleet := l.fleet, cls := BitVec.ofNat 3 cls, ty := BitVec.ofNat 8 ty, ink := l.epoch
              mark := false, body := body } none

/-- A port of the chain: `false` is A, `true` is B. -/
def Leaf.port (l : Leaf) (p : Bool) : ReedPort := if p then l.chain.portB else l.chain.portA

/-- The leaf with a port changed. -/
def Leaf.setPort (l : Leaf) (p : Bool) (r : ReedPort) : Leaf :=
  { l with chain := if p then { l.chain with portB := r } else { l.chain with portA := r } }

/-- Register offset of a per-port register of stride 4. -/
def portOff (p : Bool) : Nat := if p then 4 else 0

/-- Class of a Reed message (Table 6.2). -/
def reedClass : ReedMsg → Nat
  | .alarm _ => 0
  | .flush true _ => 0
  | .flush false _ => 2
  | .wave _ => 2
  | _ => 1

/-- A message dropped or lost on a port (R137): counted in QDROP, with a record for an ALARM. -/
def Leaf.reedDrop (p : Bool) (m : ReedMsg) (l : Leaf) : Leaf :=
  let l := (l.addSat (GlR.CH_ERR_QDROP.at (portOff p)) 1).event 310
  match m with
  | .alarm a => l.record 1 0x0301 (b2n p) (leB 4 (b2n p) ++ leB 4 a.pos.toNat ++ leB 4 a.aseq.toNat)
  | _ => l

/-- Whether a message is the REPORT of a position. -/
def reportOf (pos : BitVec 6) : ReedMsg → Bool
  | .report x => x.pos == pos
  | _ => false

/-- A message on a port: at once when the port is UP, else into its class queue under the limits of R137. An
unsent REPORT is updated in place (R142). -/
def Leaf.sendOn (p : Bool) (m : ReedMsg) (bad : Bool) (l : Leaf) : Leaf :=
  let r := l.port p
  if r.st = .up then { l with out := l.out ++ [.reed p m bad] }
  else match m with
    | .alarm _ | .flush true _ =>
      if r.alarmQ.length < 64 then l.setPort p { r with alarmQ := r.alarmQ ++ [m] } else l.reedDrop p m
    | .wave _ => if r.waveQ.isNone then l.setPort p { r with waveQ := some m } else l.reedDrop p m
    | .flush false _ => if r.flushQ.isNone then l.setPort p { r with flushQ := some m } else l.reedDrop p m
    | .report x =>
      if r.ctlQ.any (reportOf x.pos) then
        l.setPort p { r with ctlQ := r.ctlQ.map (fun y => if reportOf x.pos y then m else y) }
      else if r.ctlQ.length < 16 then l.setPort p { r with ctlQ := r.ctlQ ++ [m] } else l.reedDrop p m
    | _ => if r.ctlQ.length < 16 then l.setPort p { r with ctlQ := r.ctlQ ++ [m] } else l.reedDrop p m

/-- A message on both wired ports. -/
def Leaf.sendBoth (m : ReedMsg) (l : Leaf) : Leaf := (l.sendOn false m false).sendOn true m false

/-- A message on each port that is UP. -/
def Leaf.sendUp (m : ReedMsg) (l : Leaf) : Leaf :=
  let a := onlyIf ((l.port false).st = .up) (Leaf.sendOn false m false) l
  onlyIf ((l.port true).st = .up) (Leaf.sendOn true m false) a

/-- The port with the smaller hop count, port A on a tie (R135). -/
def Leaf.route (l : Leaf) : Option Bool :=
  match l.chain.portA.hops, l.chain.portB.hops with
  | none, none => none
  | some _, none => some false
  | none, some _ => some true
  | some a, some b => some (decide (b < a))

/-- A message addressed to the master: on the routed port, or waiting in its class for one (R135, R137). -/
def Leaf.toMaster (m : ReedMsg) (l : Leaf) : Leaf :=
  match l.route with
  | some p => l.sendOn p m false
  | none =>
    let w := l.chain.toMaster
    let same := w.filter (fun x => reedClass x == reedClass m)
    let isRep := reportOf l.pins.pkgpos
    if isRep m && w.any isRep then
      { l with chain := { l.chain with toMaster := w.map (fun x => if isRep x then m else x) } }
    else if same.length < (if reedClass m = 0 then 64 else if reedClass m = 1 then 16 else 1) then
      { l with chain := { l.chain with toMaster := w ++ [m] } }
    else l.reedDrop false m

/-- Messages that waited for a route leave once one exists (R135). -/
def Leaf.releaseRouted (l : Leaf) : Leaf :=
  match l.route with
  | none => l
  | some _ =>
    l.chain.toMaster.foldl (fun l m => l.toMaster m) { l with chain := { l.chain with toMaster := [] } }

/-- Messages that waited for a link leave once it is UP, Alarm first, then Control, then Frame (R132). -/
def Leaf.releasePort (p : Bool) (l : Leaf) : Leaf :=
  let r := l.port p
  if r.st = .up then
    let l := l.setPort p { r with alarmQ := [], ctlQ := [], waveQ := none, flushQ := none }
    (r.alarmQ ++ r.ctlQ ++ r.waveQ.toList ++ r.flushQ.toList).foldl (fun l m => l.sendOn p m false) l
  else l

/-- Whether the servo state counts as locked for the untimed flag (R52, R116): LOCKED or HOLD, and after a lost
reference only once LOCKRUN has reached 256. -/
def Leaf.timed (l : Leaf) : Bool :=
  l.timeRuns && (l.fld GlR.TM_STAT_STATE == svLocked || l.fld GlR.TM_STAT_STATE == svHold) &&
  (!l.time.lockWait || decide (256 ≤ l.fld GlR.TM_STAT_LOCKRUN))

/-- Bytes of an unsent alarm: both copies leave with one ASEQ and one credit (R136, R162, R171). -/
def Leaf.sendAlarm (code : Nat) (l : Leaf) : Leaf :=
  let l := (l.setFld GlR.UL_ALM_CREDIT (l.fld GlR.UL_ALM_CREDIT - 1)).addMod GlR.UL_ALM_SEQ 1
  let q := l.fld GlR.UL_ALM_SEQ
  let t := l.time.ns
  let pos := l.pins.pkgpos.toNat
  let ut := l.fld GlR.TM_STAT_STATE != svLocked
  let l := l.record 1 0x0303 0 (leB 4 code ++ leB 4 q ++ leB 8 t)
  let l := l.pushOwn 0 2 (alarmBody code q t pos false ut)
  if l.isMaster then l
  else l.toMaster (.alarm { pos := BitVec.ofNat 6 pos, code := BitVec.ofNat 16 code, aseq := BitVec.ofNat 16 q
                            time := BitVec.ofNat 32 t, epoch := BitVec.ofNat 8 l.epoch.toNat })

/-- An alarm raised by the device (no channel) or by a capture channel: its interrupt source counts whether or not
it is sent (R366); with no credit it is suppressed and counted (R171). -/
def Leaf.alarm (code : Nat) (chan : Option Nat) (l : Leaf) : Leaf :=
  let l := l.event (match chan with
    | none => 448 + (code - 2)
    | some c => 480 + c / 8)
  if 0 < l.fld GlR.UL_ALM_CREDIT then l.sendAlarm code
  else
    let l := (l.addMod GlR.UL_ASUPP_COUNT 1).setEvent GlR.UL_STAT_ASUPP 314
    let l := l.record 1 0x0302 (chan.getD 0) (leB 4 code)
    { l with ul := { l.ul with supp := true } }

/-- A configuration message of the leaf on Control (Table 14.2). -/
def Leaf.sendCfg (tag op cseq cfg arg0 arg1 : Nat) (body : List Byte) (l : Leaf) : Leaf :=
  l.pushOwn 1 8 (cfgBody tag op cseq cfg l.fleet.toNat arg0 arg1 body)

/-- An acknowledgement of the leaf on Control (Table 14.4). -/
def Leaf.sendAck (cseq status op detail cfg : Nat) (l : Leaf) : Leaf :=
  l.pushOwn 1 9 (ackBody cseq status op detail cfg l.fleet.toNat 0 0 [])

/-- A message acted on gets its answer: it is sent, and kept for further copies (R324). -/
def Leaf.answer (sender : Word) (cseq : BitVec 16) (op status detail : Nat) (cfg : BitVec 16) (l : Leaf) : Leaf :=
  let acted := l.ctl.acted.map (fun a =>
    if a.sender = sender ∧ a.cseq = cseq ∧ a.op = op then { a with answer := some (status, detail) } else a)
  Leaf.sendAck cseq.toNat status op detail cfg.toNat { l with ctl := { l.ctl with acted := acted } }

end Sys2Proof.Machine
end

