-- ==== Sys2Proof/Machine/Capture.lean ====
section
/-!
DEFINITION. Sys2Proof/Machine/Capture.lean: event banks, counter groups, command streams and value ports
(chapter 03, R38 to R41).
-/

namespace Sys2Proof.Machine

/-- Whether a bank is connected (Table 2.13, R64). -/
def Leaf.bankOn (l : Leaf) (b : Nat) : Bool := bit l.hard.bankEn.toNat b

/-- The bank whose clock samples a stream (Table 2.14). -/
def Leaf.streamBank (l : Leaf) (s : Nat) : Nat := (l.hard.cmdBank.getD s 0).toNat

/-- Connected banks. -/
def Leaf.banksOn (l : Leaf) : List (BitVec 4) := ((List.range 16).filter l.bankOn).map (BitVec.ofNat 4)

/-- Counts added to pre-accumulators. -/
def addLines (t : Tbl Nat) (ls : List (BitVec 6 × Nat)) : Tbl Nat :=
  ls.foldl (fun t p => tmod t p.1.toNat (· + p.2)) t

/-- A stream after the strobes of one edge (R39, R74, R75); `taken` says that the edge's latches are taken. -/
def strobeStep (taken : Bool) (st : Strobe) (x : StreamState) : StreamState :=
  let latches := st.start || (st.fin && x.isOpen)
  let x1 : StreamState :=
    if st.fin then
      if x.isOpen then { x with ends := x.ends + 1, lastId := x.openId, isOpen := false
                                pairOk := x.startTaken && taken && !x.dropped }
      else { x with orphans := x.orphans + 1 }
    else x
  let x2 : StreamState :=
    if st.start then { x1 with starts := x1.starts + 1, isOpen := true, openId := st.id
                               startTaken := taken, dropped := !taken }
    else x1
  if latches && !taken then { x2 with overruns := x2.overruns + 1, dropped := true } else x2

/-- The strobes of an edge that this bank samples: none while the host is isolated (R51), only streams mapped to
the bank (R61). -/
def Leaf.strobesAt (l : Leaf) (b : Nat) (st : List Strobe) : List Strobe :=
  if l.pins.hostIsoN && l.bankOn b then
    st.filter (fun x => l.streamBank x.stream.toNat == b && (x.fin || x.start))
  else []

/-- What the front-end is asked to do on an edge (R65). -/
inductive EdgeKind where
  | periodic
  | strobe
  | marker
  | stop
deriving DecidableEq, Repr

/-- One edge of a bank front-end (R65 to R67): counts join the pre-accumulators; an item is made for markers,
strobes, the 256th edge or a stop request, and enters the queue, waits in the marker hold, or leaves its counts. -/
def frontEdge (kind : EdgeKind) (c : EdgeCounts) (st : List Strobe) (f : BankFront) : BankFront :=
  let f := { f with edges := f.edges + c.edges, lines := addLines f.lines c.lines, clk := .running
                    stopReq := f.stopReq || decide (kind = EdgeKind.stop) }
  let marks := if kind = .marker then f.toMark else []
  let room := f.hold.isEmpty && decide (f.queue.length < (if marks.isEmpty then 28 else 32))
  let holds := !marks.isEmpty && decide (f.hold.length < 8)
  let wants := !marks.isEmpty || !st.isEmpty || f.stopReq || decide (256 ≤ f.edges)
  let taken := wants && (room || holds)
  let fins := st.filter (fun x => x.fin && (tget f.streams x.stream.toNat).isOpen)
  let streams := st.foldl (fun t x => tmod t x.stream.toNat (strobeStep taken x)) f.streams
  let f := { f with streams := streams }
  if !taken then f
  else
    let it : Item := { edges := f.edges, lines := f.lines, fins := fins.map (·.stream)
                       starts := (st.filter (·.start)).map (·.stream), streams := streams, markers := marks }
    let f := { f with edges := 0, lines := [], toMark := if marks.isEmpty then f.toMark else [] }
    if room then { f with queue := f.queue ++ [it] } else { f with hold := f.hold ++ [it] }

/-- The leaf with a bank front-end changed. -/
def Leaf.modFront (b : Nat) (g : BankFront → BankFront) (l : Leaf) : Leaf :=
  { l with cap := { l.cap with front := tmod l.cap.front b g } }

/-- An edge of bank `b`: an unconnected bank has none (R64); an isolated host's lines are idle (R51, R79). -/
def Leaf.bankEdge (kind : EdgeKind) (b : Nat) (c : EdgeCounts) (st : List Strobe) (l : Leaf) : Leaf :=
  if l.bankOn b then
    l.modFront b (frontEdge kind (if l.pins.hostIsoN then c else { c with lines := [] }) (l.strobesAt b st))
  else l

/-! ## What the core applies -/

/-- Groups of a bank. -/
def bankGroups (b : Nat) : List Nat := (List.range 16).map (fun i => 16 * b + i)

/-- Groups of a bank bound to a stream (R73). -/
def Leaf.boundGroups (l : Leaf) (b s : Nat) : List Nat :=
  (bankGroups b).filter (fun g => l.flag (GlR.CG_CTL_CMD_EN.at (0x50 * g)) &&
    l.fld (GlR.CG_CTL_CMD.at (0x50 * g)) == s)

/-- Step 1 for one slot: the count is added, a wrap sets OVF and, when enabled, counts in the group's source
(R63, R80). -/
def Leaf.addSlot (b g : Nat) (it : Item) (l : Leaf) (n : Nat) : Leaf :=
  let hi := 0x50 * g + 8 * n
  if !l.flag (GlR.CG_HI_EN.at hi) then l
  else
    let k := if n = 0 then it.edges else tget it.lines (l.fld (GlR.CG_HI_LINE.at hi))
    let set := tget l.cap.core b
    let key := 9 * (g % 16) + n
    let v := (tget set.cnt key).toNat + k
    let set' : BankSet := { set with cnt := tput set.cnt key (BitVec.ofNat 48 v) }
    let l := { l with cap := { l.cap with core := tput l.cap.core b set' } }
    if v < 2 ^ 48 then l
    else
      let f := GlR.CG_STAT_OVF.at (0x50 * g)
      onlyIf (l.flag (GlR.CG_HI_OVF_IE.at hi)) (Leaf.event g) (l.setFld f (setBits (l.fld f) n n 1))

/-- Step 1 of Table 3.3 for a bank. -/
def Leaf.addCounts (b : Nat) (it : Item) (l : Leaf) : Leaf :=
  (bankGroups b).foldl (fun l g =>
    if l.flag (GlR.CG_CTL_EN.at (0x50 * g)) then (List.range 9).foldl (Leaf.addSlot b g it) l else l) l

/-- Nine entries of one table copied from another, for a group. -/
def copyNine (g : Nat) (src dst : Tbl (BitVec 48)) : Tbl (BitVec 48) :=
  (List.range 9).foldl (fun t n => tput t (9 * (g % 16) + n) (tget src (9 * (g % 16) + n))) dst

/-- Nine entries of a table set to zero, for a group. -/
def zeroNine (g : Nat) (t : Tbl (BitVec 48)) : Tbl (BitVec 48) :=
  (List.range 9).foldl (fun t n => tput t (9 * (g % 16) + n) 0) t

/-- The leaf with the core set of a bank changed. -/
def Leaf.modCore (b : Nat) (f : BankSet → BankSet) (l : Leaf) : Leaf :=
  { l with cap := { l.cap with core := tmod l.cap.core b f } }

/-- Step 2: the end latch of every group bound to the stream (R69). -/
def Leaf.endLatch (b : Nat) (l : Leaf) (s : BitVec 4) : Leaf :=
  (l.boundGroups b s.toNat).foldl (fun l g =>
    l.modCore b (fun x => { x with endL := copyNine g x.cnt x.endL })) l

/-- Step 3: groups with RST_START are reset, then the start latch of every bound group (R69). -/
def Leaf.startLatch (b : Nat) (l : Leaf) (s : BitVec 4) : Leaf :=
  (l.boundGroups b s.toNat).foldl (fun l g =>
    let rst := l.flag (GlR.CG_CTL_RST_START.at (0x50 * g))
    l.modCore b (fun x =>
      let x := if rst then { x with cnt := zeroNine g x.cnt } else x
      { x with startL := copyNine g x.cnt x.startL })) l

/-- The core's stream states become those the item carries; orphans and overruns count in source 256 + s (R74). -/
def Leaf.takeStreams (b : Nat) (it : Item) (l : Leaf) : Leaf :=
  it.streams.foldl (fun l p =>
    let old := tget (tget l.cap.core b).streams p.1
    let n := (p.2.orphans - old.orphans).toNat + (p.2.overruns - old.overruns).toNat
    let l := l.modCore b (fun x => { x with streams := tput x.streams p.1 p.2 })
    iter (Leaf.event (256 + p.1)) (min n 255) l) l

/-- A change of control settings applied (R70, R72): settings, binding, then the clear. -/
def Leaf.applyCtl (c : CtlChange) (l : Leaf) : Leaf :=
  let g := c.group.toNat
  let d := 0x50 * g
  let l := match c.ctl with
    | none => l
    | some w =>
      (((l.setFld (GlR.CG_CTL_EN.at d) (bits w.toNat 31 31)).setFld (GlR.CG_CTL_CMD_EN.at d) (bits w.toNat 27 27)).setFld
        (GlR.CG_CTL_CMD.at d) (bits w.toNat 26 23)).setFld (GlR.CG_CTL_RST_START.at d) (bits w.toNat 22 22)
  let l := match c.slot with
    | none => l
    | some (n, w) =>
      ((l.setFld (GlR.CG_HI_EN.at (d + 8 * n)) (bits w.toNat 31 31)).setFld (GlR.CG_HI_OVF_IE.at (d + 8 * n))
        (bits w.toNat 30 30)).setFld (GlR.CG_HI_LINE.at (d + 8 * n)) (if n = 0 then 0 else bits w.toNat 29 24)
  let l := onlyIf c.clr (Leaf.modCore (g / 16) (fun x => { x with cnt := zeroNine g x.cnt })) l
  l.setFld (GlR.CG_STAT_CLR_PEND.at d) 0

/-- The 48-bit counter or latch tables of a snapshot, as drained (Table 15.8). -/
def setCounter (t : Tbl BankSet) (g n : Nat) : Nat := (tget (tget t (g / 16)).cnt (9 * (g % 16) + n)).toNat

/-- A stream's words in a drain (Table 15.8). -/
def streamBytes (x : StreamState) : List Byte :=
  leB 8 x.starts.toNat ++ leB 8 x.ends.toNat ++ leB 8 x.orphans.toNat ++ leB 8 x.overruns.toNat ++
  leB 8 (b2n x.isOpen * 2 ^ 31 + b2n x.pairOk * 2 ^ 30 + x.openId.toNat) ++ leB 8 x.lastId.toNat

/-- A value port's words in a drain (Table 15.8). -/
def valueBytes (v : ValuePort) : List Byte :=
  let tv := v.val.getD (7, 0)
  leB 8 (tv.2.toNat + tv.1.toNat * 2 ^ 32 + b2n v.fresh * 2 ^ 35 + v.upd.toNat * 2 ^ 48)

/-- Body of the snapshot drain (Table 15.8). -/
def Leaf.drainBody (l : Leaf) : List Byte :=
  let held := (List.range 256).any (fun g => l.flag (GlR.CG_STAT_HELD.at (0x50 * g)))
  leB 4 l.cap.snapEpoch.toNat ++
  leB 4 (l.jobTag * 256 + b2n held * 4 + l.fld GlR.CH_CUT_CATCHUP * 2 + l.fld GlR.CH_CUT_LATE) ++
  leB 8 l.cap.snapTime ++ leB 4 l.quill.actCfg.toNat ++ leB 12 0 ++
  ((List.range 256).map (fun g => ((List.range 9).map (fun n => leB 8 (setCounter l.cap.snap g n))).flatten)).flatten ++
  ((List.range 16).map (fun s => streamBytes (tget (tget l.cap.snap (l.streamBank s)).streams s))).flatten ++
  ((List.range 64).map (fun i => valueBytes (tget l.cap.snapVals i))).flatten

/-- The snapshot operation completes once every connected bank has applied its marker: the SNAP view and SNAP_EP
switch together (R77), and a drain that a CKPT Inkline asked for is queued (R360). -/
def Leaf.snapDone (l : Leaf) : Leaf :=
  if l.cap.inkWait.isEmpty then
    let l := { l with cap := { l.cap with snap := l.cap.staging, snapVals := l.cap.stagingVals
                                          snapEpoch := l.cap.stagEpoch, snapTime := l.cap.stagTime } }
    if l.cap.drainPend then
      ({ l with cap := { l.cap with drainPend := false } }).pushOwn 4 0x0D l.drainBody
    else l
  else l

/-- A bank's part of the snapshot: step 4 (R77). -/
def Leaf.snapBank (b : Nat) (l : Leaf) : Leaf :=
  let c := l.cap
  if c.inkWait.any (fun x => x.toNat == b) then
    Leaf.snapDone { l with cap := { c with staging := tput c.staging b (tget c.core b)
                                           inkWait := c.inkWait.filter (fun x => x.toNat != b) } }
  else l

/-- A bank's part of the sample set: step 5 (R76). -/
def Leaf.sampleBank (b : Nat) (l : Leaf) : Leaf :=
  let c := l.cap
  if c.instWait.any (fun x => x.toNat == b) then
    { l with cap := { c with sample := tput c.sample b (tget c.core b)
                             instWait := c.instWait.filter (fun x => x.toNat != b) } }
  else l

/-- One marker of an item. Steps 4, 5 and 6 of Table 3.3 are taken by three passes in that order. -/
def Leaf.applyMark (pass b : Nat) (l : Leaf) (m : BankMarker) : Leaf :=
  match m, pass with
  | .inkline _, 4 => l.snapBank b
  | .instant _, 5 => l.sampleBank b
  | .control c, 6 => l.applyCtl c
  | _, _ => l

/-- Table 3.3 for one item of a bank (R68). -/
def Leaf.applyItem (b : Nat) (it : Item) (l : Leaf) : Leaf :=
  let l := l.addCounts b it
  let l := it.fins.foldl (Leaf.endLatch b) l
  let l := it.starts.foldl (Leaf.startLatch b) l
  let l := l.takeStreams b it
  let l := it.markers.foldl (Leaf.applyMark 4 b) l
  let l := it.markers.foldl (Leaf.applyMark 5 b) l
  it.markers.foldl (Leaf.applyMark 6 b) l

/-- The core takes the oldest item of a bank's crossing queue (R66, R68). -/
def Leaf.applyHead (b : Nat) (l : Leaf) : Leaf :=
  match (tget l.cap.front b).queue with
  | [] => l
  | it :: rest => (l.modFront b (fun f => { f with queue := rest })).applyItem b it

/-! ## Control writes -/

/-- A control change sent to its bank: through a marker, or at once when the bank's clock has stopped after the
handshake or the bank is unconnected (R72). -/
def Leaf.submitCtl (c : CtlChange) (l : Leaf) : Leaf :=
  let b := c.group.toNat / 16
  if !l.bankOn b || (tget l.cap.front b).clk == .stoppedAck then l.applyCtl c
  else l.modFront b (fun f => { f with toMark := f.toMark ++ [.control c] })

/-- A write to `GL_CG_CTL[g]` (R72, R73): VIEW and USER_RD at once, a refused binding keeps CMD_EN and CMD and sets
BIND_ERR, the rest through a control marker. -/
def Leaf.cgCtlWrite (g : Nat) (w : Word) (l : Leaf) : Leaf :=
  let d := 0x50 * g
  let n := w.toNat
  let l := (l.setFld (GlR.CG_CTL_VIEW.at d) (bits n 30 28)).setFld (GlR.CG_CTL_USER_RD.at d) (bits n 21 21)
  let refused := bit n 27 && l.streamBank (bits n 26 23) != g / 16
  let l := onlyIf refused (fun l => l.setFld (GlR.CG_STAT_BIND_ERR.at d) 1) l
  let cur := (l.reg (0x4048 + d)).toNat
  let m := if refused then setBits n 27 23 (bits cur 27 23) else n
  l.submitCtl { group := BitVec.ofNat 8 g, ctl := some (BitVec.ofNat 32 m), slot := none, clr := bit n 20 }

/-- A write to `GL_CG_HI[g][n]` (R71): EN, OVF_IE and LINE through a control marker. -/
def Leaf.cgHiWrite (g n : Nat) (w : Word) (l : Leaf) : Leaf :=
  l.submitCtl { group := BitVec.ofNat 8 g, ctl := none, slot := some (n, w), clr := false }

/-- Offset of the register that a COUNTERS control command writes. -/
def cgOff (g : BitVec 8) (slot : Option (BitVec 4)) : Nat :=
  match slot with
  | none => 0x4048 + 0x50 * g.toNat
  | some n => 0x4004 + 0x50 * g.toNat + 8 * n.toNat

/-- The effect of a write to a group's control word or to the settings of a slot (0 to 8). -/
def Leaf.cgWrite (g : BitVec 8) (slot : Option (BitVec 4)) (w : Word) (l : Leaf) : Leaf :=
  match slot with
  | none => l.cgCtlWrite g.toNat w
  | some n => if n.toNat ≤ 8 then l.cgHiWrite g.toNat n.toNat w else l

/-! ## Value ports -/

/-- A completed handshake of a value port (R41, R82); an isolated or unconnected port is idle (R51, R61). -/
def Leaf.valueIn (i : Nat) (tag : BitVec 3) (data : Word) (l : Leaf) : Leaf :=
  if l.pins.hostIsoN && bit l.hard.vpEn.toNat i then
    { l with cap := { l.cap with vals := tmod l.cap.vals i (fun v =>
      { val := if tag.toNat < 3 then some (tag, data) else if tag.toNat < 5 then some (tag, data &&& 0xFFFF) else none
        fresh := true, upd := v.upd + 1, tagErr := v.tagErr || tag == 5 || tag == 6 }) } }
  else l

/-! ## Commands -/

/-- PERIODIC_ITEM (R65, R67). -/
def execPeriodicItem (b : BitVec 4) (c : EdgeCounts) (s : State) : Host.Outcome State Fault Refusal :=
  .next (s.onLeaf (Leaf.bankEdge .periodic b.toNat c []))

/-- STROBE_ITEM (R39, R65, R67, R74). -/
def execStrobeItem (b : BitVec 4) (c : EdgeCounts) (st : List Strobe) (s : State) :
    Host.Outcome State Fault Refusal :=
  .next (s.onLeaf (Leaf.bankEdge .strobe b.toNat c st))

/-- MARKER_ITEM (R65, R66): the front-end takes the markers that have crossed to it. -/
def execMarkerItem (b : BitVec 4) (c : EdgeCounts) (st : List Strobe) (s : State) :
    Host.Outcome State Fault Refusal :=
  .next (s.onLeaf (Leaf.bankEdge .marker b.toNat c st))

/-- MARKER_HOLD_RELEASE (R66): the oldest waiting marker item enters once an entry is free. -/
def execMarkerHoldRelease (b : BitVec 4) (s : State) : Host.Outcome State Fault Refusal :=
  .next (s.onLeaf (Leaf.modFront b.toNat fun f =>
    match f.hold with
    | [] => f
    | it :: rest => if f.queue.length < 32 then { f with hold := rest, queue := f.queue ++ [it] } else f))

/-- CORE_APPLY_ITEM (R68 to R70, R74 to R77, R80, R81). -/
def execCoreApplyItem (b : BitVec 4) (s : State) : Host.Outcome State Fault Refusal :=
  .next (s.onLeaf (Leaf.applyHead b.toNat))

/-- EV_STOP_REQ (R40, R65): the edge that sees the request sends an item. -/
def execEvStopReq (b : BitVec 4) (c : EdgeCounts) (st : List Strobe) (s : State) :
    Host.Outcome State Fault Refusal :=
  .next (s.onLeaf (Leaf.bankEdge .stop b.toNat c st))

/-- EV_STOP_ACK (R40): raised once everything sampled has crossed; the operand says that the clock then stops. -/
def execEvStopAck (b : BitVec 4) (stopped : Bool) (s : State) : Host.Outcome State Fault Refusal :=
  .next (s.onLeaf (Leaf.modFront b.toNat fun f =>
    if f.stopReq && f.queue.isEmpty && f.hold.isEmpty && f.edges == 0 then
      { f with stopAck := true, clk := if stopped then .stoppedAck else f.clk }
    else f))

/-- EV_STOP_RELEASE (R40): the clock runs again, `ev_stop_ack` falls. -/
def execEvStopRelease (b : BitVec 4) (s : State) : Host.Outcome State Fault Refusal :=
  .next (s.onLeaf (Leaf.modFront b.toNat fun f => { f with stopReq := false, stopAck := false, clk := .running }))

/-- Instant and Inkline markers that a stopped front-end has not taken. -/
def untaken (f : BankFront) : Bool :=
  f.toMark.any (fun m => match m with
    | .control _ => false
    | _ => true)

/-- The markers that stay with a front-end once the core has taken the others itself. -/
def controlsOnly (f : BankFront) : List BankMarker :=
  f.toMark.filter (fun m => match m with
    | .control _ => true
    | _ => false)

/-- MARKER_TIMEOUT (R78): the core takes the sample or snapshot of a bank whose clock stopped without the handshake,
and sets HELD in every group of the bank. -/
def execMarkerTimeout (b : BitVec 4) (s : State) : Host.Outcome State Fault Refusal :=
  .next (s.onLeaf fun l =>
    let f := tget l.cap.front b.toNat
    if untaken f then
      let l := l.modFront b.toNat (fun f => { f with clk := .stoppedDead, toMark := controlsOnly f })
      let l := { l with cap := { l.cap with heldNow := l.cap.heldNow || l.cap.instWait.any (· == b) } }
      let l := (bankGroups b.toNat).foldl (fun l g => l.setFld (GlR.CG_STAT_HELD.at (0x50 * g)) 1) l
      (l.snapBank b.toNat).sampleBank b.toNat
    else l)

/-- CONTROL_WRITE_TIMEOUT (R72): the waiting control write is acknowledged with CLR_PEND set. -/
def execControlWriteTimeout (b : BitVec 4) (s : State) : Host.Outcome State Fault Refusal :=
  .next (s.onLeaf fun l =>
    let f := tget l.cap.front b.toNat
    let cs := f.toMark.filterMap (fun m => match m with
      | .control c => some c.group.toNat
      | _ => none)
    if cs.isEmpty then l
    else
      let l := l.modFront b.toNat (fun f => { f with clk := .stoppedDead })
      cs.foldl (fun l g => l.setFld (GlR.CG_STAT_CLR_PEND.at (0x50 * g)) 1) l)

/-- CG_CONTROL_WRITE (R71, R72): a write to a group's control word (no slot) or to a slot's settings. -/
def execCgControlWrite (g : BitVec 8) (slot : Option (BitVec 4)) (p : Port) (data : Word) (s : State) :
    Host.Outcome State Fault Refusal :=
  .next (s.onLeaf (Leaf.guarded p (cgOff g slot) true (Leaf.cgWrite g slot data)))

/-- CG_CLEAR (R70, R72): a write of `GL_CG_CTL[g]` with CLR set. -/
def execCgClear (g : BitVec 8) (p : Port) (data : Word) (s : State) : Host.Outcome State Fault Refusal :=
  .next (s.onLeaf (Leaf.guarded p (cgOff g none) true (Leaf.cgCtlWrite g.toNat (data ||| 0x00100000))))

/-- CG_BIND (R73): a write of `GL_CG_CTL[g]` with CMD_EN set. -/
def execCgBind (g : BitVec 8) (p : Port) (data : Word) (s : State) : Host.Outcome State Fault Refusal :=
  .next (s.onLeaf (Leaf.guarded p (cgOff g none) true (Leaf.cgCtlWrite g.toNat (data ||| 0x08000000))))

/-- VALUE_PORT_HANDSHAKE (R41, R82). -/
def execValuePortHandshake (i : BitVec 6) (tag : BitVec 3) (data : Word) (s : State) :
    Host.Outcome State Fault Refusal :=
  .next (s.onLeaf (Leaf.valueIn i.toNat tag data))

end Sys2Proof.Machine
end

