-- ==== Sys2Proof/Machine/Num.lean ====
section
/-!
DEFINITION. Sys2Proof/Machine/Num.lean: the arithmetic of the manual: fp32 with one rounding (R257, R274), inkkeys
(R252, R269, Table 12.1), the scalar operations of Table 11.1, the quantities of the digest comparison (R195).
-/

namespace Sys2Proof.Machine

/-! ## fp32 -/

/-- The NaN that every NaN result is (R257). -/
def f32NaN : Word := 0x7FC00000

/-- Whether an fp32 pattern is a NaN. -/
def f32IsNaN (w : Word) : Bool := decide (0x7F800000 < w.toNat % 2 ^ 31)

/-- Whether an fp32 pattern is infinite. -/
def f32IsInf (w : Word) : Bool := decide (w.toNat % 2 ^ 31 = 0x7F800000)

/-- Sign bit of an fp32 pattern. -/
def f32Neg (w : Word) : Bool := w.msb

/-- The magnitude of a finite fp32 pattern in units of 2^-149. -/
def f32Mag (w : Word) : Nat :=
  let e := bits w.toNat 30 23
  let m := bits w.toNat 22 0
  if e = 0 then m else (m + 2 ^ 23) * 2 ^ (e - 1)

/-- The value of a finite fp32 pattern in units of 2^-149. -/
def f32Units (w : Word) : Int := if f32Neg w then -(f32Mag w : Int) else f32Mag w

/-- A quotient by `2 ^ k` rounded to the nearest integer, ties to even. -/
def roundHalfEven (n k : Nat) : Nat :=
  let q := n / 2 ^ k
  let r := n % 2 ^ k
  if 2 * r < 2 ^ k then q else if 2 ^ k < 2 * r then q + 1 else q + q % 2

/-- The fp32 pattern nearest to `n * 2^-k` units of 2^-149, ties to even; beyond the largest finite, infinity. -/
def f32Round (neg : Bool) (n k : Nat) : Word :=
  let e := Nat.log2 (n / 2 ^ k) - 23
  let b := roundHalfEven n (k + e) + e * 2 ^ 23
  BitVec.ofNat 32 ((if 0x7F800000 ≤ b then 0x7F800000 else b) + b2n neg * 2 ^ 31)

/-- The fp32 pattern nearest to an integer of units of 2^-149; zero is +0. -/
def f32OfUnits (v : Int) : Word := f32Round (decide (v < 0)) v.natAbs 0

/-- fp32 sum, one rounding (R257). -/
def f32Add (a b : Word) : Word :=
  if f32IsNaN a || f32IsNaN b then f32NaN
  else if f32IsInf a then if f32IsInf b && f32Neg a != f32Neg b then f32NaN else a
  else if f32IsInf b then b
  else if a = 0x80000000 ∧ b = 0x80000000 then a
  else f32OfUnits (f32Units a + f32Units b)

/-- fp32 negation. -/
def f32Negate (a : Word) : Word := a ^^^ 0x80000000

/-- fp32 product, one rounding (R257). -/
def f32Mul (a b : Word) : Word :=
  let neg := f32Neg a != f32Neg b
  if f32IsNaN a || f32IsNaN b then f32NaN
  else if f32IsInf a || f32IsInf b then
    if (!f32IsInf a && f32Mag a == 0) || (!f32IsInf b && f32Mag b == 0) then f32NaN
    else BitVec.ofNat 32 (0x7F800000 + b2n neg * 2 ^ 31)
  else f32Round neg (f32Mag a * f32Mag b) 149

/-- Two to the minus `s` as fp32, `s` at most 126. -/
def f32Pow2Neg (s : Nat) : Word := BitVec.ofNat 32 ((127 - s) * 2 ^ 23)

/-! ## Inkkeys -/

/-- The NaN key (R270). -/
def nanKey : Word := 0xFFFFFFFF

/-- Key of an fp32 pattern (Table 12.1). -/
def keyF32 (w : Word) : Word :=
  if f32IsNaN w then nanKey
  else if w = 0x80000000 then 0x80000000
  else if f32Neg w then w ^^^ 0xFFFFFFFF else w ^^^ 0x80000000

/-- An fp16 pattern widened exactly to fp32, subnormals included. -/
def widenF16 (h : Nat) : Word :=
  let s := bits h 15 15
  let e := bits h 14 10
  let m := bits h 9 0
  if e = 31 then BitVec.ofNat 32 (s * 2 ^ 31 + 0x7F800000 + m * 2 ^ 13)
  else if e = 0 then BitVec.ofNat 32 (s * 2 ^ 31 + (f32Round false (m * 2 ^ 125) 0).toNat)
  else BitVec.ofNat 32 (s * 2 ^ 31 + (e + 112) * 2 ^ 23 + m * 2 ^ 13)

/-- Key of an fp16 pattern. -/
def keyF16 (w : Word) : Word := keyF32 (widenF16 (w.toNat % 2 ^ 16))

/-- Key of a bf16 pattern. -/
def keyBf16 (w : Word) : Word := keyF32 (w <<< 16)

/-- Key of an int32. -/
def keyS32 (w : Word) : Word := if w = 0x7FFFFFFF then 0xFFFFFFFE else w ^^^ 0x80000000

/-- Key of a uint32. -/
def keyU32 (w : Word) : Word := if w = 0xFFFFFFFF then 0xFFFFFFFE else w

/-- The inverse of `keyF32` (R252, R270). -/
def unkeyF32 (k : Word) : Word :=
  if k = nanKey then f32NaN else if k.msb then k ^^^ 0x80000000 else k ^^^ 0xFFFFFFFF

/-- The inverse of `keyS32`, sign-extended (R252). -/
def unkeyS32 (k : Word) : DWord := (k ^^^ 0x80000000).signExtend 64

/-- Key of a value with a value-port type tag (Table 3.9). -/
def keyOfTag (tag : Nat) (w : Word) : Word :=
  if tag = 0 then keyU32 w else if tag = 1 then keyS32 w else if tag = 2 then keyF32 w
  else if tag = 3 then keyF16 w else if tag = 4 then keyBf16 w else nanKey

/-! ## Scalar operations (Table 11.1) -/

/-- The low 32 bits of a register. -/
def lo32 (a : DWord) : Word := a.setWidth 32

/-- One or zero. -/
def flagD (c : Bool) : DWord := if c then 1 else 0

/-- `add`. -/
def aluAdd (a b : DWord) : DWord := a + b
/-- `sub`. -/
def aluSub (a b : DWord) : DWord := a - b
/-- `and`. -/
def aluAnd (a b : DWord) : DWord := a &&& b
/-- `or`. -/
def aluOr (a b : DWord) : DWord := a ||| b
/-- `xor`. -/
def aluXor (a b : DWord) : DWord := a ^^^ b
/-- `shl`: by the count's low six bits. -/
def aluShl (a b : DWord) : DWord := a <<< (b.toNat % 64)
/-- `shr`: zeros fill. -/
def aluShr (a b : DWord) : DWord := a >>> (b.toNat % 64)
/-- `sra`: the sign bit fills. -/
def aluSra (a b : DWord) : DWord := a.sshiftRight (b.toNat % 64)
/-- `mul`: low half. -/
def aluMul (a b : DWord) : DWord := a * b
/-- `mulh`: high half of the signed product. -/
def aluMulh (a b : DWord) : DWord := BitVec.ofInt 64 (a.toInt * b.toInt / 2 ^ 64)
/-- `mulhu`: high half of the unsigned product. -/
def aluMulhu (a b : DWord) : DWord := BitVec.ofNat 64 (a.toNat * b.toNat / 2 ^ 64)
/-- `min`, signed. -/
def aluMin (a b : DWord) : DWord := if a.slt b then a else b
/-- `max`, signed. -/
def aluMax (a b : DWord) : DWord := if a.slt b then b else a
/-- `minu`. -/
def aluMinu (a b : DWord) : DWord := if a.ult b then a else b
/-- `maxu`. -/
def aluMaxu (a b : DWord) : DWord := if a.ult b then b else a
/-- `slt`. -/
def aluSlt (a b : DWord) : DWord := flagD (a.slt b)
/-- `sltu`. -/
def aluSltu (a b : DWord) : DWord := flagD (a.ult b)
/-- `seq`. -/
def aluSeq (a b : DWord) : DWord := flagD (a == b)

/-! ## Vectors as lists of 64 lanes -/

/-- 64 lanes made lane by lane. -/
def lanes (f : Nat → Word) : List Word := (List.range 64).map f

/-- A lane of a vector. -/
def lane (v : List Word) (i : Nat) : Word := v.getD i 0

/-- The lower median of a list of numbers (R258): the element at sorted index (n - 1) div 2. -/
def lowerMedian (xs : List Nat) : Nat :=
  (sortUp (fun a b => decide (a ≤ b)) xs).getD ((xs.length - 1) / 2) 0

/-! ## Whole square roots -/

/-- One bit of the square root, from the highest: `r` so far, `b` the bit's weight. -/
def sqrtBit (n r b : Nat) : Nat := if (r + 2 ^ b) * (r + 2 ^ b) ≤ n then r + 2 ^ b else r

/-- The largest whole number whose square is at most `n`, for `n` below 2^512. -/
def sqrtDown (n : Nat) : Nat := ((List.range 256).reverse).foldl (sqrtBit n) 0

/-- The smallest whole number whose square is at least `n`. -/
def sqrtUp (n : Nat) : Nat := let r := sqrtDown n; if r * r = n then r else r + 1

end Sys2Proof.Machine
end

