-- ==== Sys2Proof/Machine/Heartbeat.lean ====
section
/-!
DEFINITION. Sys2Proof/Machine/Heartbeat.lean: the watch over the host's heartbeat (R46, R393, R394).
-/

namespace Sys2Proof.Machine

/-- Whether the heartbeat watch runs (R393). -/
def Leaf.hbRuns (l : Leaf) : Bool :=
  l.flag GlR.HB_CTL_EN && l.hard.hbEn && l.pins.hostIsoN && l.timeRuns

/-- PERIOD and MISS as the watch reads them. -/
def Leaf.hbLatch (l : Leaf) : Leaf :=
  { l with hb := { l.hb with period := l.fld GlR.HB_CTL_PERIOD, miss := l.fld GlR.HB_CTL_MISS } }

/-- A change around which the watch may stop or resume: a stop is remembered until the next beat, a resume starts the
interval afresh and reads PERIOD and MISS (R393). -/
def Leaf.hbAround (f : Leaf → Leaf) (l : Leaf) : Leaf :=
  let l' := f l
  if l.hbRuns && !l'.hbRuns then { l' with hb := { l'.hb with iso := true } }
  else if !l.hbRuns && l'.hbRuns then Leaf.hbLatch { l' with hb := { l'.hb with ival := l'.time.clk } }
  else l'

/-- Body of a HANG record (Table 17.2). -/
def Leaf.hangBody (l : Leaf) (event hungAt : Nat) : List Byte :=
  leB 1 event ++ leB 1 (l.fld GlR.HB_STAT_MISSED) ++ leB 2 l.hb.period ++ leB 1 (b2n l.hb.iso) ++ leB 3 l.hb.miss ++
  leB 8 l.hb.lastBeat ++ leB 4 (l.fld GlR.HB_BEATS_COUNT) ++ leB 4 0 ++ leB 8 hungAt

/-- A beat while the watch runs: MISSED is zero again, a hang is over, the interval restarts (R393). -/
def Leaf.hbBeat (l : Leaf) : Leaf :=
  let l := if l.flag GlR.HB_STAT_HUNG then
      (l.record 3 0x0601 0 (l.hangBody 2 l.hb.hungAt)).setFld GlR.HB_STAT_HUNG 0
    else l
  let l := (l.setFld GlR.HB_STAT_MISSED 0).hbLatch
  { l with hb := { l.hb with ival := l.time.clk, iso := false, lastBeat := l.time.ns } }

/-- A transition of `hb_tog` (R46): a beat when it is the first, or at least 100 ns after the one last counted. -/
def Leaf.hbToggle (l : Leaf) : Leaf :=
  if !(l.pins.hostIsoN && l.hard.hbEn) then l
  else if (l.hb.lastTog.elim true (fun t => decide (t + 100 ≤ l.time.clk))) then
    let l := { l with hb := { l.hb with lastTog := some l.time.clk } }.addMod GlR.HB_BEATS_COUNT 1
    if l.hbRuns then l.hbBeat
    else Leaf.hbLatch { l with hb := { l.hb with lastBeat := l.time.ns, iso := true } }
  else l

/-- The interval reaches PERIOD (R393). -/
def Leaf.hbExpire (l : Leaf) : Leaf :=
  if !l.hbRuns then l
  else
    let l := { l with hb := { l.hb with ival := l.time.clk } }.addSat GlR.HB_STAT_MISSED 1
    if l.fld GlR.HB_STAT_MISSED = max 1 l.hb.miss ∧ !l.flag GlR.HB_STAT_HUNG then
      let l := (l.setFld GlR.HB_STAT_HUNG 1).addSat GlR.HB_STAT_HANGS 1
      let l := l.record 3 0x0601 0 (l.hangBody 1 0)
      Leaf.alarm 4 none { l with hb := { l.hb with hungAt := l.time.ns } }
    else l

/-- HEARTBEAT_BEAT (R46): a transition of `hb_tog`. -/
def execHeartbeatBeat (s : State) : Host.Outcome State Fault Refusal := .next (s.onLeaf Leaf.hbToggle)

/-- HEARTBEAT_EXPIRY (R393). -/
def execHeartbeatExpiry (s : State) : Host.Outcome State Fault Refusal := .next (s.onLeaf Leaf.hbExpire)

end Sys2Proof.Machine
end

