-- ==== Sys2Proof/Machine/Time.lean ====
section
/-!
DEFINITION. Sys2Proof/Machine/Time.lean: the leaf's time base, servo, sources and Reed hop delays
(R106 to R117, R425), and the alarm bucket's refill (R171).
-/

namespace Sys2Proof.Machine

/-- Frame period of a period code in ns (R27). -/
def periodNs (pn : Nat) : Nat := 50000 * 2 ^ pn

/-- Period in force at the leaf (R96). -/
def Leaf.period (l : Leaf) : Nat := periodNs (l.fld GlR.QL_CTL_ACT_PN)

/-- Aligned time moved forward to `t`, the interval clock with it; never back. -/
def Leaf.advanceTo (t : Nat) (l : Leaf) : Leaf :=
  if l.time.ns < t then { l with time := { l.time with ns := t, clk := l.time.clk + (t - l.time.ns) } } else l

/-- Frequency adjustment in force, parts per 10^9 (R425). -/
def Leaf.adj (l : Leaf) : Int := sgn 32 (l.reg 0x101C).toNat

/-- One ns of true time at the leaf (R106, R108, R425): while the time base runs it gains (1 - adj * 10^-9) ns; the
interval clock gains the same, or one ns on the fallback timer's design rate. -/
def Leaf.tick (l : Leaf) : Leaf :=
  if l.timeRuns then
    let u := l.time.sub + (1000000000 - l.adj).toNat
    let n := u / 1000000000
    { l with time := { l.time with ns := l.time.ns + n, sub := u % 1000000000, clk := l.time.clk + n } }
  else { l with time := { l.time with clk := l.time.clk + 1 } }

/-- `step_ns` (Table 5.13). -/
def Leaf.stepNs (l : Leaf) : Int := 250 * (max 1 (l.fld GlR.TM_SERVO_STEP) : Nat)

/-- LOCKED or HOLD is left for ACQUIRE or FREE: LOSTLOCK sets (R116). -/
def Leaf.loseLock (rcpt : Nat) (l : Leaf) : Leaf :=
  (((l.setFld GlR.TM_STAT_STATE rcpt).setEvent GlR.TM_STAT_LOSTLOCK 300).setFld GlR.TM_STAT_LOCKRUN 0)

/-- Whether the servo is LOCKED or in HOLD. -/
def Leaf.heldLock (l : Leaf) : Bool :=
  l.fld GlR.TM_STAT_STATE == svLocked || l.fld GlR.TM_STAT_STATE == svHold

/-- The loop of `servo_sample` (R425). -/
def Leaf.servoLoop (th : Int) (l : Leaf) : Leaf :=
  let kp := l.fld GlR.TM_SERVO_KP
  let ki := l.fld GlR.TM_SERVO_KI
  let integ := clampI (-200000) 200000 (l.time.integ + th / 2 ^ ki)
  let adj := clampI (-200000) 200000 (integ + th / 2 ^ kp)
  let near := decide (-500 ≤ th ∧ th ≤ 500)
  let good := if near then l.time.good + 1 else 0
  let st := l.fld GlR.TM_STAT_STATE
  let l := { l with time := { l.time with integ := integ, good := good } }
  let l := l.setReg 0x101C (BitVec.ofNat 32 (unsgn 32 adj))
  let l := if l.heldLock && !near then l.loseLock svAcquire
    else if st = svHold then l.setFld GlR.TM_STAT_STATE svLocked else l
  if l.fld GlR.TM_STAT_STATE ≠ svLocked ∧ 16 ≤ good then l.setFld GlR.TM_STAT_STATE svLocked else l

/-- An accepted offset sample, in 1/16 ns (R117, R425): from FREE and above `step_ns` it asks for a phase step,
otherwise it goes through the loop. A sample that meets a waiting step replaces or cancels it. -/
def Leaf.servoSample (th16 : Int) (l : Leaf) : Leaf :=
  let th := th16 / 16
  let l := l.setReg 0x1018 (BitVec.ofNat 32 (unsgn 32 (clampI (-2147483648) 2147483647 th16)))
  let big := decide (l.stepNs < th ∨ th < -l.stepNs) && !l.flag GlR.TM_CTL_STEP_INH
  match l.time.stepPend with
  | some (_, fromFree) =>
    if big then { l with time := { l.time with stepPend := some (th, fromFree) } }
    else Leaf.servoLoop th { l with time := { l.time with stepPend := none } }
  | none =>
    if l.fld GlR.TM_STAT_STATE = svFree then
      { l with time := { l.time with stepPend := some (th, true), good := 0 } }.setFld GlR.TM_STAT_STATE svAcquire
    else if big then
      let l := { l with time := { l.time with stepPend := some (th, false), good := 0 } }
      if l.heldLock then l.loseLock svAcquire else l.setFld GlR.TM_STAT_STATE svAcquire
    else l.servoLoop th

/-- Aligned time in 1/16 ns. -/
def Leaf.now16 (l : Leaf) : Int := (16 * l.time.ns + 16 * l.time.sub / 1000000000 : Nat)

/-- Whether the uplink exchange is usable: a sample within 64 frame periods, not restricted to REED (R114). -/
def Leaf.upUsable (l : Leaf) : Bool :=
  l.time.lastUp.isSome && (l.isMaster || l.fld GlR.TM_CTL_SRC != 2)

/-- Whether Reed ticks are usable as a source: a tick within 4 intervals, not restricted to UPLINK, not the master. -/
def Leaf.reedUsable (l : Leaf) : Bool :=
  l.time.lastTick.isSome && !l.isMaster && l.fld GlR.TM_CTL_SRC != 1

/-- SOURCE in use (R114): UPLINK before REED. -/
def Leaf.pickSource (l : Leaf) : Leaf :=
  l.setFld GlR.TM_STAT_SOURCE (if l.upUsable then 1 else if l.reedUsable then 2 else 0)

/-- The offset sample of a time cell in 1/16 ns, with d_dn + d_up (R109); none when it is discarded. -/
def Leaf.exchange (m : TimeCell) (l : Leaf) : Option (Int × Int) :=
  match l.time.t3.find? (fun p => p.1 == m.fseq) with
  | none => none
  | some (_, t3) =>
    if !l.hard.tmMode && (m.rUp == 0xFFFFFFFF || m.rDn == 0xFFFFFFFF) then none
    else
      let rd : Int := 16 * (if l.hard.tmMode then l.hard.tmFixed.toNat else m.rDn.toNat)
      let ru : Int := 16 * (if l.hard.tmMode then l.hard.tmFixed.toNat else m.rUp.toNat)
      let ddn : Int := m.t2 - m.t1 - rd
      let dup : Int := m.t4 - t3 - ru
      if !l.time.sums.isEmpty && decide (median l.time.sums + 800 < ddn + dup) then none
      else some ((ddn - dup + sgn 32 m.asym.toNat) / 2, ddn + dup)

/-- TIME_CELL_RX (R109, R114). Without a running time base there are no stamps and the cell is discarded. -/
def execTimeCellRx (m : TimeCell) (s : State) : Host.Outcome State Fault Refusal :=
  .next (s.onLeaf fun l =>
    if !l.timeRuns then l
    else match l.exchange m with
      | none => l
      | some (th, sum) =>
        let l := l.addMod GlR.TM_EXCH_EXCH 1
        let l := { l with time := { l.time with sums := (sum :: l.time.sums).take 16, upTheta := some th
                                                lastUp := some l.time.clk } }
        let l := l.pickSource
        onlyIf l.upUsable (Leaf.servoSample th) l)

/-- Hop delay H of a port in 1/16 ns (R112): the median of the last 256 measurements plus the port's trim. -/
def Leaf.hopDelay (l : Leaf) (p : Bool) : Int :=
  let trim := if p then sgn 16 (l.fld GlR.PT_TRIM_TRIM_B) else sgn 16 (l.fld GlR.PT_TRIM_TRIM_A)
  median (l.port p).meas + trim

/-- Whether a port is wired (R131). -/
def Leaf.wired (l : Leaf) (p : Bool) : Bool := bit l.pins.reedcon.toNat (b2n p)

/-- A measurement of a transfer (R112): Q of this end, the neighbour's Z. -/
def Leaf.measure (p : Bool) (q z : Nat) (l : Leaf) : Leaf :=
  let r := l.port p
  let l := l.setPort p { r with meas := (((q : Int) - z) / 2 :: r.meas).take 256 }
  l.setFld (if p then GlR.TM_HOP_HOP_B else GlR.TM_HOP_HOP_A)
    (if l.wired p then unsgn 16 (l.hopDelay p) else 0)

/-- The smaller hop count over the directions whose TICK still arrives (R135), shown in HOPS. -/
def Leaf.showHops (l : Leaf) : Leaf :=
  l.setFld GlR.TM_EXCH_HOPS (match l.chain.portA.hops, l.chain.portB.hops with
    | none, none => 0
    | some a, none => a
    | none, some b => b
    | some a, some b => min a b)

/-- A REED offset sample of a tick that carried `t16` (R112, R114): steering when REED is in use, and the check
against UPLINK on 16 consecutive ticks. -/
def Leaf.reedSample (th : Int) (l : Leaf) : Leaf :=
  let l := { l with time := { l.time with reedTheta := some th, lastTick := some l.time.clk } }
  let l := l.pickSource
  if !l.timeRuns || !l.reedUsable then l
  else if l.upUsable then
    let up := l.time.upTheta.getD 0
    let apart := decide (1600 < up - th ∨ up - th < -1600)
    let run := if apart then l.time.xrun + 1 else 0
    if 16 ≤ run then
      let l := { l with time := { l.time with xrun := 0 } }
      let l := (l.setEvent GlR.TM_STAT_XCHK 302).addSat GlR.TM_EXCH_XCNT 1
      l.record 0 0x0201 0 (leB 4 (unsgn 32 up) ++ leB 4 (unsgn 32 th))
    else { l with time := { l.time with xrun := run } }
  else l.servoSample th

/-- SOURCE_TIMEOUT (R114, R116): a source with no sample in 64 frame periods, or no tick in 4 intervals, is no longer
usable; from LOCKED with none left the leaf enters HOLD. -/
def execSourceTimeout (reed : Bool) (s : State) : Host.Outcome State Fault Refusal :=
  .next (s.onLeaf fun l =>
    let l := if reed then { l with time := { l.time with lastTick := none } }
      else { l with time := { l.time with lastUp := none } }
    let l := l.pickSource
    if l.fld GlR.TM_STAT_SOURCE = 0 ∧ l.fld GlR.TM_STAT_STATE = svLocked then
      { l with time := { l.time with holdAt := l.time.clk } }.setFld GlR.TM_STAT_STATE svHold
    else l)

/-- HOLD_EXPIRY (R116): HOLD has run for `GL_TM_SERVO.HOLD`; the servo enters FREE. Outside HOLD, nothing. -/
def execHoldExpiry (s : State) : Host.Outcome State Fault Refusal :=
  .next (s.onLeaf fun l => onlyIf (l.fld GlR.TM_STAT_STATE = svHold) (Leaf.loseLock svFree) l)

/-- The time base stops or cannot run: after it has once run, lock counts again only after 256 periods (R116). -/
def Leaf.lockAgain (l : Leaf) : Leaf :=
  { l with time := { l.time with lockWait := l.time.lockWait || l.time.everRan } }.setFld GlR.TM_STAT_LOCKRUN 0

/-- REFCLK_LOST (R52). -/
def execRefclkLost (s : State) : Host.Outcome State Fault Refusal :=
  .next (s.onLeaf (Leaf.hbAround fun l =>
    let l := { l with pins := { l.pins with refclk := false } }
    (((l.setEvent GlR.IDENT_STATUS_REFCLK_LOST 305).lockAgain).alarm 2 none)))

/-- REFCLK_RESTORED (R106): the time base resumes from the value it kept. -/
def execRefclkRestored (s : State) : Host.Outcome State Fault Refusal :=
  .next (s.onLeaf (Leaf.hbAround fun l => { l with pins := { l.pins with refclk := true } }))

/-- A write of KHZ (R106, R107): out of range, nothing; in range, the time base runs. -/
def Leaf.khzWrite (khz : Nat) (l : Leaf) : Leaf :=
  if 25000 ≤ khz ∧ khz ≤ 200000 then
    let l := (l.setFld GlR.TM_REFFREQ_KHZ khz).setFld GlR.TM_STAT_NOFREQ 0
    { l with time := { l.time with everRan := true } }
  else l

/-- REFFREQ_WRITE (R107). -/
def execReffreqWrite (p : Port) (data : Word) (s : State) : Host.Outcome State Fault Refusal :=
  .next (s.onLeaf (Leaf.hbAround (Leaf.guarded p 0x1008 true (Leaf.khzWrite (bits data.toNat 17 0)))))

/-- FALLBACK_CALIBRATE (R108): the measured rate of the fallback timer is kept while the time base runs. -/
def execFallbackCalibrate (ratio : Nat) (s : State) : Host.Outcome State Fault Refusal :=
  .next (s.onLeaf fun l => if l.timeRuns then { l with time := { l.time with ratio := ratio } } else l)

/-- ALARM_CREDIT (R171): one credit after 500 µs of the time base, or at every tenth Reed tick while it does not run;
a waiting SUPPRESSED alarm takes it at once. -/
def execAlarmCredit (s : State) : Host.Outcome State Fault Refusal :=
  .next (s.onLeaf fun l =>
    if l.timeRuns || decide (10 ≤ l.ul.tickCnt) then
      let l := { l with ul := { l.ul with tickCnt := 0 } }
      let l := l.setFld GlR.UL_ALM_CREDIT (min 64 (l.fld GlR.UL_ALM_CREDIT + 1))
      if l.ul.supp then ({ l with ul := { l.ul with supp := false } }).sendAlarm 1 else l
    else l)

end Sys2Proof.Machine
end

