-- ==== Sys2Proof/Machine/Quill.lean ====
section
/-!
DEFINITION. Sys2Proof/Machine/Quill.lean: slice tables, arming, the local model's directory, capture windows and the
frame (R87 to R104, R287, R288, R424).
-/

namespace Sys2Proof.Machine

/-! ## Uncorrectable words (R389) -/

/-- The code-word address of a word known uncorrectable in the leaf. -/
def Leaf.badAt (l : Leaf) (a : LeafArray) : Option (BitVec 16) :=
  (l.ecc.bad.find? (fun p => decide (p.1 = a))).map Prod.snd

/-- Whether the leaf knows a word as uncorrectable. -/
def Leaf.isBad (l : Leaf) (a : LeafArray) : Bool := (l.badAt a).isSome

/-- A consumer meets an uncorrectable word (R389): counted, recorded, and alarmed once until it is rewritten. -/
def Leaf.uncorr (a : LeafArray) (code origin : Nat) (body : List Byte) (l : Leaf) : Leaf :=
  let l := l.addSat GlR.EC_STAT_UE 1
  let l := (l.setFld GlR.EC_LAST_VALID 1).setFld GlR.EC_LAST_WORD ((l.badAt a).getD 0).toNat
  let l := l.record 0 code origin body
  if l.ecc.alarmed.any (fun b => decide (b = a)) then l
  else Leaf.alarm 3 none { l with ecc := { l.ecc with alarmed := a :: l.ecc.alarmed } }

/-- A byte that fails its parity (R390): counted and recorded with an address, an array and the scrub bit. -/
def Leaf.parity (addr array scrub : Nat) (l : Leaf) : Leaf :=
  (l.addSat GlR.EC_STAT_PAR 1).record 0 0x0105 0 (leB 4 addr ++ leB 1 array ++ leB 1 scrub)

/-! ## Slices, pages, budgets -/

/-- Active bank: true for B. -/
def Leaf.actBank (l : Leaf) : Bool := l.flag GlR.QL_CTL_ACT_BANK

/-- Slice table of a bank. -/
def Leaf.slices (l : Leaf) (b : Bool) : Tbl Word := if b then l.quill.sliceB else l.quill.sliceA

/-- Slice entry of a channel (Table 4.15). -/
def Leaf.slice (l : Leaf) (b : Bool) (c : Nat) : Nat := (tget (l.slices b) c).toNat

/-- EN of a slice entry. -/
def slEn (w : Nat) : Bool := bit w 31
/-- BUDGET. -/
def slBudget (w : Nat) : Nat := bits w 30 24
/-- FBASE. -/
def slFbase (w : Nat) : Nat := bits w 23 16
/-- FCNT. -/
def slFcnt (w : Nat) : Nat := bits w 15 11
/-- RED. -/
def slRed (w : Nat) : Bool := bit w 10
/-- ALM. -/
def slAlm (w : Nat) : Bool := bit w 9

/-- Enabled entries of a table, by rising channel. -/
def enabledOf (t : Tbl Word) : List (Nat × Nat) :=
  (t.map (fun p => (p.1, p.2.toNat))).filter (fun p => slEn p.2)

/-- Sum of (BUDGET + 2) over the enabled entries (R89). -/
def budgetSum (t : Tbl Word) : Nat := (enabledOf t).foldl (fun n p => n + slBudget p.2 + 2) 0

/-- L(P) of a period code (R89), saturating at 0xFFFF (Table 4.10). -/
def budgetLimit (pn : Nat) : Nat := min 0xFFFF (250 * (50 * 2 ^ pn - 4))

/-- A word of the program memory: page and word in the page. -/
def Leaf.pageWord (l : Leaf) (page w : Nat) : Word := tget l.quill.pages (2048 * page + w)

/-- First page of a bank's programs. -/
def bankPage (b : Bool) : Nat := if b then 8 else 0

/-- Word `i` of a channel's program in a bank (channel c starts at byte 256c). -/
def Leaf.progWord (l : Leaf) (b : Bool) (c i : Nat) : Word := tget l.quill.pages (2048 * bankPage b + 64 * c + i)

/-- The code word that holds word `w` of a page. -/
def progCw (page w : Nat) : LeafArray := .prog (BitVec.ofNat 6 page) (BitVec.ofNat 8 (w / 8))

/-! ## The arming check (R95, Table 4.7) -/

/-- Whether two enabled entries claim one field. -/
def rangesMeet (a b : Nat) : Bool :=
  decide (slFbase a < slFbase b + slFcnt b ∧ slFbase b < slFbase a + slFcnt a)

/-- Whether the entries of a list overlap pairwise nowhere. -/
def noOverlap : List Nat → Bool
  | [] => true
  | a :: t => t.all (fun b => !rangesMeet a b) && noOverlap t

/-- Whether an enabled entry is valid in itself. -/
def entryOk (w : Nat) : Bool :=
  decide (0 < slBudget w ∧ slFcnt w ≤ 16 ∧ slFbase w + slFcnt w ≤ 256)

/-- The words that a walk reaches from word `i` in one move (R95). -/
def wordNext (w : Word) (i : Nat) : List Nat :=
  match decodeJarend .quill w with
  | some (.finish _ _) => []
  | some (.beq _ f) | some (.bne _ f) | some (.blt _ f) | some (.bge _ f) | some (.bltu _ f) | some (.bgeu _ f) =>
    let t := (i : Int) + f.off.toInt
    (i + 1) :: (if 0 ≤ t ∧ t < 64 then [t.toNat] else [])
  | _ => [i + 1]

/-- Words reachable from word 0 of a channel of 64 words; `fuel` moves. -/
def reachWords (w : Nat → Word) : Nat → List Nat → List Nat → List Nat
  | 0, seen, _ => seen
  | _ + 1, seen, [] => seen
  | n + 1, seen, i :: todo =>
    if 64 ≤ i || seen.any (· == i) then reachWords w n seen todo
    else reachWords w n (i :: seen) (wordNext (w i) i ++ todo)

/-- Whether a word is Jarend-L of edition 1.2 (R227). -/
def isWordL (w : Word) : Bool :=
  match decodeJarend .quill w with
  | some i => jarProfileL i && jarRegsL i
  | none => false

/-- Whether every reachable word of a channel lies within Jarend-L. -/
def Leaf.chanIsL (l : Leaf) (b : Bool) (c : Nat) : Bool :=
  (reachWords (l.progWord b c) 256 [] [0]).all (fun i => isWordL (l.progWord b c i))

/-- ARM_ERR of an arming of the inactive bank; 0 passes. -/
def Leaf.armErr (l : Leaf) (a : Arming) : Nat :=
  let b := !l.actBank
  let es := enabledOf (l.slices b)
  if 4 < a.pn.toNat then 1
  else if !(es.all (fun p => entryOk p.2) && noOverlap (es.map Prod.snd)) then 2
  else if !(es.all (fun p => l.chanIsL b p.1)) then 3
  else if budgetLimit a.pn.toNat < budgetSum (l.slices b) then 4
  else if !laterInk a.epoch l.epoch then 5 else 0

/-- An arming check starts: an earlier arming is cleared. -/
def Leaf.startArm (a : Arming) (ask : Option ArmAsk) (l : Leaf) : Leaf :=
  { l with quill := { l.quill with arming := none, checking := some (a, ask) } }.setFld GlR.QL_CTL_ARMED 0

/-- A write to `GL_QL_ARM_CFG` (R95, Table 4.9). -/
def Leaf.armCfgWrite (data : Nat) (l : Leaf) : Leaf :=
  let l := l.setFld GlR.QL_ARM_CFG_CFG_EP (bits data 15 0)
  if bit data 31 then
    l.startArm { epoch := l.reg 0x9008, cfg := BitVec.ofNat 16 (bits data 15 0)
                 pn := BitVec.ofNat 3 (l.fld GlR.QL_CTL_PEND_PN) } none
  else l

/-- The arming check ends: ARMED, or ARM_FAIL with the first failing condition; an ARM message is answered. -/
def Leaf.armEnd (l : Leaf) : Leaf :=
  match l.quill.checking with
  | none => l
  | some (a, ask) =>
    let e := l.armErr a
    let l := { l with quill := { l.quill with checking := none, arming := if e = 0 then some a else none } }
    let l := l.setFld GlR.QL_STAT_ARM_ERR e
    let l := if e = 0 then (l.setFld GlR.QL_CTL_ARMED 1).event 296 else l.setEvent GlR.QL_STAT_ARM_FAIL 297
    match ask with
    | none => l
    | some k => l.answer k.sender k.cseq 2 (b2n (e != 0)) e k.cfg

/-- A write to the inactive bank while it is armed disarms it (R94). -/
def Leaf.disarm (l : Leaf) : Leaf :=
  if l.flag GlR.QL_CTL_ARMED then
    ({ l with quill := { l.quill with arming := none } }.setFld GlR.QL_CTL_ARMED 0).setFld GlR.QL_STAT_DISARM 1
  else l

/-- A write to the slice entry of a channel, which reaches the inactive bank (R94). -/
def Leaf.sliceWrite (c : Nat) (data : Word) (l : Leaf) : Leaf :=
  let w := data &&& 0xFFFFFE00
  let l := l.disarm
  if l.actBank then { l with quill := { l.quill with sliceA := tput l.quill.sliceA c w } }
  else { l with quill := { l.quill with sliceB := tput l.quill.sliceB c w } }

/-! ## The local model (R272, R287, R288) -/

/-- Node `i` of the local model: 64 bits at 0x4_0000 + 8i of the constant space. -/
def Leaf.lmNode (l : Leaf) (i : Nat) : Nat :=
  (tget l.quill.pages (2048 * 48 + 2 * i)).toNat + (tget l.quill.pages (2048 * 48 + 2 * i + 1)).toNat * 2 ^ 32

/-- Directory entry of a tree. -/
def Leaf.lmDir (l : Leaf) (t : Nat) : Nat := (tget l.quill.pages (2048 * 40 + t)).toNat

/-- The code word of a local model node. -/
def modelCw (i : Nat) : LeafArray := .model (BitVec.ofNat 6 (48 + i / 1024)) (BitVec.ofNat 8 (i % 1024 / 4))

/-- LEAF of a node (Tables 12.3, 12.4). -/
def ndLeaf (n : Nat) : Bool := bit n 2
/-- FEAT. -/
def ndFeat (n : Nat) : Nat := bits n 63 52
/-- THRESH. -/
def ndThresh (n : Nat) : Nat := bits n 51 20
/-- OFF. -/
def ndOff (n : Nat) : Nat := bits n 19 3
/-- NANDIR. -/
def ndNan (n : Nat) : Bool := bit n 1
/-- SCORE. -/
def ndScore (n : Nat) : Word := BitVec.ofNat 32 (bits n 63 32)
/-- CLASS. -/
def ndClass (n : Nat) : Nat := bits n 31 16

/-- The walk of R272 from node `i` with at most `d` levels left: the index after the subtree, or the failure code of
Table 12.13. -/
def lmWalk (node : Nat → Nat) (bad : Nat → Bool) (size : Nat) : Nat → Nat → Except Nat Nat
  | 0, _ => .error 1
  | d + 1, i =>
    if size ≤ i then .error 2
    else if bad i then .error 6
    else
      let n := node i
      if ndLeaf n then
        if bits n 15 3 ≠ 0 ∨ bits n 1 0 ≠ 0 then .error 5
        else if f32IsNaN (ndScore n) || f32IsInf (ndScore n) then .error 4
        else .ok (i + 1)
      else if bit n 0 then .error 5
      else match lmWalk node bad size d (i + 1) with
        | .error e => .error e
        | .ok r => if i + ndOff n = r then lmWalk node bad size d r else .error 2

/-- Depth bound D of the local model. -/
def Leaf.lmD (l : Leaf) : Nat := l.fld GlR.QL_LM_CTL_D

/-- The walk of a tree of the local model. -/
def Leaf.lmTree (l : Leaf) (root : Nat) : Except Nat Nat :=
  lmWalk l.lmNode (fun i => l.isBad (modelCw i)) 16384 l.lmD root

/-- Directory entries that are VALID, with their trees. -/
def Leaf.lmValid (l : Leaf) : List (Nat × Nat) :=
  (l.quill.pages.filter (fun p => decide (2048 * 40 ≤ p.1 ∧ p.1 < 2048 * 48) && p.2.msb)).map
    (fun p => (p.1 - 2048 * 40, p.2.toNat))

/-- Node ranges of the live trees, the tree of entry `but` left out (R287). -/
def Leaf.lmLive (l : Leaf) (but : Option Nat) : List (Nat × Nat) :=
  (l.lmValid.filter (fun p => some p.1 != but)).filterMap (fun p =>
    match lmWalk l.lmNode (fun _ => false) 16384 l.lmD (bits p.2 13 0) with
    | .ok e => some (bits p.2 13 0, e)
    | .error _ => none)

/-- Whether a node belongs to a live tree. -/
def Leaf.lmIsLive (l : Leaf) (i : Nat) : Bool := (l.lmLive none).any (fun r => decide (r.1 ≤ i ∧ i < r.2))

/-- The check of a new directory entry (R287): 0 passes, else the code of Table 12.13. -/
def Leaf.lmCheck (l : Leaf) (t w : Nat) : Nat :=
  if bits w 30 14 ≠ 0 then 2
  else match l.lmTree (bits w 13 0) with
    | .error e => e
    | .ok e =>
      if (l.lmLive (some t)).any (fun r => decide (r.1 < e ∧ bits w 13 0 < r.2)) then 3 else 0

/-- The running checks replaced; CHECKS shows their number. -/
def Leaf.lmSetLanes (ls : List (Nat × (Nat × Word))) (l : Leaf) : Leaf :=
  { l with quill := { l.quill with lmLanes := ls } }.setFld GlR.QL_LM_STAT_CHECKS ls.length

/-- A page word stored. -/
def Leaf.pagePut (page w : Nat) (data : Word) (l : Leaf) : Leaf :=
  { l with quill := { l.quill with pages := tput l.quill.pages (2048 * page + w) data } }

/-- A write to directory entry `t` (R287): with VALID at 0 stored at once, else checked on a free lane of 1 to 7. -/
def Leaf.lmDirWrite (t : Nat) (data : Word) (l : Leaf) : Leaf :=
  let ls := l.quill.lmLanes.filter (fun p => p.2.1 != t)
  if !data.msb then (l.lmSetLanes ls).pagePut (40 + t / 2048) (t % 2048) data
  else match (List.range 8).find? (fun k => k != 0 && !ls.any (fun p => p.1 == k)) with
    | none => l.setFld GlR.QL_LM_STAT_BUSY 1
    | some k => l.lmSetLanes (ls ++ [(k, (t, data))])

/-- The check on a lane ends (R287): the entry is stored, or CHKFAIL with its cause. -/
def Leaf.lmCheckDone (k : Nat) (l : Leaf) : Leaf :=
  match l.quill.lmLanes.find? (fun p => p.1 == k) with
  | none => l
  | some (_, t, w) =>
    let e := l.lmCheck t w.toNat
    let l := l.lmSetLanes (l.quill.lmLanes.filter (fun p => p.1 != k))
    if e = 0 then l.pagePut (40 + t / 2048) (t % 2048) w
    else ((l.setFld GlR.QL_LM_STAT_ERR e).setFld GlR.QL_LM_STAT_ETREE t).setEvent GlR.QL_LM_STAT_CHKFAIL 299

/-- A word written into a program page (R94, R287, R424): active-bank pages drop it, directory words are checked,
live nodes keep theirs; a partial write to an uncorrectable code word is not applied (R388). -/
def Leaf.pageWrite (page w : Nat) (data : Word) (l : Leaf) : Leaf :=
  if page < 16 then
    if decide (8 ≤ page) == l.actBank then l.setFld GlR.QL_STAT_ACTWR 1
    else if l.isBad (progCw page w) then l.disarm else l.disarm.pagePut page w data
  else if 40 ≤ page ∧ page < 48 then l.lmDirWrite ((page - 40) * 2048 + w) data
  else if 48 ≤ page then
    if l.lmIsLive (((page - 48) * 2048 + w) / 2) then l.setFld GlR.QL_LM_STAT_LIVEWR 1
    else if l.isBad (modelCw (((page - 48) * 2048 + w) / 2)) then l else l.pagePut page w data
  else if l.isBad (progCw page w) then l else l.pagePut page w data

/-- A write through the program window to the page that `GL_QL_PAGE` selects. -/
def Leaf.windowWrite (w : Nat) (data : Word) (l : Leaf) : Leaf := l.pageWrite (l.fld GlR.QL_PAGE_PAGE) w data

/-- A read through the program window (R424). -/
def Leaf.windowRead (l : Leaf) (w : Nat) : Word :=
  let p := l.fld GlR.QL_PAGE_PAGE
  let b := if l.flag GlR.QL_CTL_RDACT then l.actBank else !l.actBank
  if p < 16 then l.pageWord (bankPage b + p % 8) w else l.pageWord p w

/-- A write to `GL_QL_LM_CTL` (R288). -/
def Leaf.lmCtlWrite (data : Nat) (l : Leaf) : Leaf :=
  let was := l.flag GlR.QL_LM_CTL_STAGE
  let l := l.setFld GlR.QL_LM_CTL_STAGE (bits data 31 31)
  let l := onlyIf (was && !bit data 31) (fun l => l.setReg 0x9028 (l.reg 0x902C)) l
  let d := bits data 29 24
  if !l.lmValid.isEmpty then l.setFld GlR.QL_LM_STAT_DERR 1
  else if d ≤ 32 then l.setFld GlR.QL_LM_CTL_D d else l

/-- A write to one of the four local-model registers from 0x9024 on (Tables 12.11 to 12.13). -/
def Leaf.lmRegWrite (i : Nat) (data : Word) (l : Leaf) : Leaf :=
  if i = 0 then l.lmCtlWrite data.toNat
  else if i = 1 then l.setReg 0x9028 data
  else if i = 2 then l.setReg 0x902C data
  else l.setReg 0x9030 (l.reg 0x9030 &&& ~~~(data &&& 0x1E000000))

/-! ## Windows -/

/-- Fields of a channel's range that the window has not written. -/
def Window.missing (w : Window) (sl : Nat) : Bool :=
  (List.range (slFcnt sl)).any (fun i => !w.written.any (· == slFbase sl + i))

/-- Where the kept registers g8 to g15 of a channel of a bank stand. -/
def keptAt (b : Bool) (c : Nat) : Nat := 2048 * b2n b + 8 * c

/-- A channel's slice begins (R90). -/
def Leaf.sliceStart (l : Leaf) (c : Nat) (w : Window) : Window :=
  let sl := l.slice w.bank c
  let kept := (List.range 8).foldl (fun (t : Tbl DWord) i => tput t (8 + i) (tget l.quill.greg (keptAt w.bank c + i))) []
  let g := tput (tput kept 1 (BitVec.ofNat 64 (w.instant % 2 ^ 32))) 2
    (BitVec.ofNat 64 (c + slFbase sl * 2 ^ 8 + slFcnt sl * 2 ^ 16))
  { w with chan := some c, pc := 0, exec := 0, regs := g
           inval := (l.quill.ginval.filter (fun p => p.1 / 8 == keptAt w.bank c / 8)).map (fun p => (8 + p.1 % 8, p.2)) }

/-- A channel that is skipped or stopped counts in the frame (Table 4.5). -/
def Window.stop (missing : Bool) (w : Window) : Window :=
  { w with stopped := min 255 (w.stopped + 1), overrun := true, incompl := w.incompl || missing }

/-- The engine turns to the next enabled channel at or after `c`; disabled ones (DIS) are skipped (Table 4.5). -/
def Leaf.toChan (l : Leaf) (es : List (Nat × Nat)) (w : Window) : Window :=
  match es with
  | [] => { w with chan := none }
  | (c, sl) :: rest =>
    if l.flag (GlR.QL_CHST_DIS.at (4 * c)) then l.toChan rest (w.stop (slFcnt sl != 0))
    else l.sliceStart c w

/-- Enabled channels of the window's bank from `c` on. -/
def Leaf.chansFrom (l : Leaf) (b : Bool) (c : Nat) : List (Nat × Nat) :=
  (enabledOf (l.slices b)).filter (fun p => decide (c ≤ p.1))

/-- EXEC and DONE of every channel cleared as a window opens. -/
def Leaf.clearChst (l : Leaf) : Leaf :=
  (l.regs.filter (fun p => decide (0x9800 ≤ p.1 ∧ p.1 < 0x9C00))).foldl
    (fun l p => (l.setFld (GlR.QL_CHST_DONE.at (p.1 - 0x9800)) 0).setFld (GlR.QL_CHST_EXEC.at (p.1 - 0x9800)) 0) l

/-- The oldest instant's window opens (R88). -/
def Leaf.openWindow (l : Leaf) : Leaf :=
  match l.quill.win, l.quill.pend with
  | none, w :: rest =>
    let l := { l with quill := { l.quill with pend := rest } }.clearChst
    let w := { w with held := l.cap.heldNow }
    { l with quill := { l.quill with win := some (l.toChan (l.chansFrom w.bank 0) w) } }
  | _, _ => l

/-- The running channel's slice ends: g8 to g15 are kept with their valid bits, EXEC is shown, the next channel
runs. -/
def Leaf.sliceEnd (c : Nat) (done : Bool) (w : Window) (l : Leaf) : Leaf :=
  let greg := (List.range 8).foldl (fun t i => tput t (keptAt w.bank c + i) (tget w.regs (8 + i))) l.quill.greg
  let gin := l.quill.ginval.filter (fun p => p.1 / 8 != keptAt w.bank c / 8) ++
    (w.inval.filter (fun p => decide (8 ≤ p.1))).map (fun p => (keptAt w.bank c + p.1 - 8, p.2))
  let l := { l with quill := { l.quill with greg := greg, ginval := gin } }
  let l := (l.setFld (GlR.QL_CHST_EXEC.at (4 * c)) w.exec).setFld (GlR.QL_CHST_DONE.at (4 * c)) (b2n done)
  let w := { w with total := w.total + w.exec + 2 }
  { l with quill := { l.quill with win := some (l.toChan (l.chansFrom w.bank (c + 1)) w) } }

/-- What a stop with a code of Table 4.5 leaves in the registers of its channel. -/
def Leaf.stopStatus (code c : Nat) (l : Leaf) : Leaf :=
  let l := l.addSat (if code = 1 then GlR.QL_CHST_OVR.at (4 * c) else GlR.QL_CHST_FLT.at (4 * c)) 1
  let l := l.setFld (GlR.QL_CHST_LAST_FLT.at (4 * c)) code
  if code = 1 then l.setEvent GlR.QL_STAT_OVERRUN 292
  else if code = 2 ∨ code = 3 then l.setEvent GlR.QL_STAT_PFAULT 293
  else if code = 4 then l.setFld (GlR.QL_CHST_DIS.at (4 * c)) 1
  else l

/-- The running channel is stopped with a code of Table 4.5 (R93). -/
def Leaf.stopChan (code c : Nat) (w : Window) (l : Leaf) : Leaf :=
  let sl := l.slice w.bank c
  let inR : Nat → Bool := fun f => decide (slFbase sl ≤ f ∧ f < slFbase sl + slFcnt sl)
  let w := if code = 4 then { w with fields := w.fields.filter (fun p => !inR p.1)
                                     written := w.written.filter (fun f => !inR f) } else w
  (l.stopStatus code c).sliceEnd c false (w.stop (w.missing sl))

/-- A channel skipped at the deadline. -/
def Leaf.skipLate (x : Leaf × Window) (p : Nat × Nat) : Leaf × Window :=
  (x.1.stopStatus 5 p.1, x.2.stop (x.2.missing p.2))

/-- The deadline of the open window (R88): the running channel is stopped, every later one skipped. -/
def Leaf.deadline (l : Leaf) : Leaf :=
  match l.quill.win with
  | none => l
  | some w =>
    match w.chan with
    | none => l
    | some c =>
      let l := (l.stopChan 5 c w).setEvent GlR.QL_STAT_DEADLINE 294
      match l.quill.win with
      | none => l
      | some w =>
        match w.chan with
        | none => l
        | some d =>
          let r := (l.chansFrom w.bank d).foldl Leaf.skipLate (l, { w with chan := none })
          { r.1 with quill := { r.1.quill with win := some r.2 } }

/-! ## The frame (R98, R99, Tables 4.3 and 4.4) -/

/-- N of a bank (R98). -/
def fieldCount (t : Tbl Word) : Nat :=
  (enabledOf t).foldl (fun n p => max n (slFbase p.2 + slFcnt p.2)) 0

/-- FLAGS of a closing frame (Table 4.4), GAP left to the uplink. -/
def Window.flags (w : Window) : Nat :=
  b2n w.untimed + 2 * b2n w.stale + 4 * b2n w.mixed + 8 * b2n w.incompl + 16 * b2n w.fenced + 32 * b2n w.overrun +
  64 * b2n w.held + 256 * b2n w.newEp

/-- Block version byte (R4): MAJOR and MINOR. -/
def Leaf.version (l : Leaf) : Nat := l.fld GlR.IDENT_VERSION_MAJOR * 16 + l.fld GlR.IDENT_VERSION_MINOR

/-- Header, bitmap and fields of a frame with CHECK as given. -/
def frameBytes (l : Leaf) (w : Window) (n fseq closeT check : Nat) : List Byte :=
  leB 4 l.fleet.toNat ++ leB 4 w.epoch.toNat ++ leB 4 w.instant ++
  leB 4 (l.version * 2 ^ 24 + w.tag.toNat) ++
  leB 2 w.cfg.toNat ++ leB 2 w.flags ++ leB 2 n ++ leB 2 fseq ++
  leB 4 (closeT * 2 ^ 16 + b2n w.bank * 2 ^ 11 + w.pcode.toNat * 2 ^ 8 + w.stopped) ++ leB 4 check ++
  (List.range 32).map (fun k => BitVec.ofNat 8
    ((List.range 8).foldl (fun a j => a + b2n (w.fields.any (fun p => p.1 == 8 * k + j)) * 2 ^ j) 0)) ++
  ((List.range n).map (fun i => leB 4 (((w.fields.find? (fun p => p.1 == i)).map (fun p => p.2.toNat)).getD 0))).flatten

/-- The frame's CHECK filled in. -/
def frameSealed (bs : List Byte) : List Byte :=
  bs.take 28 ++ leB 4 (crc32c (bs.take 28 ++ leB 4 0 ++ bs.drop 32)) ++ bs.drop 32

/-- 64-byte units that a frame occupies. -/
def frameUnits (bs : List Byte) : Nat := (bs.length + 63) / 64

/-- Units in use in the frame buffer (R102). -/
def Leaf.bufUsed (l : Leaf) : Nat :=
  (tget l.ul.queues 2).foldl (fun n q => if q.fseq.isSome then n + frameUnits q.msg.body else n) 0

/-- The frame queue without its oldest frame that has not started. -/
def dropOldest : List Queued → List Queued
  | [] => []
  | q :: t => if q.fseq.isSome ∧ q.sent = 0 then t else q :: dropOldest t

/-- One frame discarded from the buffer (R102). -/
def Leaf.discardFrame (l : Leaf) : Leaf :=
  let q := tget l.ul.queues 2
  if (dropOldest q).length = q.length then l
  else
    let l := { l with ul := { l.ul with queues := tput l.ul.queues 2 (dropOldest q) }
                      quill := { l.quill with gapPend := true } }
    (l.addMod GlR.QL_DISCARDS_COUNT 1).setEvent GlR.QL_STAT_GAP 295

/-- Frames are discarded until `n` units are free; a frame needs at most 17, each discard frees at least one. -/
def Leaf.makeRoom (n : Nat) : Nat → Leaf → Leaf
  | 0, l => l
  | k + 1, l => if l.bufUsed + n ≤ 8192 then l else Leaf.makeRoom n k l.discardFrame

/-- The frame of the window closes (R98, R101, R102, R104). -/
def Leaf.closeFrame (w : Window) (l : Leaf) : Leaf :=
  let n := fieldCount (l.slices w.bank)
  let fseq := (l.fld GlR.QL_STAT_FSEQ + 1) % 2 ^ 16
  let closeT := min 0xFFFF ((l.time.ns - w.instant) / 16)
  let body := frameSealed (frameBytes l w n fseq closeT 0)
  let l := Leaf.makeRoom (frameUnits body) 17 l
  let l := l.pushMsg { fleet := l.fleet, cls := 2, ty := 1, ink := w.epoch, mark := false, body := body }
    (some (BitVec.ofNat 16 fseq))
  let l := (l.setFld GlR.QL_STAT_FSEQ fseq).setFld GlR.QL_LASTRUN_EXEC (min 0xFFFF w.total)
  l.setFld GlR.QL_LASTRUN_CLOSE_T closeT

/-! ## Commands -/

/-- ARM_GO: a write to `GL_QL_ARM_CFG` (R95). -/
def execArmGo (p : Port) (data : Word) (s : State) : Host.Outcome State Fault Refusal :=
  .next (s.onLeaf (Leaf.guarded p 0x900C true (Leaf.armCfgWrite data.toNat)))

/-- ARM_CHECK_DONE (R95). -/
def execArmCheckDone (s : State) : Host.Outcome State Fault Refusal := .next (s.onLeaf Leaf.armEnd)

/-- SLICE_WRITE (R94). -/
def execSliceWrite (c : BitVec 8) (p : Port) (data : Word) (s : State) : Host.Outcome State Fault Refusal :=
  .next (s.onLeaf (Leaf.guarded p (0x9400 + 4 * c.toNat) true (Leaf.sliceWrite c.toNat data)))

/-- LM_CHECK_DONE (R287). -/
def execLmCheckDone (lane : BitVec 3) (s : State) : Host.Outcome State Fault Refusal :=
  .next (s.onLeaf (Leaf.lmCheckDone lane.toNat))

/-- LM_CTL_WRITE (R288): one of the local-model registers from 0x9024 on. -/
def execLmCtlWrite (off : BitVec 2) (p : Port) (data : Word) (s : State) : Host.Outcome State Fault Refusal :=
  .next (s.onLeaf (Leaf.guarded p (0x9024 + 4 * off.toNat) true (Leaf.lmRegWrite off.toNat data)))

/-- CAPTURE_WINDOW_OPEN (R88): once every connected bank has applied the instant marker. -/
def execCaptureWindowOpen (s : State) : Host.Outcome State Fault Refusal :=
  .next (s.onLeaf fun l => if l.cap.instWait.isEmpty then l.openWindow else l)

end Sys2Proof.Machine
end

