-- ==== Sys2Proof/Machine/LeafJarend.lean ====
section
/-!
DEFINITION. Sys2Proof/Machine/LeafJarend.lean: one Jarend-L instruction on the Quill engine (R90 to R93, R227,
R248, R249, R251 to R255, R261, R266, R286).
-/

namespace Sys2Proof.Machine

/-- What an instruction does to the general registers and the program counter, as both profiles share it: write one
register, with the registers its validity depends on (R249); jump, with an optional link register; fault with a code of
Table 10.4. -/
inductive JEff where
  | write (rd : Nat) (v : DWord) (srcs : List Nat)
  | jump (taken : Bool) (target : Int) (link : Option Nat)
  | fault (code : Nat)

/-- The Table 4.5 code of a fault code of Table 10.4 (R238). -/
def leafFault (code : Nat) : Nat := if code = 9 then 2 else if code = 5 then 4 else 3

/-- A register of the running slice: g0 reads zero (R228). -/
def Window.g (w : Window) (r : Nat) : DWord := if r = 0 then 0 else tget w.regs r

/-- Whether a register is valid (R249). -/
def Window.valid (w : Window) (r : Nat) : Bool := r == 0 || !w.inval.any (fun p => p.1 == r)

/-- Whether a register is invalid through an uncorrectable word. -/
def Window.tainted (w : Window) (r : Nat) : Bool := r != 0 && w.inval.any (fun p => p.1 == r && p.2)

/-- A register written valid: writes to g0 are discarded (R228). -/
def Window.put (r : Nat) (v : DWord) (w : Window) : Window :=
  if r = 0 then w else { w with regs := tput w.regs r v, inval := w.inval.filter (fun p => p.1 != r) }

/-- A register made invalid with its value; `unc` when an uncorrectable word is the cause. -/
def Window.putInval (r : Nat) (v : DWord) (unc : Bool) (w : Window) : Window :=
  if r = 0 then w
  else { w with regs := tput w.regs r v, inval := (r, unc) :: w.inval.filter (fun p => p.1 != r) }

/-- A result, valid exactly when all its register sources are (R249). -/
def Window.result (r : Nat) (v : DWord) (srcs : List Nat) (w : Window) : Window :=
  if srcs.all w.valid then w.put r v else w.putInval r v (srcs.any w.tainted)

/-- What a leaf instruction answers: the leaf and window after it, or a fault code of Table 10.4. -/
abbrev LRes := Except Nat (Leaf × Window)

/-- BUDGET of the running channel. -/
def Leaf.chanBudget (l : Leaf) (w : Window) (c : Nat) : Nat := slBudget (l.slice w.bank c)

/-- One instruction on the Quill engine. No open window or no running channel: nothing. A channel that has used its
budget stops before it (R93); past word 63 it faults (R251); an uncorrectable program word stops the channel (Table
4.5); a word outside the profile faults (R227); otherwise the body runs, counted as `cost`, a faulting one included
(R93, R248). -/
def Leaf.jarend (i : Instr) (cost : Nat) (body : Leaf → Window → Nat → LRes) (l : Leaf) : Leaf :=
  match l.quill.win with
  | none => l
  | some w =>
    match w.chan with
    | none => l
    | some c =>
      let word := 64 * c + w.pc
      let page := bankPage w.bank + word / 2048
      if l.chanBudget w c < w.exec + cost then l.stopChan 1 c w
      else if 64 ≤ w.pc then l.stopChan 3 c w
      else if l.isBad (progCw page (word % 2048)) then
        (l.uncorr (progCw page (word % 2048)) 0x0101 c
          (leB 4 c ++ leB 4 (b2n w.bank) ++ leB 4 word)).stopChan 4 c w
      else
        let w' := { w with exec := w.exec + cost, pc := w.pc + 1 }
        if !(jarProfileL i && jarRegsL i && jarUnused i) then l.stopChan 3 c w'
        else match body l w' c with
          | .error code => l.stopChan (leafFault code) c w'
          | .ok (l, w) => { l with quill := { l.quill with win := some w } }

/-- The shared effects on the window; a taken jump outside the channel's 64 words faults (R251). -/
def JEff.onWindow (e : JEff) (l : Leaf) (w : Window) : LRes :=
  match e with
  | .fault code => .error code
  | .write rd v srcs => .ok (l, w.result rd v srcs)
  | .jump false _ _ => .ok (l, w)
  | .jump true t _ => if 0 ≤ t ∧ t < 64 then .ok (l, { w with pc := t.toNat }) else .error 1

/-- An instruction with a shared effect, on the Quill engine: the effect sees the registers and the instruction's own
word index. -/
def Leaf.jarendEff (i : Instr) (f : (Nat → DWord) → Nat → JEff) (l : Leaf) : Leaf :=
  l.jarend i 1 (fun l w _ => (f w.g (w.pc - 1)).onWindow l w)

/-! ## Constant-space loads -/

/-- A load of `n` bytes at an address of the constant space (R227, R231): pages 16 to 63. -/
def Leaf.constLoad (l : Leaf) (n a : Nat) : Except Nat Nat :=
  if a % n ≠ 0 then .error 4
  else if 0x60000 ≤ a then .error 3
  else
    let w : Nat → Nat := fun k => (tget l.quill.pages (2048 * 16 + k)).toNat
    .ok ((w (a / 4) + w (a / 4 + 1) * 2 ^ 32) / 2 ^ (8 * (a % 4)) % 2 ^ (8 * n))

/-- The code word of an address of the constant space. -/
def constCw (a : Nat) : LeafArray :=
  if 0x40000 ≤ a then modelCw ((a - 0x40000) / 8) else progCw (16 + a / 8192) (a % 8192 / 4)

/-- A data word is uncorrectable (Table 4.5, R389): the register is made invalid, LAST_FLT is 0b110, the channel goes
on. -/
def Leaf.dataUncorr (a : LeafArray) (c what : Nat) (l : Leaf) : Leaf :=
  (l.uncorr a 0x0102 c (leB 4 c ++ leB 4 what)).setFld (GlR.QL_CHST_LAST_FLT.at (4 * c)) 6

/-- `ld` in Jarend-L. -/
def Leaf.ldBody (n : Nat) (f : FmtM) (l : Leaf) (w : Window) (c : Nat) : LRes :=
  let a := ((w.g f.ra.toNat).toNat + (f.off.toInt * n + 2 ^ 64).toNat) % 2 ^ 64
  match l.constLoad n a with
  | .error e => .error e
  | .ok v =>
    if l.isBad (constCw a) then .ok (l.dataUncorr (constCw a) c a, w.putInval f.r.toNat 0 true)
    else .ok (l, w.result f.r.toNat (BitVec.ofNat 64 v) [f.ra.toNat])

/-! ## Capture reads (R253, Table 11.3) -/

/-- idx of R240: (g[ra] + IDX8) mod 256. -/
def capIdx (f : FmtC) (w : Window) : Nat := ((w.g f.ra.toNat).toNat + f.idx.toNat) % 256

/-- Which part of a group a capture read takes. -/
inductive GroupPart where
  | counter
  | start
  | finish
  | stream
deriving DecidableEq, Repr

/-- Slots of the STREAM view as one value each (Table 3.8). -/
def streamSlot (x : StreamState) (n : Nat) : Nat :=
  match n with
  | 0 => x.starts.toNat
  | 1 => x.ends.toNat
  | 2 => x.orphans.toNat
  | 3 => x.overruns.toNat
  | 4 => b2n x.isOpen * 2 ^ 31 + b2n x.pairOk * 2 ^ 30 + (if x.isOpen then x.openId.toNat else 0)
  | 5 => x.lastId.toNat
  | _ => 0

/-- A slot of a view of a group in a capture set: zero where the bank is not connected, and, in the views of commands,
where the group is not bound (R64, Table 3.8). -/
def Leaf.groupRead (l : Leaf) (t : Tbl BankSet) (part : GroupPart) (g n : Nat) : Nat :=
  let set := tget t (g / 16)
  let key := 9 * (g % 16) + n
  if !l.bankOn (g / 16) then 0
  else match part with
    | .counter => (tget set.cnt key).toNat
    | _ =>
      if !l.flag (GlR.CG_CTL_CMD_EN.at (0x50 * g)) then 0
      else match part with
        | .start => (tget set.startL key).toNat
        | .finish => (tget set.endL key).toNat
        | _ => streamSlot (tget set.streams (l.fld (GlR.CG_CTL_CMD.at (0x50 * g)))) n

/-- `cap.cnt`, `cap.start`, `cap.end`, `cap.strm`: a SLOT above 8 faults (R253). -/
def Leaf.capGroup (part : GroupPart) (f : FmtC) (l : Leaf) (w : Window) (c : Nat) : LRes :=
  let g := capIdx f w
  let bank : LeafArray := .sample (BitVec.ofNat 4 (g / 16))
  if 8 < f.slot.toNat then .error 1
  else if l.isBad bank then .ok (l.dataUncorr bank c (g * 16 + f.slot.toNat), w.putInval f.rd.toNat 0 true)
  else .ok (l, w.result f.rd.toNat (BitVec.ofNat 64 (l.groupRead l.cap.sample part g f.slot.toNat)) [f.ra.toNat])

/-- The sample set's copy of a value port that is connected (R61). -/
def Leaf.portSample (l : Leaf) (i : Nat) : Option ValuePort :=
  if i < 64 && bit l.hard.vpEn.toNat i then some (tget l.cap.sampleVals i) else none

/-- `cap.val`: invalid where the port holds no value (R249). -/
def Leaf.capVal (f : FmtC) (l : Leaf) (w : Window) (_c : Nat) : LRes :=
  match (l.portSample (capIdx f w)).bind (·.val) with
  | some (_, v) => .ok (l, w.result f.rd.toNat (v.setWidth 64) [f.ra.toNat])
  | none => .ok (l, w.putInval f.rd.toNat 0 false)

/-- `cap.vtag`: always valid. -/
def Leaf.capVtag (f : FmtC) (l : Leaf) (w : Window) (_c : Nat) : LRes :=
  .ok (l, w.put f.rd.toNat (match (l.portSample (capIdx f w)).bind (·.val) with
    | some (t, _) => t.setWidth 64
    | none => 7))

/-- `cap.fresh`. A port that is not connected reads invalid (R249); a port index of 64 or above too. -/
def Leaf.capFresh (f : FmtC) (l : Leaf) (w : Window) (_c : Nat) : LRes :=
  match l.portSample (capIdx f w) with
  | some v => .ok (l, w.result f.rd.toNat (flagD v.fresh) [f.ra.toNat])
  | none => .ok (l, w.putInval f.rd.toNat 0 false)

/-- `cap.upd`. -/
def Leaf.capUpd (f : FmtC) (l : Leaf) (w : Window) (_c : Nat) : LRes :=
  match l.portSample (capIdx f w) with
  | some v => .ok (l, w.result f.rd.toNat (v.upd.setWidth 64) [f.ra.toNat])
  | none => .ok (l, w.putInval f.rd.toNat 0 false)

/-- `cap.tagerr`: the port's sticky flag, which the read clears. -/
def Leaf.capTagerr (f : FmtC) (l : Leaf) (w : Window) (_c : Nat) : LRes :=
  let i := capIdx f w
  match l.portSample i with
  | some _ => .ok ({ l with cap := { l.cap with vals := tmod l.cap.vals i (fun v => { v with tagErr := false }) } },
      w.result f.rd.toNat (flagD (tget l.cap.vals i).tagErr) [f.ra.toNat])
  | none => .ok (l, w.putInval f.rd.toNat 0 false)

/-! ## Fields, waves, local trees, alarms -/

/-- A field written: valid with its value, or invalid (R91, R254). -/
def Window.putField (i : Nat) (v : Option Word) (w : Window) : Window :=
  let rest := w.fields.filter (fun p => p.1 != i)
  { w with fields := (match v with
             | some x => (i, x) :: rest
             | none => rest)
           written := if w.written.any (· == i) then w.written else i :: w.written }

/-- `fld.w`: a field computed from an uncorrectable word sets INCOMPLETE (Table 4.5). -/
def Leaf.fldW (f : FmtC) (l : Leaf) (w : Window) (c : Nat) : LRes :=
  let sl := l.slice w.bank c
  let j := capIdx f w
  let r := f.rd.toNat
  if slFcnt sl ≤ j then .error 9
  else .ok (l, { w.putField (slFbase sl + j) (if w.valid r then some (lo32 (w.g r)) else none) with
    incompl := w.incompl || w.tainted r })

/-- `fld.inv`. -/
def Leaf.fldInv (f : FmtC) (l : Leaf) (w : Window) (c : Nat) : LRes :=
  let sl := l.slice w.bank c
  let j := capIdx f w
  if slFcnt sl ≤ j then .error 9 else .ok (l, w.putField (slFbase sl + j) none)

/-- `fld.rd`: valid when the field has been written valid in this window. -/
def Leaf.fldRd (f : FmtC) (l : Leaf) (w : Window) (_c : Nat) : LRes :=
  match w.fields.find? (fun p => p.1 == capIdx f w) with
  | some (_, v) => .ok (l, w.result f.rd.toNat (v.setWidth 64) [f.ra.toNat])
  | none => .ok (l, w.putInval f.rd.toNat 0 false)

/-- A contribution dropped (R143, R255). -/
def Leaf.waveDropped (l : Leaf) (w : Window) : Leaf × Window :=
  (l.addSat GlR.CH_WAVE_DROP 1, { w with wdrop := true })

/-- A feature's sum with one more contribution. -/
def WaveSum.join (key : Nat) (v : Int) : Option WaveSum → WaveSum
  | none => { count := 1, sum := v, kmin := key, kmax := key }
  | some x => { count := x.count + 1, sum := x.sum + v, kmin := min x.kmin key, kmax := max x.kmax key }

/-- `red.add` (R255). -/
def Leaf.redAdd (f : FmtC) (l : Leaf) (w : Window) (c : Nat) : LRes :=
  let r := f.rd.toNat
  let i := capIdx f w
  if !slRed (l.slice w.bank c) then .error 10
  else if !w.valid r then .ok (l, w)
  else
    let old := (w.waves.find? (fun p => p.1 == i)).map Prod.snd
    if l.chain.waveF.toNat ≤ i ∨ 1023 ≤ (old.map (·.count)).getD 0 then .ok (l.waveDropped w)
    else
      let g := w.g r
      let x := WaveSum.join (bits g.toNat 63 32) (lo32 g).toInt old
      .ok (l, { w with waves := (i, x) :: w.waves.filter (fun p => p.1 != i) })

/-- A traversal of the local model (R273, R286): the leaf node reached, or an uncorrectable node. -/
def lmTraverse (node : Nat → Nat) (bad : Nat → Bool) (key : Nat → Word) : Nat → Nat → Except Nat Nat
  | 0, i => .error i
  | d + 1, i =>
    if bad i then .error i
    else
      let n := node i
      if ndLeaf n then .ok n
      else
        let k := key (ndFeat n)
        let right := if k = nanKey then ndNan n else decide (ndThresh n ≤ k.toNat)
        lmTraverse node bad key d (if right then i + ndOff n else i + 1)

/-- A field of the window as a key: one not written, invalid or above 255 is the NaN key (R261). -/
def Window.fieldKey (w : Window) (f : Nat) : Word :=
  ((w.fields.find? (fun p => p.1 == f && decide (f < 256))).map Prod.snd).getD nanKey

/-- `tree.local` (R261, R286). -/
def Leaf.treeLocal (f : FmtX) (l : Leaf) (w : Window) (c : Nat) : LRes :=
  let t := bits (w.g f.ra.toNat).toNat 13 0
  let e := l.lmDir t
  if l.lmD = 0 ∨ !bit e 31 then .error 8
  else match lmTraverse l.lmNode (fun i => l.isBad (modelCw i)) w.fieldKey l.lmD (bits e 13 0) with
    | .error i => .ok (l.dataUncorr (modelCw i) c i, w.putInval f.rd.toNat 0 true)
    | .ok n => .ok (l, w.result f.rd.toNat (BitVec.ofNat 64 ((ndScore n).toNat + ndClass n * 2 ^ 32)) [f.ra.toNat])

/-- `emit.alarm` on a leaf (R92, R171, R265, R266). -/
def Leaf.emitAlarmL (f : FmtX) (l : Leaf) (w : Window) (c : Nat) : LRes :=
  let code := bits (w.g f.ra.toNat).toNat 15 0
  if !slAlm (l.slice w.bank c) then .error 10
  else if code < 0x100 then
    .ok (l.record 1 0x0304 c (leB 4 c ++ leB 4 code), w.result f.rd.toNat 0 [f.ra.toNat])
  else
    .ok (l.alarm code (some c),
      w.result f.rd.toNat (flagD (decide (0 < l.fld GlR.UL_ALM_CREDIT))) [f.ra.toNat])

/-! ## Special registers (Table 10.2) and the end -/

/-- A special register of the L profile; EXEC and LEFT stand as before the `csrr` itself (R230). -/
def Leaf.csr (l : Leaf) (w : Window) (c n : Nat) : Option Nat :=
  if n = 0x000 then some 0x0102
  else if n = 0x001 then some 1
  else if n = 0x002 then some c
  else if n = 0x010 then some l.time.ns
  else if n = 0x011 then some l.epoch.toNat
  else if n = 0x012 then some l.chain.cfg.toNat
  else if n = 0x030 then some (w.exec - 1)
  else if n = 0x031 then some (l.chanBudget w c - (w.exec - 1))
  else none

/-- CSR number of `csrr` and `csrw`: bits [20:12] (R251). -/
def csrNum (f : FmtX) : Nat := f.ra.toNat * 16 + f.sel.toNat

/-- `csrr` in Jarend-L. -/
def Leaf.csrrL (f : FmtX) (l : Leaf) (w : Window) (c : Nat) : LRes :=
  match l.csr w c (csrNum f) with
  | none => .error 11
  | some v => .ok (l, w.put f.rd.toNat (BitVec.ofNat 64 v))

/-- `end` on the Quill engine: the slice ends, DONE sets, the next channel runs (R87, R93). -/
def Leaf.endL (i : Instr) (l : Leaf) : Leaf :=
  let l' := l.jarend i 1 (fun l w _ => .ok (l, w))
  match l.quill.win, l'.quill.win with
  | some w0, some w =>
    match w0.chan with
    | some c => if w.chan = some c ∧ w.exec = w0.exec + 1 then l'.sliceEnd c true w else l'
    | none => l'
  | _, _ => l'

end Sys2Proof.Machine
end

