-- ==== Sys2Proof/Machine/Peat.lean ====
section
/-!
DEFINITION. Sys2Proof/Machine/Peat.lean: the Peat log of the leaf (R347 to R350, Table 15.5, R207).
-/

namespace Sys2Proof.Machine

/-- Slots of a region (Table 15.5). -/
def peatBudget : PeatReg → Nat
  | .fleet => 4
  | .oos => 16
  | .health => 64
  | .trim => 8
  | .seed => 4

/-- The used slots of a region. -/
def Peat.slots (p : Peat) : PeatReg → List Slot
  | .fleet => p.fleet
  | .oos => p.oos
  | .health => p.health
  | .trim => p.trim
  | .seed => p.seed

/-- The log with a region's slots replaced. -/
def Peat.setSlots (p : Peat) (r : PeatReg) (xs : List Slot) : Peat :=
  match r with
  | .fleet => { p with fleet := xs }
  | .oos => { p with oos := xs }
  | .health => { p with health := xs }
  | .trim => { p with trim := xs }
  | .seed => { p with seed := xs }

/-- The value in force: that of the highest committed slot, zero without one (R349, R350). -/
def slotsValue (xs : List Slot) : DWord :=
  xs.foldl (fun v x => match x with
    | .committed w => w
    | .torn _ => v) 0

/-- Whether a slot is torn. -/
def Slot.isTorn : Slot → Bool
  | .torn _ => true
  | .committed _ => false

/-- The value of a region in force. -/
def Leaf.peatValue (l : Leaf) (r : PeatReg) : DWord := slotsValue (l.peat.slots r)

/-- Register number that records name (order of `GL_PT_STAT.EXHAUSTED`). -/
def peatIndex : PeatReg → Nat
  | .fleet => 0
  | .oos => 1
  | .health => 2
  | .trim => 3
  | .seed => 4

/-- The registers of a region load a value (R350). -/
def Leaf.peatShow (r : PeatReg) (v : DWord) (l : Leaf) : Leaf :=
  match r with
  | .fleet => l.setReg 0xC000 (v.setWidth 32)
  | .oos => l.setFld GlR.PT_OOS_MARK (b2n (v.getLsbD 0))
  | .health => l.setReg 0xC008 (v.setWidth 32)
  | .trim => l.setReg 0xC00C (v.setWidth 32)
  | .seed => (l.setReg 0xC010 (v.setWidth 32)).setReg 0xC014 ((v >>> 32).setWidth 32)

/-- A used slot is added to a region. -/
def Leaf.peatAdd (r : PeatReg) (x : Slot) (l : Leaf) : Leaf :=
  { l with peat := l.peat.setSlots r (l.peat.slots r ++ [x]) }

/-- LAST_RES set; EXHAUSTED and FAILED count in source 318. -/
def Leaf.peatRes (n : Nat) (l : Leaf) : Leaf := onlyIf (decide (2 ≤ n)) (Leaf.event 318) (l.setFld GlR.PT_STAT_LAST_RES n)

/-- A write failed: LAST_RES FAILED and a PEAT_FAIL record (R348). -/
def Leaf.peatFailed (r : PeatReg) (l : Leaf) : Leaf :=
  (l.peatRes 3).record 0 0x0502 0 (leB 4 (peatIndex r) ++ leB 4 3)

/-- One attempt to store a value in the first free slot (R348): `again` says that one more attempt may follow. -/
def Leaf.peatTry (r : PeatReg) (v : DWord) : List Blow → Bool → Leaf → Leaf
  | b :: rest, again, l =>
    if peatBudget r ≤ (l.peat.slots r).length then l.peatFailed r
    else match b with
      | .ok => ((l.peatAdd r (.committed v)).peatRes 0).peatShow r v
      | .cutBefore => l.peatAdd r (.torn v)
      | .cutDuring blown => l.peatAdd r (if blown then .committed v else .torn v)
      | .differs => if again then (l.peatAdd r (.torn v)).peatTry r v rest false
                    else (l.peatAdd r (.torn v)).peatFailed r
  | [], _, l =>
    if peatBudget r ≤ (l.peat.slots r).length then l.peatFailed r
    else ((l.peatAdd r (.committed v)).peatRes 0).peatShow r v

/-- An RWP write of a region (R348, R349): SAME first, then EXHAUSTED, then the attempts. `blows` says what becomes of
each blow; further blows succeed. -/
def Leaf.peatWrite (r : PeatReg) (v : DWord) (blows : List Blow) (l : Leaf) : Leaf :=
  if v = l.peatValue r then l.peatRes 1
  else if peatBudget r ≤ (l.peat.slots r).length then
    let l := l.peatRes 2
    if l.peat.noted.any (fun x => decide (x = r)) then l
    else Leaf.record 0 0x0501 0 (leB 4 (peatIndex r)) { l with peat := { l.peat with noted := r :: l.peat.noted } }
  else l.peatTry r v blows true

/-- The offset whose write stores a region. -/
def peatOff : PeatReg → Nat
  | .fleet => 0xC000
  | .oos => 0xC004
  | .health => 0xC008
  | .trim => 0xC00C
  | .seed => 0xC014

/-- The value that a register write asks a region to store: the seed takes its staged low word (R348), the health
state is not writable. -/
def Leaf.peatPortWrite (r : PeatReg) (data : Word) (blows : List Blow) (l : Leaf) : Leaf :=
  match r with
  | .health => l
  | .seed => l.peatWrite .seed (data.setWidth 64 <<< 32 ||| (l.reg 0xC010).setWidth 64) blows
  | .oos => l.peatWrite .oos (data.setWidth 64 &&& 1) blows
  | r => l.peatWrite r (data.setWidth 64) blows

/-- Step 4 of Table 2.11: every region's value in force is loaded (R350). A committed slot never fails its CRC here
(R348), so PEAT_OK sets. -/
def Leaf.peatScan (l : Leaf) : Leaf :=
  let l := [PeatReg.fleet, .oos, .health, .trim, .seed].foldl (fun l r => l.peatShow r (l.peatValue r)) l
  let l := { l with peat := { l.peat with stage := none, noted := [] } }
  l.setFld GlR.IDENT_STATUS_PEAT_OK 1

/-- Free slots of a region. -/
def Leaf.peatFree (l : Leaf) (r : PeatReg) : Nat := peatBudget r - (l.peat.slots r).length

/-- `GL_PT_STAT` with EXHAUSTED and TORN as the log stands. -/
def Leaf.ptStat (l : Leaf) : Nat :=
  let ex : PeatReg → Nat := fun r => b2n (l.peatFree r == 0)
  let torn := [PeatReg.fleet, .oos, .health, .trim, .seed].foldl
    (fun n r => n + ((l.peat.slots r).filter Slot.isTorn).length) 0
  ex .fleet * 2 ^ 31 + ex .oos * 2 ^ 30 + ex .health * 2 ^ 29 + ex .trim * 2 ^ 28 + ex .seed * 2 ^ 27 +
  l.fld GlR.PT_STAT_LAST_RES * 2 ^ 24 + min 255 torn * 2 ^ 16

/-- `GL_PT_LEFT`. -/
def Leaf.ptLeft (l : Leaf) : Nat :=
  l.peatFree .fleet * 2 ^ 29 + l.peatFree .oos * 2 ^ 24 + l.peatFree .health * 2 ^ 16 + l.peatFree .trim * 2 ^ 12 +
  l.peatFree .seed * 2 ^ 9

/-- A 64-bit slot as blown (R347). -/
def slotBytes (off : Nat) : Slot → List Byte
  | .torn v => leB 4 v.toNat ++ leB 1 (crc8 (leB 4 v.toNat ++ leB 2 off)) ++ leB 3 0
  | .committed v => leB 4 v.toNat ++ leB 1 (crc8 (leB 4 v.toNat ++ leB 2 off)) ++ leB 2 0 ++ leB 1 0x80

/-- A 128-bit seed slot as blown. -/
def seedBytes (off : Nat) : Slot → List Byte
  | .torn v => leB 8 v.toNat ++ leB 1 (crc8 (leB 8 v.toNat ++ leB 2 off)) ++ leB 7 0
  | .committed v => leB 8 v.toNat ++ leB 1 (crc8 (leB 8 v.toNat ++ leB 2 off)) ++ leB 6 0 ++ leB 1 0x80

/-- A region's bytes. -/
def regionBytes (slot : Nat → Slot → List Byte) (base size n : Nat) (xs : List Slot) : List Byte :=
  ((List.range n).map (fun i => match xs[i]? with
    | some x => slot (base + size * i) x
    | none => List.replicate size 0)).flatten

/-- The 1,024 bytes of the Peat log as blown (Table 15.5); the manufacturing records read zero (assumption log 6). -/
def Leaf.peatView (l : Leaf) : List Byte :=
  List.replicate 0xE0 0 ++ regionBytes slotBytes 0x0E0 8 4 l.peat.fleet ++ regionBytes slotBytes 0x100 8 16 l.peat.oos ++
  regionBytes slotBytes 0x180 8 64 l.peat.health ++ regionBytes slotBytes 0x380 8 8 l.peat.trim ++
  regionBytes seedBytes 0x3C0 16 4 l.peat.seed

/-- PEAT_LOG_WRITE (R348, R349): an RWP write of the PEAT block. -/
def execPeatLogWrite (r : PeatReg) (p : Port) (data : Word) (blows : List Blow) (s : State) :
    Host.Outcome State Fault Refusal :=
  .next (s.onLeaf (Leaf.guarded p (peatOff r) true (Leaf.peatPortWrite r data blows)))

end Sys2Proof.Machine
end

