-- ==== Sys2Proof/Machine/Digest.lean ====
section
/-!
DEFINITION. Sys2Proof/Machine/Digest.lean: the leaf's digest taps (R42, R182 to R191).
-/

namespace Sys2Proof.Machine

/-! ## GF(2^64) (R185) -/

/-- One step of the carry-less product modulo x^64 + x^4 + x^3 + x + 1: bit `i` of `b`. -/
def gfStep (a b acc i : Nat) : Nat :=
  let d := if bit acc 63 then ((acc <<< 1) % 2 ^ 64) ^^^ 0x1B else acc <<< 1
  if bit b i then d ^^^ a else d

/-- The carry-less product reduced. -/
def gfMul (a b : Nat) : Nat := ((List.range 64).reverse).foldl (gfStep a b) 0

/-- The exact digest after one more word. -/
def exactWord (k : Nat) (h : DWord) (w : Nat) : DWord := BitVec.ofNat 64 (gfMul (h.toNat ^^^ w) k)

/-! ## Elements (R183, R186) -/

/-- Whether a format is raw or reserved: exact digest only. -/
def fmtRaw (f : Nat) : Bool := decide (5 ≤ f)

/-- Bits of an element of a format. -/
def fmtBits (f : Nat) : Nat := if f = 1 ∨ f = 2 then 16 else 32

/-- Elements of a beat. -/
def beatElems (f : Nat) (data : BitVec 256) : List Nat :=
  (List.range (256 / fmtBits f)).map (fun e => data.toNat / 2 ^ (fmtBits f * e) % 2 ^ fmtBits f)

/-- An element as fp32, for the floating formats. -/
def elemF32 (f v : Nat) : Word :=
  if f = 1 then widenF16 v else if f = 2 then BitVec.ofNat 32 (v * 2 ^ 16) else BitVec.ofNat 32 v

/-- The inkkey of an element. -/
def elemKey (f v : Nat) : Nat :=
  (if f = 3 then keyS32 (BitVec.ofNat 32 v) else if f = 4 then keyU32 (BitVec.ofNat 32 v) else keyF32 (elemF32 f v)).toNat

/-- Value of a finite element in units of 2^-149. -/
def elemUnits (f v : Nat) : Int :=
  if f = 3 then sgn 32 v * 2 ^ 149 else if f = 4 then (v * 2 ^ 149 : Nat) else f32Units (elemF32 f v)

/-- Whether an element is a NaN. -/
def elemNaN (f v : Nat) : Bool := decide (f < 3) && f32IsNaN (elemF32 f v)

/-- Whether an element is infinite. -/
def elemInf (f v : Nat) : Bool := decide (f < 3) && f32IsInf (elemF32 f v)

/-- q(x): round to nearest even of x * 2^-E, not clamped. -/
def quantise (e : Int) (x : Int) : Int :=
  let m := roundHalfEven x.natAbs (149 + e).toNat
  if x < 0 then -(m : Int) else m

/-- s(x): round to nearest even of x^2 * 2^-(2E+32), not clamped. -/
def quantSq (e : Int) (x : Int) : Nat := roundHalfEven (x.natAbs * x.natAbs) (330 + 2 * e).toNat

/-- Histogram bin of an element (Table 8.2). -/
def histBin (hbase : Int) (f v : Nat) : Nat :=
  let toBin : Int → Nat := fun u => (clampI 1 62 (u - hbase + 1)).toNat
  if elemNaN f v || elemInf f v then 63
  else if f < 3 then
    let ex := bits (elemF32 f v).toNat 30 23
    if ex = 0 then 0 else toBin ((ex : Int) - 127)
  else
    let m := (if f = 3 then sgn 32 v else (v : Int)).natAbs
    if m = 0 then 0 else toBin (Nat.log2 m : Int)

/-- The sign mixer's z (R187, R201). -/
def mixZ (seed i : Nat) : Nat :=
  let m := 2 ^ 64
  let z := (seed + (i + 1) * 0x9E3779B97F4A7C15) % m
  let z := ((z ^^^ (z >>> 30)) * 0xBF58476D1CE4E5B9) % m
  let z := ((z ^^^ (z >>> 27)) * 0x94D049BB133111EB) % m
  z ^^^ (z >>> 31)

/-- The 16 projections after one more element of quantised value `q`. -/
def sketchAdd (seed i : Nat) (q : Int) (t : Tbl DWord) : Tbl DWord :=
  let s := mixZ seed i
  (List.range 16).foldl (fun t j => tmod t j (fun p => p + BitVec.ofInt 64 (if bit s j then -q else q))) t

/-- A tensor after one more element (R186, R187). -/
def Tensor.elem (x : Tensor) (v : Nat) : Tensor :=
  let f := x.fmt.toNat
  let e := sgn 8 (bits x.entC.toNat 31 24)
  let hb := sgn 8 (bits x.entC.toNat 23 16)
  let x := { x with hist := tmod x.hist (histBin hb f v) (fun n => min (n + 1) 0xFFFFFFFF) }
  let i := x.count
  let x := { x with count := i + 1 }
  if elemNaN f v then { x with nans := x.nans + 1 }
  else if elemInf f v then { x with infs := x.infs + 1 }
  else
    let u := elemUnits f v
    let q := quantise e u
    let s := quantSq e u
    let q' := clampI (-(2 ^ 63 - 1)) (2 ^ 63 - 1) q
    let s' := min s (2 ^ 64 - 1)
    let k := elemKey f v
    { x with kmin := min x.kmin k, kmax := max x.kmax k, sum := x.sum + q', sumsq := x.sumsq + s'
             clamps := x.clamps + b2n (q != q' || s != s')
             sketch := sketchAdd x.seed.toNat i q' x.sketch }

/-- A tensor after one more beat. -/
def Tensor.beat (x : Tensor) (data : BitVec 256) : Tensor :=
  if 2 ^ 28 ≤ x.beats then { x with overlen := true, incompl := true }
  else
    let x := { x with
      beats := x.beats + 1
      hash := (List.range 4).foldl (fun h w => exactWord x.key.toNat h (data.toNat / 2 ^ (64 * w) % 2 ^ 64)) x.hash }
    if fmtRaw x.fmt.toNat then x else (beatElems x.fmt.toNat data).foldl Tensor.elem x

/-- EXACT of a closed tensor: zero while the key is zero (R185). -/
def Tensor.exact (x : Tensor) : Nat :=
  if x.key = 0 then 0 else (exactWord x.key.toNat x.hash (x.fmt.toNat * 2 ^ 61 + 4 * x.beats)).toNat

/-! ## Temperature bin -/

/-- Whether a value is below an edge in °C. -/
def tempBelow (tag : Nat) (v : Word) (edge : Int) : Bool :=
  if tag = 0 then decide ((v.toNat : Int) < edge)
  else if tag = 1 then decide (v.toInt < edge)
  else decide (f32Units v < edge * 2 ^ 149)

/-- The seven bin edges (Table 8.14). -/
def Leaf.tbinEdges (l : Leaf) : List Int :=
  [GlR.TS_TBIN0_T1, GlR.TS_TBIN0_T2, GlR.TS_TBIN0_T3, GlR.TS_TBIN0_T4, GlR.TS_TBIN1_T5, GlR.TS_TBIN1_T6,
    GlR.TS_TBIN1_T7].map (fun f => sgn 8 (l.fld f))

/-- Temperature bin of a tagged value: the number of edges at or below it (Table 8.14). -/
def Leaf.tbinOf (l : Leaf) (tag : Nat) (v : Word) : Nat :=
  (l.tbinEdges.filter (fun e => !tempBelow tag v e)).length

/-- The temperature bin now, when TEMP_VP holds a u32, s32 or fp32 value. -/
def Leaf.tbin (l : Leaf) : Option Nat :=
  match (tget l.cap.vals (l.fld GlR.TS_CTL_TEMP_VP)).val with
  | some (t, v) => if t.toNat < 3 && !(t == 2 && (f32IsNaN v || f32IsInf v)) then some (l.tbinOf t.toNat v) else none
  | none => none

/-! ## Tensors on a tap -/

/-- Offset of entry `e` of tap `t` (Table 8.12). -/
def entOff (t e : Nat) : Nat := 0xA100 + 0x100 * t + 0x10 * e

/-- The entry that a tid takes (R184). -/
def Leaf.entryFor (l : Leaf) (t tid : Nat) : Option Nat :=
  (List.range 16).find? (fun e =>
    let a := (l.reg (entOff t e)).toNat
    bit (l.reg (entOff t e + 4)).toNat 15 && (tid &&& bits a 15 0) == (bits a 31 16 &&& bits a 15 0))

/-- Whether a tid on a tap is a unit's test result (R184). -/
def Leaf.isTest (l : Leaf) (t tid : Nat) : Bool := l.fld GlR.DG_CTL_TTAP == t && decide (0xFF00 ≤ tid ∧ tid ≤ 0xFF0F)

/-- A key or seed in force: 0 the key, 1 + s seed s. -/
def Leaf.keyInForce (l : Leaf) (i : Nat) : DWord :=
  (tget l.keys (2 * i)).setWidth 64 ||| ((tget l.keys (2 * i + 1)).setWidth 64 <<< 32)

/-- A tap changed. -/
def Leaf.modTap (t : Nat) (f : Tap → Tap) (l : Leaf) : Leaf := { l with taps := tmod l.taps t f }

/-- A per-tap count and its source (Table 16.1). -/
def Leaf.tapCount (f : Fld) (t : Nat) (l : Leaf) : Leaf := (l.addSat (f.at (4 * t)) 1).event (272 + t)

/-- A tensor opens (R182, R184, R188). -/
def Leaf.openTensor (t : Nat) (b : Beat) (l : Leaf) : Leaf :=
  let tid := b.tid.toNat
  let test := l.isTest t tid
  let e := if test then none else l.entryFor t tid
  let ent : Nat → Word := fun d => match e with
    | some e => l.reg (entOff t e + d)
    | none => 0
  let x : Tensor := { fmt := b.fmt, tid := b.tid, entry := e, entA := ent 0, entB := ent 4, entC := ent 8, test := test
                      key := l.keyInForce 0, seed := l.keyInForce (1 + bits (ent 4).toNat 10 8)
                      keygen := l.flag GlR.DG_CTL_KEYGEN, epoch := l.epoch, hash := 0, beats := 0, discs := 0
                      incompl := false, overlen := false, count := 0, nans := 0, infs := 0, kmin := 0xFFFFFFFF
                      kmax := 0, sum := 0, sumsq := 0, clamps := 0, hist := [], sketch := [] }
  let l := l.modTap t (fun p => { p with tensor := some x })
  if e.isNone && !test then l.addMod (GlR.DG_UNM_COUNT.at (4 * t)) 1
  else onlyIf (b.fmt == 5 || b.fmt == 6) (Leaf.tapCount GlR.DG_TAPST_FMTERR t) l

/-- GROUP of a record: the entry's, or the low 16 bits of the unit's test round (Table 8.3). -/
def Leaf.recGroup (l : Leaf) (x : Tensor) : Nat :=
  if x.test then
    let u := BitVec.ofNat 4 x.tid.toNat
    ((l.test.rounds.filterMap Prod.snd).find? (fun r => r.unit == u || r.others.any (· == u))).elim 0
      (fun r => r.round.toNat)
  else bits x.entB.toNat 31 16

/-- Body of a digest record (Table 8.3). -/
def Leaf.digestBody (l : Leaf) (t : Nat) (x : Tensor) (occ : Nat) : List Byte :=
  let b := x.entB.toNat
  let raw := fmtRaw x.fmt.toNat
  let stats := (bit b 14 || x.test) && !raw
  let sk := bit b 13 && !raw
  let hi := bit b 12 && !raw
  let st : Nat → Nat := fun n => if stats then n else 0
  let tb := l.tbin
  leB 2 x.tid.toNat ++ leB 2 (l.recGroup x) ++
  leB 4 (occ * 2 ^ 24 + bits x.entC.toNat 31 24 * 2 ^ 16 + x.fmt.toNat * 2 ^ 13 + bits b 11 11 * 2 ^ 12 + t * 2 ^ 10 +
    b2n x.incompl * 128 + b2n x.overlen * 64 + b2n raw * 32 + b2n (0 < x.clamps) * 16 + b2n x.test * 8 +
    b2n (x.epoch != l.epoch) * 4 + b2n x.keygen * 2 + b2n (x.key == 0)) ++
  leB 4 x.beats ++ leB 4 x.discs ++ leB 8 x.exact ++ leB 8 l.time.ns ++ leB 8 (st x.count) ++ leB 8 (st x.nans) ++
  leB 8 (st x.infs) ++ leB 4 (st x.kmin) ++ leB 4 (st x.kmax) ++ leB 12 (if stats then unsgn 96 x.sum else 0) ++
  leB 12 (st x.sumsq) ++ leB 4 (st x.clamps) ++
  leB 4 (bits x.entC.toNat 23 16 * 2 ^ 24 + bits b 7 4 * 2 ^ 20 + tb.getD 0 * 2 ^ 17 +
    l.fld GlR.TS_LOADSIG_SIG * 2 ^ 13 + bits b 10 8 * 2 ^ 10 + b2n hi * 2 ^ 9 + b2n tb.isSome * 2 ^ 8) ++
  ((List.range 16).map (fun j => leB 8 (if sk then (tget x.sketch j).toNat else 0))).flatten ++
  (if hi then ((List.range 64).map (fun j => leB 4 (tget x.hist j))).flatten else [])

/-- Header of a Trace record (Table 11.15). -/
def traceHead (kind src len fleet tag wher tseq time : Nat) : List Byte :=
  leB 2 len ++ leB 1 src ++ leB 1 kind ++ leB 4 fleet ++ leB 1 wher ++ leB 3 tag ++ leB 4 tseq ++ leB 8 time

/-- Records of a tap that wait for the uplink (R191): Trace messages whose WHERE names the tap. -/
def Leaf.tapQueued (l : Leaf) (t : Nat) : Nat :=
  ((tget l.ul.queues 3).filter (fun q => q.msg.body.getD 3 0 == 0xD1 && (q.msg.body.getD 8 0).toNat == t)).length

/-- A tensor closes: its record is queued, or dropped when 16 wait (R190, R191). An unmatched tensor makes none. -/
def Leaf.closeTensor (t : Nat) (x : Tensor) (l : Leaf) : Leaf :=
  let l := l.modTap t (fun p => { p with tensor := none })
  if x.entry.isNone && !x.test then l
  else
    let bad := l.isBad (.tap (BitVec.ofNat 2 t))
    let l := onlyIf bad (Leaf.uncorr (.tap (BitVec.ofNat 2 t)) 0x0102 0 (leB 4 0 ++ leB 4 t)) l
    let x := { x with incompl := x.incompl || bad }
    let occF := fun e => GlR.DG_ENT_D_OCC.at (0x100 * t + 0x10 * e)
    let occ := x.entry.elim 0 (fun e => l.fld (occF e))
    let l := match x.entry with
      | some e => (l.addSat (occF e) 1).addMod (GlR.DG_ENT_D_TENSORS.at (0x100 * t + 0x10 * e)) 1
      | none => l
    let l := onlyIf x.overlen (Leaf.tapCount GlR.DG_TAPST_OVERLEN t) l
    if 16 ≤ l.tapQueued t then
      (l.tapCount GlR.DG_TAPST_RECDROP t).record 1 0x0401 t
        (leB 4 t ++ leB 4 x.tid.toNat ++ leB 4 (l.recGroup x) ++ leB 4 occ)
    else
      let body := l.digestBody t x occ
      let q := (tget l.taps t).tseq
      (l.modTap t (fun p => { p with tseq := q + 1 })).pushOwn 3 0x0B
        (traceHead 0xD1 0 body.length l.fleet.toNat l.jobTag t q.toNat l.time.ns ++ body)

/-- The engine takes a buffered beat (R182). -/
def Leaf.engineBeat (t : Nat) (b : Beat) (l : Leaf) : Leaf :=
  let l := onlyIf (decide (0 < b.gap)) (Leaf.modTap t (fun p =>
    { p with tensor := p.tensor.map (fun x => { x with discs := x.discs + b.gap, incompl := true }) })) l
  let l := match (tget l.taps t).tensor with
    | some x => if b.sop then l.closeTensor t { x with incompl := true } else l
    | none => l
  let l := onlyIf b.sop (Leaf.openTensor t b) l
  match (tget l.taps t).tensor with
  | none => l.tapCount GlR.DG_TAPST_ORPHAN t
  | some x =>
    let x := if x.entry.isNone && !x.test then x else x.beat b.data
    if b.eop then l.closeTensor t x else l.modTap t (fun p => { p with tensor := some x })

/-- A beat at a tap (R42, R51): a disabled tap discards it; a full buffer of 64 beats discards and counts it. -/
def Leaf.beatIn (t : Nat) (b : Beat) (l : Leaf) : Leaf :=
  if !(l.pins.hostIsoN && bit l.hard.tapEn.toNat t && bit (l.fld GlR.DG_CTL_TAP_EN) t) then l
  else
    let p := tget l.taps t
    if 64 ≤ p.buf.length then
      (l.modTap t (fun p => { p with discs := p.discs + 1 })).addMod (GlR.DG_DISC_COUNT.at (4 * t)) 1
    else l.modTap t (fun p => { p with buf := p.buf ++ [{ b with gap := p.discs }], discs := 0 })

/-- A write to a pending key or seed word (R188). -/
def Leaf.keyWrite (off : Nat) (data : Word) (l : Leaf) : Leaf := (l.setReg off data).setFld GlR.DG_CTL_PEND 1

/-- The pending key and seeds replace those in force (R188). -/
def Leaf.keySwitch (l : Leaf) : Leaf :=
  if l.flag GlR.DG_CTL_PEND then
    let k := [l.reg 0xA008, l.reg 0xA00C] ++ (List.range 16).map (fun i => l.reg (0xA040 + 4 * i))
    let t := (List.range 18).foldl (fun (t : Tbl Word) i => tput t i (k.getD i 0)) []
    ({ l with keys := t }.setFld GlR.DG_CTL_KEYGEN (1 - l.fld GlR.DG_CTL_KEYGEN)).setFld GlR.DG_CTL_PEND 0
  else l

/-- OCC of every entry starts again with a new epoch (R189). -/
def Leaf.occReset (l : Leaf) : Leaf :=
  (l.regs.filter (fun p => decide (0xA100 ≤ p.1 ∧ p.1 < 0xA500) && p.1 % 16 == 12)).foldl
    (fun l p => l.setFld (GlR.DG_ENT_D_OCC.at (p.1 - 0xA10C)) 0) l

/-- DIGEST_BEAT (R42, R182). -/
def execDigestBeat (t : BitVec 2) (data : BitVec 256) (sop eop : Bool) (fmt : BitVec 3) (tid : BitVec 16) (s : State) :
    Host.Outcome State Fault Refusal :=
  .next (s.onLeaf (Leaf.beatIn t.toNat { gap := 0, data := data, sop := sop, eop := eop, fmt := fmt, tid := tid }))

/-- DIGEST_ENGINE_BEAT (R182 to R191): the oldest buffered beat, if there is one. -/
def execDigestEngineBeat (t : BitVec 2) (s : State) : Host.Outcome State Fault Refusal :=
  .next (s.onLeaf fun l =>
    match (tget l.taps t.toNat).buf with
    | [] => l
    | b :: rest => (l.modTap t.toNat (fun p => { p with buf := rest })).engineBeat t.toNat b)

end Sys2Proof.Machine
end

