-- ==== Sys2Proof/Machine/TestPort.lean ====
section
/-!
DEFINITION. Sys2Proof/Machine/TestPort.lean: in-field tests of the host's units (R47, R198 to R207).
-/

namespace Sys2Proof.Machine

/-- A word to the test controller; it is kept for a RESEND (R47). -/
def Leaf.testOut (w : Nat) (l : Leaf) : Leaf :=
  { l with out := l.out ++ [.test (BitVec.ofNat 64 w)], test := { l.test with lastOut := some (BitVec.ofNat 64 w) } }

/-- A field of a unit's register (Table 8.16). -/
def Leaf.unitFld (l : Leaf) (f : Fld) (u : Nat) : Nat := l.fld (f.at (4 * u))

/-- A field of a unit's register set. -/
def Leaf.setUnit (f : Fld) (u v : Nat) (l : Leaf) : Leaf := l.setFld (f.at (4 * u)) v

/-- Whether a unit is fitted. -/
def Leaf.fitted (l : Leaf) (u : Nat) : Bool := l.unitFld GlR.TS_UNIT_FITTED u == 1

/-- Whether a unit is due. -/
def Leaf.isDue (l : Leaf) (u : Nat) : Bool := l.unitFld GlR.TS_UNIT_DUE u == 1

/-- Hours since a unit became due (AGE), saturating. -/
def Leaf.ageOf (l : Leaf) (u : Nat) : Nat :=
  if l.isDue u then min 0x7FF ((l.time.clk - tget l.test.since u) / 3600000000000) else 0

/-- A device advisory or verdict about a unit, sent by the leaf (Tables 13.5 to 13.7). -/
def Leaf.unitRecord (adv : Bool) (kind : Nat) (fields : List Byte) (l : Leaf) : Leaf :=
  let body := recPrefix kind (32 + fields.length) l.fleet.toNat l.epoch.toNat 0 ++ fields
  l.pushOwn 1 0x0A (recHead adv true 0 (recUnits body) l.fleet.toNat l.jobTag (l.flag GlR.CH_JOB_PHASE) false 3 false
    l.chain.cfg.toNat l.time.ns 0 0 ++ body)

/-- TEST_DUE or TEST_LATE of a unit (Table 13.7). -/
def Leaf.unitAdvice (kind u : Nat) (l : Leaf) : Leaf :=
  l.unitRecord true kind (leB 4 (u + l.unitFld GlR.TS_UNIT_STATE u * 16 + l.ageOf u * 2 ^ 16))

/-- A unit's health state set; a change counts in source 276 + u, and entering or leaving Suspect is appended to the
Peat log (R205, R207). -/
def Leaf.setHealth (u v : Nat) (blows : List Blow) (l : Leaf) : Leaf :=
  let old := l.unitFld GlR.TS_UNIT_STATE u
  if old = v then l
  else
    let l := (l.setUnit GlR.TS_UNIT_STATE u v).event (276 + u)
    if (old == 2) != (v == 2) then
      l.peatWrite .health (BitVec.ofNat 64 ((List.range 16).foldl
        (fun n k => n + (if k = u then v else l.unitFld GlR.TS_UNIT_STATE k % 4) * 4 ^ k) 0)) blows
    else l

/-- Set bits of SPMASK from bit 0 up; bit 0 always acts as set (Table 8.13). -/
def Leaf.stressBits (l : Leaf) : List Nat :=
  (List.range 8).filter (fun i => i == 0 || bit (l.fld GlR.TS_CTL_SPMASK) i)

/-- Stress point of a round (R201). -/
def Leaf.stressOf (l : Leaf) (u r : Nat) : Nat :=
  if l.unitFld GlR.TS_UNIT_STATE u = 0 then 0
  else l.stressBits.getD (r % l.stressBits.length) 0

/-- RUN of a unit (Table 8.7). -/
def runWord (u stress round seed : Nat) : Nat :=
  0x2 * 2 ^ 60 + u * 2 ^ 56 + stress * 2 ^ 53 + round * 2 ^ 32 + seed

/-- The rounds table changed for a unit. -/
def Leaf.setRound (u : Nat) (r : Option Round) (l : Leaf) : Leaf :=
  { l with test := { l.test with rounds := tput l.test.rounds u r } }

/-- The other units of a round of `u` (R201): its partner, when fitted and not the unit itself. -/
def Leaf.partnerOf (l : Leaf) (u : Nat) : List (BitVec 4) :=
  let p := l.unitFld GlR.TS_UNIT_PARTNER u
  if p != u && l.fitted p then [BitVec.ofNat 4 p] else []

/-- A round starts: RUN for its units, with one seed (R201); a disputed round repeats its own (R202). -/
def Leaf.runRound (u window : Nat) (l : Leaf) : Leaf :=
  match tget l.test.repeats u with
  | some r =>
    let l := { l with test := { l.test with repeats := tput l.test.repeats u none } }
    let r := { r with waiting := r.unit :: r.others, start := l.time.clk, window := window }
    let l := (r.unit :: r.others).foldl
      (fun l x => l.testOut (runWord x.toNat r.stress.toNat r.round.toNat r.seed.toNat)) l
    l.setRound u (some r)
  | none =>
    let n := l.test.rcount.toNat
    let seed := mixZ ((l.peatValue .seed).toNat + n) 0 % 2 ^ 32
    let st := l.stressOf u n
    let os := l.partnerOf u
    let bu := BitVec.ofNat 4 u
    let l := { l with test := { l.test with rcount := l.test.rcount + 1 } }
    let l := (bu :: os).foldl (fun l x => l.testOut (runWord x.toNat st n seed)) l
    l.setRound u (some { unit := bu, others := os, waiting := bu :: os, round := BitVec.ofNat 16 n
                         seed := BitVec.ofNat 32 seed, stress := BitVec.ofNat 3 st, start := l.time.clk
                         window := window })

/-- Whether a round of the unit runs. -/
def Leaf.roundRuns (l : Leaf) (u : Nat) : Bool :=
  match tget l.test.rounds u with
  | some r => !r.waiting.isEmpty
  | none => false

/-- A grant, a DONE or a reserved message ignored (Table 8.15). -/
def Leaf.testIgnored (l : Leaf) : Leaf := l.addSat GlR.TS_STAT_IGNORED 1

/-- A grant for one unit: a unit that is not due, or whose round still runs, ignores it (R199). -/
def Leaf.grantUnit (window u : Nat) (l : Leaf) : Leaf :=
  if l.isDue u && !l.roundRuns u then l.runRound u window else l.testIgnored

/-- A grant for every due unit. -/
def Leaf.grantAll (window : Nat) (l : Leaf) : Leaf :=
  ((List.range 16).filter (fun u => l.isDue u && !l.roundRuns u)).foldl (fun l u => l.runRound u window) l

/-- A TEST_ROUND record (Table 15.3). -/
def Leaf.roundRecord (r : Round) (fate : Nat) (l : Leaf) : Leaf :=
  l.record 2 0x0402 r.unit.toNat (leB 4 r.unit.toNat ++ leB 4 (r.others.head?.elim 0xFFFFFFFF BitVec.toNat) ++
    leB 4 r.round.toNat ++ leB 4 r.stress.toNat ++ leB 4 fate)

/-- A round fails to complete (R203): ABORT, counted, recorded; the unit stays due. -/
def Leaf.abortRound (r : Round) (l : Leaf) : Leaf :=
  let l := (l.setRound r.unit.toNat none).addSat GlR.TS_STAT_ABORTS 1
  let l := { l with test := { l.test with
    aborted := ((r.unit :: r.others).map (fun u => (u, r.round)) ++ l.test.aborted).take 64 } }
  (l.testOut (0x3 * 2 ^ 60 + r.unit.toNat * 2 ^ 56 + r.round.toNat * 2 ^ 32)).roundRecord r 2

/-- The round that waits for a unit's DONE. -/
def Leaf.roundOf (l : Leaf) (u : BitVec 4) : Option Round :=
  (l.test.rounds.filterMap Prod.snd).find? (fun r => r.waiting.any (· == u))

/-- A round completes (R198, R202): the unit is due no longer, unless it ran alone. -/
def Leaf.roundDone (r : Round) (l : Leaf) : Leaf :=
  let u := r.unit.toNat
  if r.others.isEmpty then (l.setRound u none).roundRecord r 3
  else
    let l := ((l.setUnit GlR.TS_UNIT_DUE u 0).setUnit GlR.TS_UNIT_OVERDUE u 0)
    { l with test := { l.test with since := tput l.test.since u l.time.clk } }

/-- DONE (R203): the cell of the round is kept, a non-zero status fails the round, the last DONE completes it. -/
def Leaf.testDone (w : Nat) (l : Leaf) : Leaf :=
  let u := BitVec.ofNat 4 (bits w 59 56)
  let n := BitVec.ofNat 16 (bits w 31 16)
  match l.roundOf u with
  | none => l.testIgnored
  | some r =>
    if r.round ≠ n then l.testIgnored
    else if bits w 15 0 ≠ 0 then l.abortRound r
    else
      let bin := l.tbinOf 1 (BitVec.ofInt 32 (sgn 8 (bits w 55 48)))
      let cells := tmod l.test.cells u.toNat
        (fun xs => ((n, BitVec.ofNat 3 bin, BitVec.ofNat 4 (bits w 47 44)) :: xs).take 16)
      let l := { l with test := { l.test with cells := cells } }
      let r := { r with waiting := r.waiting.filter (· != u) }
      let l := l.setRound r.unit.toNat (some r)
      if r.waiting.isEmpty then l.roundDone r else l

/-- REFUSE: the unit's round fails (R203). -/
def Leaf.testRefuse (w : Nat) (l : Leaf) : Leaf :=
  match l.roundOf (BitVec.ofNat 4 (bits w 59 56)) with
  | none => l.testIgnored
  | some r => l.abortRound r

/-- A message of the test port by its type (Table 8.7); a reserved type is counted and ignored. -/
def Leaf.testMessage (w : Nat) (l : Leaf) : Leaf :=
  let t := bits w 63 60
  if t = 0x8 then
    if bits w 59 56 = 0xF then l.grantAll (bits w 55 32) else l.grantUnit (bits w 55 32) (bits w 59 56)
  else if t = 0x9 then l.testDone w
  else if t = 0xA then l.testRefuse w
  else if t = 0xB then (match l.test.lastOut with
    | some x => { l with out := l.out ++ [.test x] }
    | none => l)
  else l.testIgnored

/-- A message arrives (R47, R51): idle while the host is isolated or the port is not fitted; with its queue full it is
discarded, counted, and a RESEND is sent. -/
def Leaf.testIn (w : DWord) (full : Bool) (l : Leaf) : Leaf :=
  if !(l.pins.hostIsoN && l.hard.testEn) then l
  else if full then
    let l := l.addSat GlR.TS_STAT_TPDROP 1
    { l with out := l.out ++ [.test (BitVec.ofNat 64 (0x4 * 2 ^ 60))] }
  else l.testMessage w.toNat

/-- A unit becomes due (R198). -/
def Leaf.becomeDue (u : Nat) (l : Leaf) : Leaf :=
  if l.hard.testEn && l.flag GlR.TS_CTL_EN && l.fitted u && !l.isDue u then
    let l := (l.setUnit GlR.TS_UNIT_DUE u 1).event (276 + u)
    let l := { l with test := { l.test with since := tput l.test.since u l.time.clk } }
    (l.testOut (0x1 * 2 ^ 60 + u * 2 ^ 56)).unitAdvice 0xCC u
  else l

/-- A due unit becomes overdue (R204): a Healthy one moves to Watched and the tray is told. -/
def Leaf.becomeOverdue (u : Nat) (l : Leaf) : Leaf :=
  if l.isDue u && l.unitFld GlR.TS_UNIT_OVERDUE u == 0 then
    let l := ((l.setUnit GlR.TS_UNIT_OVERDUE u 1).addSat GlR.TS_STAT_LATE_EV 1).event (276 + u)
    if l.unitFld GlR.TS_UNIT_STATE u = 0 then
      (l.setHealth u 1 []).unitRecord false 0xC1 (leB 4 (u + 1 * 64 + 2 * 2 ^ 16) ++ leB 4 0)
    else l
  else l

/-- A health update applied (R202, R205): state, cell and CLEAN as the tray holds them; a disputed round is repeated
with its seed on its units and the lowest other fitted Healthy unit. -/
def Leaf.healthUpdate (m : HealthMsg) (blows : List Blow) (l : Leaf) : Leaf :=
  let u := m.unit.toNat
  let l := l.setHealth u m.state.toNat blows
  let l := ((((l.setUnit GlR.TS_UNIT_COND u (b2n m.cond)).setUnit GlR.TS_UNIT_CTBIN u m.ctbin.toNat).setUnit
    GlR.TS_UNIT_CSIG u m.csig.toNat).setUnit GlR.TS_UNIT_CLEAN u m.clean.toNat)
  match tget l.test.rounds u with
  | none => l
  | some r =>
    if r.round ≠ m.round ∨ !r.waiting.isEmpty then l
    else match m.fate with
      | .none => l
      | .clean => (l.setRound u none).roundRecord r 0
      | .charged => (l.setRound u none).roundRecord r 1
      | .disputed =>
        let third := ((List.range 16).filter (fun k => l.fitted k && l.unitFld GlR.TS_UNIT_STATE k == 0 &&
          k != u && !r.others.any (fun x => x.toNat == k))).head?
        let r := { r with others := r.others ++ (third.map (BitVec.ofNat 4)).toList }
        { l.setRound u none with test := { (l.setRound u none).test with
            repeats := tput l.test.repeats u (some r) } }

/-- A disputed round is repeated at once while its window still has time, else in the next one (R202). -/
def Leaf.repeatNow (u : Nat) (l : Leaf) : Leaf :=
  match tget l.test.repeats u with
  | some r =>
    if l.time.clk < r.start + 1000 * r.window then l.runRound u ((r.start + 1000 * r.window - l.time.clk) / 1000)
    else (l.setUnit GlR.TS_UNIT_DUE u 1)
  | none => l

/-- A grant through the tray (R200): false when the leaf ignores it. -/
def Leaf.takeGrant (epoch : Word) (unit : Nat) (all : Bool) (window : Nat) (l : Leaf) : Bool × Leaf :=
  if !laterInk epoch l.epoch || (!all && !l.isDue unit) then (false, l.testIgnored)
  else
    let g : Option Grant := some { epoch := epoch, window := window }
    if all then (true, { l with test := { l.test with allGrant := g } })
    else (true, { l with test := { l.test with grants := tput l.test.grants unit g } })

/-- The grants of an Inkline's epoch run (R199, R201). -/
def Leaf.runGrants (epoch : Word) (l : Leaf) : Leaf :=
  let l := (l.test.grants).foldl (fun l p => match p.2 with
    | some g =>
      if g.epoch = epoch then
        { l with test := { l.test with grants := tput l.test.grants p.1 none } }.grantUnit g.window p.1
      else l
    | none => l) l
  match l.test.allGrant with
  | some g =>
    if g.epoch = epoch then ({ l with test := { l.test with allGrant := none } }).grantAll g.window else l
  | none => l

/-- TEST_GRANT_IN (R199). -/
def execTestGrantIn (w : DWord) (full : Bool) (s : State) : Host.Outcome State Fault Refusal :=
  .next (s.onLeaf (Leaf.testIn w full))

/-- TEST_DONE (R203). -/
def execTestDone (w : DWord) (full : Bool) (s : State) : Host.Outcome State Fault Refusal :=
  .next (s.onLeaf (Leaf.testIn w full))

/-- TEST_REFUSE (R203). -/
def execTestRefuse (w : DWord) (full : Bool) (s : State) : Host.Outcome State Fault Refusal :=
  .next (s.onLeaf (Leaf.testIn w full))

/-- TEST_RESEND_IN (R47). -/
def execTestResendIn (w : DWord) (full : Bool) (s : State) : Host.Outcome State Fault Refusal :=
  .next (s.onLeaf (Leaf.testIn w full))

/-- TEST_DUE (R198): the unit's test interval has run out. -/
def execTestDue (u : BitVec 4) (s : State) : Host.Outcome State Fault Refusal :=
  .next (s.onLeaf (Leaf.becomeDue u.toNat))

/-- TEST_OVERDUE (R204): the unit has been due for LATE hours. -/
def execTestOverdue (u : BitVec 4) (s : State) : Host.Outcome State Fault Refusal :=
  .next (s.onLeaf (Leaf.becomeOverdue u.toNat))

/-- TEST_LATE_ADVISORY (R204): hourly for a Watched or Suspect unit that is overdue. -/
def execTestLateAdvisory (u : BitVec 4) (s : State) : Host.Outcome State Fault Refusal :=
  .next (s.onLeaf fun l =>
    let st := l.unitFld GlR.TS_UNIT_STATE u.toNat
    if l.unitFld GlR.TS_UNIT_OVERDUE u.toNat = 1 ∧ (st = 1 ∨ st = 2) then l.unitAdvice 0xCD u.toNat else l)

/-- TEST_ROUND_TIMEOUT (R203): a round's DONEs have not all arrived within its window plus 1 ms. -/
def execTestRoundTimeout (u : BitVec 4) (s : State) : Host.Outcome State Fault Refusal :=
  .next (s.onLeaf fun l =>
    match tget l.test.rounds u.toNat with
    | some r => if r.waiting.isEmpty then l else l.abortRound r
    | none => l)

/-- HEALTH_UPDATE_RX (R205). -/
def execHealthUpdateRx (m : HealthMsg) (blows : List Blow) (s : State) : Host.Outcome State Fault Refusal :=
  .next (s.onLeaf fun l => (l.healthUpdate m blows).repeatNow m.unit.toNat)

end Sys2Proof.Machine
end

