-- ==== Sys2Proof/Machine/Cut.lean ====
section
/-!
DEFINITION. Sys2Proof/Machine/Cut.lean: frame instants and their windows' ends, reduction waves, the Inkline at a leaf,
flush markers and the cut at a chain master (R76, R77, R88, R96 to R98, R117, R122 to R124, R143 to R153, R331).
-/

namespace Sys2Proof.Machine

/-! ## Instants -/

/-- Whether a leaf opens no window for a reason other than STOPPED (R97, R351): the IDLE of its REPORT. -/
def Leaf.idle (l : Leaf) : Bool := !l.flag GlR.QL_CTL_EN || l.fleet == 0 || l.flag GlR.PT_OOS_MARK

/-- Whether instants come from Reed ticks and not from the time base (R124). -/
def Leaf.tickMode (l : Leaf) : Bool := !l.timeRuns || (!l.isMaster && l.fld GlR.TM_STAT_STATE == svFree)

/-- The marker sent to every connected bank; the core takes it itself for a bank that stopped after the handshake
(R78). -/
def Leaf.markBanks (m : BankMarker) (take : Nat → Leaf → Leaf) (l : Leaf) : Leaf :=
  l.banksOn.foldl (fun l b =>
    if (tget l.cap.front b.toNat).clk == .stoppedAck then take b.toNat l
    else l.modFront b.toNat (fun f => { f with toMark := f.toMark ++ [m] })) l

/-- The sample set's part of an instant: value ports copied, FRESH restarted, bank markers sent (R76, R83). -/
def Leaf.sampleMark (t : Nat) (l : Leaf) : Leaf :=
  let l := { l with cap := { l.cap with
    sampleVals := l.cap.vals, heldNow := false, instWait := l.banksOn
    vals := l.cap.vals.foldl (fun (v : Tbl ValuePort) (p : Nat × ValuePort) => tput v p.1 { p.2 with fresh := false }) [] } }
  l.markBanks (.instant t) Leaf.sampleBank

/-- LOCKRUN counts instants issued while locked, and satisfies a lost reference at 256 (R52, R116). -/
def Leaf.countLock (l : Leaf) : Leaf :=
  if l.heldLock && l.timeRuns then
    let l := l.addSat GlR.TM_STAT_LOCKRUN 1
    if 256 ≤ l.fld GlR.TM_STAT_LOCKRUN then { l with time := { l.time with lockWait := false } } else l
  else l.setFld GlR.TM_STAT_LOCKRUN 0

/-- What is in force at an instant, as its window carries it (R96, Table 4.4). -/
def Leaf.windowAt (l : Leaf) (t : Nat) : Window :=
  { instant := t, epoch := l.epoch, cfg := l.quill.actCfg, tag := BitVec.ofNat 24 l.jobTag
    untimed := !l.timed, held := false, newEp := l.quill.newEp, fenced := l.ctl.fenced
    mixed := l.flag GlR.QL_LM_CTL_STAGE, stale := laterCfg l.chain.cfg l.quill.actCfg, bank := l.actBank
    pcode := BitVec.ofNat 3 (l.fld GlR.QL_CTL_ACT_PN), chan := none, pc := 0, regs := [], inval := [], exec := 0
    total := 0, fields := [], written := [], stopped := 0, overrun := false, incompl := false, waves := []
    wdrop := false }

/-- An instant is issued (R122): the sample set, and a window unless R97 forbids one. -/
def Leaf.issueInstant (t : Nat) (l : Leaf) : Leaf :=
  let l := ({ l with time := { l.time with lastInst := some t } }.sampleMark t).countLock
  if l.idle || l.flag GlR.CH_STAT_STOPPED then
    { l with quill := { l.quill with
        prev := l.quill.last
        last := some { instant := t, opened := false, epoch := l.epoch, cfg := l.quill.actCfg, untimed := !l.timed
                       waves := [], wdrop := false, used := false } } }
  else { l with quill := { l.quill with pend := l.quill.pend ++ [l.windowAt t], newEp := false } }

/-- The next frame instant on the time base: the first multiple of P not before now and after the last one (R117,
R122). -/
def Leaf.nextInstant (l : Leaf) : Nat :=
  let from' := max l.time.ns (l.time.lastInst.elim 0 (· + 1))
  (from' + l.period - 1) / l.period * l.period

/-! ## Waves (R143, R144) -/

/-- An empty feature record. -/
def emptyRec : WaveRec := { count := 0, sum := 0, kmin := 0xFFFFFFFF, kmax := 0 }

/-- Two feature records added. -/
def waveAdd (a b : WaveRec) : WaveRec :=
  { count := a.count + b.count, sum := a.sum + b.sum
    kmin := if a.kmin.toNat ≤ b.kmin.toNat then a.kmin else b.kmin
    kmax := if a.kmax.toNat ≤ b.kmax.toNat then b.kmax else a.kmax }

/-- A leaf's own sum for a feature as a record. -/
def WaveSum.asRec (x : WaveSum) : WaveRec :=
  { count := BitVec.ofNat 16 x.count, sum := BitVec.ofInt 48 x.sum, kmin := BitVec.ofNat 32 x.kmin
    kmax := BitVec.ofNat 32 x.kmax }

/-- The halves of a wave that an open chain returns, added together. -/
def waveJoin (a b : WaveMsg) : WaveMsg :=
  { a with mask := a.mask ||| b.mask, exCfg := a.exCfg + b.exCfg, exTime := a.exTime + b.exTime
           exEp := a.exEp + b.exEp, recs := List.zipWith waveAdd a.recs b.recs
           bad := a.bad || b.bad, drop := a.drop || b.drop }

/-- The bit of this leaf's position. -/
def Leaf.posBit (l : Leaf) : DWord := 1 <<< l.pins.pkgpos.toNat

/-- The contribution marked as taken by its wave. -/
def Leaf.useContribution (k : Nat) (l : Leaf) : Leaf :=
  let f : Option Contribution → Option Contribution := fun c => c.map (fun c =>
    if c.instant = k then { c with used := true } else c)
  { l with quill := { l.quill with last := f l.quill.last, prev := f l.quill.prev } }

/-- A leaf folds its contribution into a wave, or raises the count of the first exclusion that holds (R144). -/
def Leaf.foldWave (c : Contribution) (m : WaveMsg) (l : Leaf) : Leaf × WaveMsg :=
  if !c.opened || c.used then (l, m)
  else
    let l := l.useContribution c.instant
    let ex := l.addSat GlR.CH_WAVE_EXCL 1
    if l.quill.actCfg ≠ l.chain.cfg then (ex, { m with exCfg := m.exCfg + 1 })
    else if c.untimed then (ex, { m with exTime := m.exTime + 1 })
    else if c.epoch ≠ m.epoch ∨ l.fld GlR.IDENT_VERSION_MINOR < l.fld GlR.CH_STAT_EFF_MINOR then
      (ex, { m with exEp := m.exEp + 1 })
    else
      let recs := (List.range m.recs.length).map (fun i =>
        match c.waves.find? (fun p => p.1 == i) with
        | some (_, x) => waveAdd (m.recs.getD i emptyRec) x.asRec
        | none => m.recs.getD i emptyRec)
      (l, { m with recs := recs, mask := m.mask ||| l.posBit, drop := m.drop || c.wdrop })

/-- Whether a wave of a time stamp may pass (R144): none while it must be held; else the contribution of its instant,
if the leaf knows one. -/
def Leaf.waveWait (l : Leaf) (ts : Word) : Option (Option Contribution) :=
  let at' : Nat → Bool := fun k => k % 2 ^ 32 == ts.toNat
  match (l.quill.last.toList ++ l.quill.prev.toList).find? (fun c => at' c.instant) with
  | some c => some (some c)
  | none =>
    if (l.quill.win.toList ++ l.quill.pend).any (fun w => at' w.instant) then none
    else
      let past := (l.time.ns + 2 ^ 32 - ts.toNat) % 2 ^ 32
      if 2500 < past ∧ past < 2 ^ 31 then some none else none

/-- A member passes a wave on: folded, out of the opposite port, or back where it came from at the end of an open
chain; a failed incoming CRC sets BAD and inverts the outgoing one (R133, R144). -/
def Leaf.passWave (p : Bool) (m : WaveMsg) (crcBad : Bool) (c : Option Contribution) (l : Leaf) : Leaf :=
  let m := { m with bad := m.bad || crcBad }
  let (l, m) := match c with
    | some c => l.foldWave c m
    | none => (l, m)
  let out := if (l.port (!p)).st = .up then !p else p
  (l.sendOn out (.wave m) crcBad).addMod GlR.CH_WAVE_WAVES 1

/-- A member's held wave leaves once it may. -/
def Leaf.tryHeld (l : Leaf) : Leaf :=
  match l.chain.heldWave with
  | none => l
  | some (p, m, bad) =>
    match l.waveWait m.tstamp with
    | none => l
    | some c => Leaf.passWave p m bad c { l with chain := { l.chain with heldWave := none } }

/-- The reduction record that the master sends to its tray. -/
def Leaf.sendWave (m : WaveMsg) (l : Leaf) : Leaf :=
  let l := l.pushMsg { fleet := l.fleet, cls := 2, ty := 5, ink := m.epoch, mark := false, body := waveBytes m } none
  let l := l.addMod GlR.CH_WAVE_WAVES 1
  match l.chain.cut with
  | some c => if laterInk c.epoch m.epoch then
      { l with chain := { l.chain with cut := some { c with waves := min 255 (c.waves + 1) } } } else l
  | none => l

/-- The master completes its wave: its own contribution, then the record. -/
def Leaf.completeWave (m : WaveMsg) (l : Leaf) : Leaf :=
  let l := { l with chain := { l.chain with waveOut := none } }
  match l.waveWait m.tstamp with
  | some (some c) => let r := l.foldWave c m
                     r.1.sendWave r.2
  | _ => l.sendWave m

/-- An empty wave of an instant. -/
def Leaf.emptyWave (c : Contribution) (l : Leaf) : WaveMsg :=
  { tstamp := BitVec.ofNat 32 c.instant, epoch := c.epoch, cfg := c.cfg, mask := 0, exCfg := 0, exTime := 0
    exEp := 0, recs := List.replicate l.chain.waveF.toNat emptyRec, bad := false, drop := false }

/-- A wave that has not returned when the next window closes is abandoned (R144). -/
def Leaf.abandonWave (l : Leaf) : Leaf :=
  match l.chain.waveOut with
  | some (c, _, _) => Leaf.sendWave { l.emptyWave c with bad := true } { l with chain := { l.chain with waveOut := none } }
  | none => l

/-- Ports on which the master launches a wave: A around a ring, each UP port of an open chain. -/
def Leaf.wavePorts (l : Leaf) : List Bool :=
  if l.flag GlR.CH_STAT_RING then [false] else [false, true].filter (fun p => decide ((l.port p).st = .up))

/-- The master launches the wave of the window that has closed, unless there are no features or it is stopped. -/
def Leaf.launchWave (c : Contribution) (l : Leaf) : Leaf :=
  if l.chain.waveF = 0 || l.flag GlR.CH_STAT_STOPPED then l
  else
    let m := l.emptyWave c
    let l := { l with chain := { l.chain with waveOut := some (c, l.wavePorts.length, none) } }
    if l.wavePorts.isEmpty then l.completeWave m
    else l.wavePorts.foldl (fun l p => l.sendOn p (.wave m) false) l

/-- A wave reaches the master. -/
def Leaf.masterWave (p : Bool) (m : WaveMsg) (crcBad : Bool) (l : Leaf) : Leaf :=
  match l.chain.waveOut with
  | none => l
  | some (k, n, acc) =>
    if k.instant % 2 ^ 32 ≠ m.tstamp.toNat then l
    else if crcBad then l.addSat (GlR.CH_ERR_CRC.at (portOff p)) 1
    else
      let m := match acc with
        | some a => waveJoin a m
        | none => m
      if n ≤ 1 then l.completeWave m
      else { l with chain := { l.chain with waveOut := some (k, n - 1, some m) } }

/-- A wave reaches a member: it passes, or waits in the one place for it (R137, R144). -/
def Leaf.memberWave (p : Bool) (m : WaveMsg) (crcBad : Bool) (l : Leaf) : Leaf :=
  match l.waveWait m.tstamp with
  | some c => l.passWave p m crcBad c
  | none =>
    if l.chain.heldWave.isSome then l.reedDrop p (.wave m)
    else { l with chain := { l.chain with heldWave := some (p, m, crcBad) } }

/-! ## The end of a window -/

/-- FLUSH(E) in an uplink class (R162). -/
def Leaf.flushCell (e : Word) (l : Leaf) (c : Nat) : Leaf :=
  l.pushMsg { fleet := l.fleet, cls := BitVec.ofNat 3 c, ty := 3, ink := e, mark := false, body := leB 4 e.toNat } none

/-- Frame-class flushes leave behind the last frame of an earlier epoch (Table 6.3). -/
def Leaf.releaseFlush (l : Leaf) : Leaf :=
  let ready : Word → Bool := fun e => (l.quill.win.toList ++ l.quill.pend).all (fun w => !laterInk e w.epoch)
  let go := l.quill.frameFlush.filter ready
  go.foldl (fun l e => l.flushCell e 2)
    { l with quill := { l.quill with frameFlush := l.quill.frameFlush.filter (fun e => !ready e) } }

/-- The window in which no channel runs any more closes (R98): the frame, the wave. -/
def Leaf.closeWindow (l : Leaf) : Leaf :=
  match l.quill.win with
  | none => l
  | some w =>
    if w.chan.isSome then l
    else
      let l := l.closeFrame w
      let c : Contribution := { instant := w.instant, opened := true, epoch := w.epoch, cfg := w.cfg
                                untimed := w.untimed, waves := w.waves, wdrop := w.wdrop, used := false }
      let l := { l with quill := { l.quill with win := none, prev := l.quill.last, last := some c } }
      let l := l.releaseFlush
      if l.isMaster then l.abandonWave.launchWave c else l.tryHeld

/-- The oldest window ends at its deadline (R88): what runs is stopped, the rest skipped, the frame closes. -/
def Leaf.finishWindow (l : Leaf) : Leaf :=
  let l := match l.quill.win with
    | some _ => l
    | none => l.openWindow
  match l.quill.win with
  | none => l
  | some w =>
    let l := if l.tickMode then l else l.advanceTo (w.instant + periodNs w.pcode.toNat - 1000)
    l.deadline.closeWindow

/-- Every window before the next instant ends. -/
def Leaf.finishWindows (l : Leaf) : Leaf := iter Leaf.finishWindow (l.quill.pend.length + 1) l

/-! ## The cut at a chain master (R150, R151) -/

/-- Number of ones of a mask of positions. -/
def popcount (m : DWord) : Nat := ((List.range 64).filter (fun i => m.getLsbD i)).length

/-- The cut closes: the CUT report, MISSING, the last complete cut; the marker's repeats end (R145). -/
def Leaf.closeCut (timeout : Bool) (l : Leaf) : Leaf :=
  match l.chain.cut with
  | none => l
  | some c =>
    let missing := c.posMask &&& ~~~(c.ontime ||| c.late)
    let l := l.pushOwn 1 6 (leB 4 c.epoch.toNat ++
      leB 4 (kindNum c.kind * 2 ^ 24 + c.waves * 2 ^ 16 + c.members * 2 ^ 8 + b2n timeout) ++
      leB 8 c.ontime.toNat ++ leB 8 c.late.toNat ++ leB 8 missing.toNat)
    let l := l.setFld GlR.CH_CUT_MISSING (popcount missing)
    { l with chain := { l.chain with cut := none, lastCut := c.epoch
                                     repeats := l.chain.repeats.filter (fun r => r.1.epoch != c.epoch) } }

/-- Ports from which this leaf receives a class's items bound for the master (R149). -/
def Leaf.flushFrom (l : Leaf) (alarm : Bool) : List Bool :=
  [false, true].filter (fun p =>
    decide ((l.port p).st = .up) &&
    (if alarm then (l.port p).toward
     else if l.isMaster then !l.flag GlR.CH_STAT_RING || p
     else l.route == some (!p)))

/-- Whether FLUSH of an epoch and class has arrived on a port. -/
def Leaf.flushHas (l : Leaf) (p alarm : Bool) (e : BitVec 16) : Bool :=
  l.chain.flushGot.any (fun g => g == (p, alarm, e))

/-- Whether every upstream flush of a class has arrived; around a ring the Frame class comes on one port, whichever it
is. -/
def Leaf.flushReady (l : Leaf) (alarm : Bool) (e : BitVec 16) : Bool :=
  if !alarm && !l.isMaster && l.flag GlR.CH_STAT_RING then l.flushHas false alarm e || l.flushHas true alarm e
  else (l.flushFrom alarm).all (fun p => l.flushHas p alarm e)

/-- A cut that has everything completes (R150). -/
def Leaf.tryCut (l : Leaf) : Leaf :=
  match l.chain.cut with
  | none => l
  | some c =>
    let e := c.epoch.setWidth 16
    if c.posMask &&& ~~~(c.ontime ||| c.late) = 0 ∧ l.flushReady true e ∧ l.flushReady false e then l.closeCut false
    else l

/-- A member's REPORT of the cut's epoch joins the cut. -/
def Leaf.cutReport (pos : BitVec 6) (epoch : Word) (late : Bool) (l : Leaf) : Leaf :=
  match l.chain.cut with
  | none => l
  | some c =>
    if c.epoch ≠ epoch then l
    else
      let b : DWord := 1 <<< pos.toNat
      let c := if late then { c with late := c.late ||| b } else { c with ontime := c.ontime ||| b }
      Leaf.tryCut { l with chain := { l.chain with cut := some c } }

/-- The master starts the cut of an epoch; one still open closes first (DESIGN CHOICE, assumption log 11). -/
def Leaf.startCut (e : Word) (k : Kind) (late : Bool) (l : Leaf) : Leaf :=
  let l := l.closeCut true
  let own := l.posBit
  let all := l.chain.members.foldl (fun m p => m ||| (1 <<< p.1 : DWord)) own
  let c : Cut := { epoch := e, kind := k, start := l.time.ns, waves := 0, members := popcount all, posMask := all
                   ontime := if late then 0 else own, late := if late then own else 0 }
  { l with chain := { l.chain with cut := some c } }

/-! ## The Inkline at the leaf (R147) -/

/-- The snapshot's part (R77, R83, R360). -/
def Leaf.snapshotMark (e : Word) (drain : Bool) (l : Leaf) : Leaf :=
  let l := { l with cap := { l.cap with inkWait := l.banksOn, stagingVals := l.cap.vals, stagEpoch := e
                                        stagTime := l.time.ns, drainPend := l.cap.drainPend || drain } }
  if l.banksOn.isEmpty then l.snapDone else l.markBanks (.inkline e) Leaf.snapBank

/-- An armed bank becomes active (R96): g8 to g15 and DIS of its channels start afresh. -/
def Leaf.switchBank (e : Word) (l : Leaf) : Leaf :=
  match l.quill.arming with
  | none => l
  | some a =>
    if laterInk a.epoch e then l
    else
      let b := !l.actBank
      let mine : Nat → Bool := fun k => decide (2048 * b2n b ≤ k ∧ k < 2048 * b2n b + 2048)
      let l := { l with quill := { l.quill with
        arming := none, actCfg := a.cfg
        greg := l.quill.greg.filter (fun p => !mine p.1), ginval := l.quill.ginval.filter (fun p => !mine p.1) } }
      let l := ((l.setFld GlR.QL_CTL_ACT_BANK (b2n b)).setFld GlR.QL_CTL_ARMED 0).setFld GlR.QL_CTL_ACT_PN a.pn.toNat
      let l := (l.regs.filter (fun p => decide (0x9800 ≤ p.1 ∧ p.1 < 0x9C00))).foldl
        (fun l p => l.setFld (GlR.QL_CHST_DIS.at (p.1 - 0x9800)) 0) l
      l.setEvent GlR.QL_STAT_SWITCHED 298

/-- A teardown whose Inkline this is (R331). -/
def Leaf.tearDown (e : Word) (l : Leaf) : Leaf :=
  match l.ctl.teardown with
  | none => l
  | some t =>
    if laterInk t.epoch e then l
    else
      let tag := l.jobTag
      let l := { l with ctl := { l.ctl with teardown := none } }
      let l := ((l.setFld GlR.QL_CTL_EN 0).setFld GlR.CH_JOB_TD 1).askDump 1 tag 1
      l.answer t.sender t.cseq 6 0 0 0

/-- A fence notice whose Inkline this is (R310). -/
def Leaf.fenceAt (e : Word) (l : Leaf) : Leaf :=
  match l.ctl.fencePend with
  | none => l
  | some (f, v) =>
    if laterInk f e then l else { l with ctl := { l.ctl with fencePend := none, fenced := v } }

/-- A lease whose range the epoch has reached or passed is void from there on (R319). -/
def Leaf.voidLease (e : Word) (l : Leaf) : Leaf :=
  let n := l.fld GlR.CH_INK_CTL_LEASE_LEFT
  let first := l.reg 0x2020
  if 0 < n ∧ (e = first + BitVec.ofNat 32 (n - 1) ∨ laterInk e (first + BitVec.ofNat 32 (n - 1))) then
    l.setFld GlR.CH_INK_CTL_LEASE_LEFT 0 else l

/-- Flush markers of an Inkline: uplink cells in each class, Reed flushes due (R148, R149). -/
def Leaf.flushMark (e : Word) (l : Leaf) : Leaf :=
  let l := [0, 1, 3, 4].foldl (Leaf.flushCell e) l
  let l := Leaf.releaseFlush { l with quill := { l.quill with frameFlush := l.quill.frameFlush ++ [e] } }
  let due := [(true, e.setWidth 16), (false, e.setWidth 16)]
  let due := if l.isMaster then due.drop 1 else due
  { l with chain := { l.chain with flushDue := l.chain.flushDue ++ due } }

/-- Epoch `e` is applied in one step (R147), with its KIND and the config epoch that a COMMIT carries. -/
def Leaf.applyEpoch (e : Word) (k : Kind) (cfg : Option (BitVec 16)) (late catchup : Bool) (l : Leaf) : Leaf :=
  let drain := k.ckpt && l.jobTag != 0 && !l.flag GlR.CH_JOB_TD
  let l := (((l.setFld GlR.CH_CUT_EP e.toNat).setFld GlR.CH_CUT_LATE (b2n late)).setFld GlR.CH_CUT_CATCHUP
    (b2n catchup)).setFld GlR.CH_CUT_KIND (kindNum k)
  let l := l.snapshotMark e drain
  let l := l.setReg 0x200C e
  let l := l.setFld GlR.CH_STAT_STOPPED (b2n k.stop)
  let l := match cfg with
    | some c => { l with chain := { l.chain with cfg := c } }
    | none => l
  let l := l.keySwitch.switchBank e
  let l := ((l.tearDown e).fenceAt e).runGrants e
  let l := ((l.occReset.voidLease e).flushMark e).setFld GlR.CH_STAT_EFF_MINOR (l.fld GlR.CH_STAT_NEXT_MINOR)
  let l := { l with quill := { l.quill with newEp := true }
                    time := { l.time with inks := l.time.inks.filter (fun m => laterInk m.epoch e)
                                          lastInk := some l.time.ns }
                    chain := { l.chain with lateNow := late, catchNow := catchup
                                            flushGot := l.chain.flushGot.filter (fun g =>
                                              g.2.2 == e.setWidth 16 || l.time.inks.any (fun m => m.epoch.setWidth 16 == g.2.2)) } }
  if l.isMaster then (l.startCut e k late).tryCut else l

/-- The config epoch that a marker commits. -/
def inkCfg (m : InkMsg) : Option (BitVec 16) := if m.kind.commit then some m.cfg else none

/-- The first pending Inkline is applied at its time. -/
def Leaf.applyInk (l : Leaf) : Leaf :=
  match l.time.inks with
  | [] => l
  | m :: rest =>
    let l := { l with time := { l.time with inks := rest } }.advanceTo m.time.toNat
    if m.epoch = l.epoch || laterInk l.epoch m.epoch then l
    else l.applyEpoch m.epoch m.kind (inkCfg m) false false

/-- A pending list in time order with one more marker. -/
def insertInk (m : InkMsg) : List InkMsg → List InkMsg
  | [] => [m]
  | x :: t => if m.time.toNat < x.time.toNat then m :: x :: t else x :: insertInk m t

/-- A marker or GO refused (R146, R154). -/
def Leaf.refuseInk (l : Leaf) : Leaf := (l.addSat GlR.CH_CUT_REFUSED 1).event 309

/-- A marker becomes pending, is applied late, is ignored as a repeat, or is refused (R123, R145, R146). -/
def Leaf.takeInk (m : InkMsg) (l : Leaf) : Leaf :=
  if m.epoch = l.epoch || l.time.inks.any (fun x => x.epoch == m.epoch) then l
  else if laterInk l.epoch m.epoch || l.time.inks.any (fun x => x.time == m.time) then l.refuseInk
  else if m.time.toNat < l.time.ns then
    (l.setEvent GlR.TM_STAT_LATE_INK 303).applyEpoch m.epoch m.kind (inkCfg m) true false
  else if 4 ≤ l.time.inks.length then (l.setEvent GlR.TM_STAT_INK_FULL 304).refuseInk
  else { l with time := { l.time with inks := insertInk m l.time.inks } }

/-- A member behind the master catches up (R152): the KINDs of the markers it holds, one snapshot, STOP and the
committed config epoch from STATE. -/
def Leaf.catchUp (m : StateMsg) (l : Leaf) : Leaf :=
  let held := l.time.inks.filter (fun x => !laterInk x.epoch m.epoch)
  let k : Kind := { stop := m.stop, ckpt := held.any (fun x => x.kind.ckpt), commit := held.any (fun x => x.kind.commit) }
  l.applyEpoch m.epoch k (some m.cfg) true true

/-! ## Time reaches -/

/-- Pending Inklines that come before or with the next instant are applied first (R117, R122). -/
def Leaf.inkFirst (l : Leaf) : Leaf :=
  match l.time.inks with
  | m :: _ => if m.time.toNat ≤ l.nextInstant then l.applyInk else l
  | [] => l

/-- The deadline of the window that has not closed. -/
def Leaf.windowEnd (l : Leaf) : Option Nat :=
  match l.quill.win.toList ++ l.quill.pend with
  | w :: _ => some (w.instant + periodNs w.pcode.toNat - 1000)
  | [] => none

/-- Pending Inklines up to a time are applied. -/
def Leaf.inksUpTo (t : Nat) (l : Leaf) : Leaf :=
  iter (fun l => match l.time.inks with
    | m :: _ => if m.time.toNat ≤ t then l.applyInk else l
    | [] => l) 4 l

/-- The next instant of the time base: Inklines and window ends before it come first, in time order. -/
def Leaf.instantStep (l : Leaf) : Leaf :=
  let l := match l.windowEnd with
    | some t => (l.inksUpTo t).finishWindows
    | none => l
  let l := iter Leaf.inkFirst 5 l
  let t := l.nextInstant
  (l.advanceTo t).issueInstant t

/-- The first pending Inkline: instants and window ends before it come first. -/
def Leaf.inkStep (l : Leaf) : Leaf :=
  match l.time.inks with
  | [] => l
  | m :: _ =>
    let n := if l.nextInstant < m.time.toNat then (m.time.toNat - 1 - l.nextInstant) / l.period + 1 else 0
    let l := if l.tickMode then l else iter Leaf.instantStep n l
    let l := match l.windowEnd with
      | some t => if t < m.time.toNat && !l.tickMode then l.finishWindows else l
      | none => l
    l.applyInk

/-- The window's deadline (R88); none while instants come from ticks (R124). -/
def Leaf.deadlineStep (l : Leaf) : Leaf := if l.tickMode then l else l.finishWindow

/-- A step passes the first of the Inklines and instants that it meets, with an Inkline before an instant of the same
time (R117). -/
def Leaf.passOne (instants : Bool) (last : Nat) (l : Leaf) : Leaf :=
  let i := l.time.lastInst.elim 0 (· + 1)
  let t := (i + l.period - 1) / l.period * l.period
  match l.time.inks with
  | m :: _ =>
    if m.time.toNat ≤ last ∧ (¬ instants ∨ m.time.toNat ≤ t) then l.applyInk
    else if instants ∧ t ≤ last then l.issueInstant t else l
  | [] => if instants ∧ t ≤ last then l.issueInstant t else l

/-- A waiting phase step is applied between windows (R117). -/
def Leaf.phaseStep (l : Leaf) : Leaf :=
  match l.time.stepPend with
  | none => l
  | some (th, fromFree) =>
    if l.quill.win.isSome || !l.quill.pend.isEmpty then l
    else
      let old := l.time.ns
      let new := ((old : Int) - th).toNat
      let pass := !(fromFree && !l.isMaster)
      let n := if old < new then (new - old) / l.period + 6 else 0
      let lastI := if pass then some (max (l.time.lastInst.getD 0) (old - 1)) else l.time.lastInst
      let l := { l with time := { l.time with ns := new, stepPend := none, lastInst := lastI } }
      let l := onlyIf (!fromFree) (Leaf.setEvent GlR.TM_STAT_STEPPED 301) l
      iter (Leaf.passOne pass new) n l

/-- A Reed tick that stands for an instant issues it while the time base does not (R124); the deadline is the tick
before the next instant. -/
def Leaf.tickInstant (carried : Nat) (l : Leaf) : Leaf :=
  let t := carried / 50000 * 50000
  let l := match l.quill.win.toList ++ l.quill.pend with
    | w :: _ => if w.instant + periodNs w.pcode.toNat ≤ t + 50000 ∧ w.instant < t then l.finishWindows else l
    | [] => l
  if t % l.period == 0 && l.time.lastInst.all (fun i => decide (i < t)) then l.issueInstant t else l

/-! ## Commands -/

/-- FRAME_INSTANT (R122). While instants come from ticks (R124) aligned time issues none. -/
def execFrameInstant (s : State) : Host.Outcome State Fault Refusal :=
  .next (s.onLeaf fun l => if l.tickMode then l else l.instantStep)

/-- INKLINE_TIME (R122, R147). While the time base stands still, aligned time reaches nothing. -/
def execInklineTime (s : State) : Host.Outcome State Fault Refusal :=
  .next (s.onLeaf fun l => if l.timeRuns then l.inkStep else l)

/-- PHASE_STEP (R117). -/
def execPhaseStep (s : State) : Host.Outcome State Fault Refusal := .next (s.onLeaf Leaf.phaseStep)

/-- WINDOW_DEADLINE (R88, R124). -/
def execWindowDeadline (s : State) : Host.Outcome State Fault Refusal := .next (s.onLeaf Leaf.deadlineStep)

/-- FRAME_CLOSE (R98): of a window whose channels have all had their turn. -/
def execFrameClose (s : State) : Host.Outcome State Fault Refusal := .next (s.onLeaf Leaf.closeWindow)

/-- REED_WAVE (R144). -/
def execReedWave (port : Bool) (m : WaveMsg) (crcOk : Bool) (s : State) : Host.Outcome State Fault Refusal :=
  .next (s.onLeaf fun l =>
    if (l.port port).st ≠ .up then l
    else if l.isMaster then l.masterWave port m (!crcOk) else l.memberWave port m (!crcOk))

/-- REED_FLUSH (R149): recorded when its bits match a pending epoch or the one in force, else discarded. -/
def execReedFlush (port alarmClass : Bool) (ep : BitVec 16) (s : State) : Host.Outcome State Fault Refusal :=
  .next (s.onLeaf fun l =>
    if (l.port port).st = .up && (ep == l.epoch.setWidth 16 || l.time.inks.any (fun m => m.epoch.setWidth 16 == ep)) then
      Leaf.tryCut { l with chain := { l.chain with
        flushGot := (port, alarmClass, ep) :: l.chain.flushGot.filter (fun g => g != (port, alarmClass, ep)) } }
    else l)

/-- The port on which a leaf sends a flush: the routed one; in Frame class the master uses port A, and a member of a
ring the port opposite the one the flush came on. -/
def Leaf.flushOut (l : Leaf) (alarm : Bool) (e : BitVec 16) : Option Bool :=
  if l.isMaster then (if alarm then none else some false)
  else if !alarm && l.flag GlR.CH_STAT_RING then some (l.flushHas false false e)
  else l.route

/-- REED_FLUSH_SEND (R149): sent once for an epoch when everything of earlier epochs is ahead of it and the upstream
flushes have arrived. -/
def execReedFlushSend (alarmClass : Bool) (s : State) : Host.Outcome State Fault Refusal :=
  .next (s.onLeaf fun l =>
    match l.chain.flushDue.find? (fun d => d.1 == alarmClass) with
    | none => l
    | some (_, e) =>
      let ahead := alarmClass || (l.quill.frameFlush.isEmpty && l.chain.heldWave.isNone)
      if ahead && (l.isMaster || l.flushReady alarmClass e) then
        match l.flushOut alarmClass e with
        | none => l
        | some p => Leaf.sendOn p (.flush alarmClass e) false { l with chain := { l.chain with
            flushDue := l.chain.flushDue.filter (fun d => d != (alarmClass, e)) } }
      else l)

/-- CUT_TIMEOUT (R150): 400 µs after T. -/
def execCutTimeout (s : State) : Host.Outcome State Fault Refusal :=
  .next (s.onLeaf fun l =>
    match l.chain.cut with
    | some c => (l.advanceTo (c.start + 400000)).closeCut true
    | none => l)

end Sys2Proof.Machine
end

