-- ==== Sys2Proof/Machine/PzCore.lean ====
section
/-!
DEFINITION. Sys2Proof/Machine/PzCore.lean: what every unit of Polornaz uses: dies and address space (R209 to R214, R231,
R383), memory with drain-ahead (R213, R359, R388), records (R343), host writes and MSI-X (R375, R400), the alarm output
stage (R376), record egress (R313 to R316), device alarms (R421).
-/

namespace Sys2Proof.Machine

/-! ## Small accessors -/

/-- Tray time in ns. -/
def Pz.now (z : Pz) : Nat := z.time.ns

/-- Domain times moved by `d` ns. -/
def moveDoms (d : Nat) (t : Tbl Servo) : Tbl Servo :=
  let f : Servo → Servo := fun v => { v with ns := v.ns + d }
  tmod (tmod t 0 f) 1 f

/-- Tray time moved forward to `t`, the domain times with it; never back. -/
def Pz.advanceTo (t : Nat) (z : Pz) : Pz :=
  if z.time.ns < t then
    { z with time := { z.time with ns := t, clk := z.time.clk + (t - z.time.ns)
                                   doms := moveDoms (t - z.time.ns) z.time.doms } }
  else z

/-- Fleet ID of this Polornaz (R216). -/
def Pz.fleet (z : Pz) : Word := z.reg 0x90000

/-- Role: 0 tray, 1 row, 2 root (Table 9.11). -/
def Pz.role (z : Pz) : Nat := z.fld PzR.PKG_CTL_ROLE

/-- Last power-up step completed (Table 18.10). -/
def Pz.step (z : Pz) : Nat := z.fld PzR.PWR_STAT_STEP

/-- Whether a base die is in service (R210). -/
def Pz.dieOk (z : Pz) (d : Nat) : Bool := bit (z.fld PzR.PKG_STAT_DIE_OK) d

/-- Whether the plane runs: the power-up sequence is past its self-test and the rails are on. -/
def Pz.runs (z : Pz) : Bool := decide (6 ≤ z.step)

/-- Something leaves the device. -/
def Pz.emit (o : PzOut) (z : Pz) : Pz := { z with out := z.out ++ [o] }

/-- Whether a port's link is up (Table 18.13). -/
def Pz.linkUp (z : Pz) (port : Nat) : Bool := z.flag (PzR.PORT_STAT_LINK.at (8 * port))

/-- A whole message leaves on a port; on a port that is down it is lost (R399). -/
def Pz.send (port : Nat) (m : Message) (z : Pz) : Pz := if z.linkUp port then z.emit (.msg port m) else z

/-- The upstream port in use (R333): while re-parenting the new one; none while isolated. -/
def Pz.upPort (z : Pz) : Option Nat :=
  let p := z.fld PzR.CF_STAT_PATH
  if p = 0 then some 16 else if p = 1 then some 17 else if p = 2 then some (if z.ctl.toward then 16 else 17) else none

/-- A message sent to the parent; a root has none. -/
def Pz.sendUp (m : Message) (z : Pz) : Pz :=
  if z.role = 2 then z else match z.upPort with
    | some p => z.send p m
    | none => z

/-- A message of this Polornaz. -/
def Pz.mkMsg (z : Pz) (cls ty : Nat) (body : List Byte) : Message :=
  { fleet := z.fleet, cls := BitVec.ofNat 3 cls, ty := BitVec.ofNat 8 ty, ink := z.ctl.epoch, mark := false, body := body }

/-- Routing entry of a fleet ID: VALID and with all 32 bits equal (R23, R217). -/
def Pz.route (z : Pz) (fleet : Word) : Option Route :=
  let r := tget z.routes (fleet.toNat % 2 ^ 20)
  if r.valid && r.fleet == fleet then some r else none

/-- A routing entry changed. -/
def Pz.setRoute (fleet : Word) (f : Route → Route) (z : Pz) : Pz :=
  { z with routes := tmod z.routes (fleet.toNat % 2 ^ 20) f }

/-- A job as this device knows it. -/
def Pz.job (z : Pz) (tag : BitVec 24) : Option Job :=
  let j := tget z.ctl.jobs tag.toNat
  if j.tag == tag && tag != 0 && !j.gone then some j else none

/-- A job changed. -/
def Pz.setJob (tag : BitVec 24) (f : Job → Job) (z : Pz) : Pz :=
  { z with ctl := { z.ctl with jobs := tmod z.ctl.jobs tag.toNat f } }

/-! ## The address space (R209, R211, R214, R231) -/

/-- Base address of a die's stack (Table 9.3). -/
def dieBase (d : Nat) : Nat := if d ≤ 13 then d * 0x42000000 else if d = 14 then 0x39C000000 else 0x3CE000000

/-- Size of a die's stack. -/
def dieSize (d : Nat) : Nat := if d ≤ 13 then 1056 * 1048576 else 800 * 1048576

/-- Base die of an SRAM address. -/
def sramDie (a : Nat) : Nat := if a < 0x39C000000 then a / 0x42000000 else if a < 0x3CE000000 then 14 else 15

/-- First DRAM address (R231). -/
def dramBase : Nat := 0x10000000000

/-- Data capacity of a channel: 8/9 of its 32 GiB device, in whole 32-byte words (R214; density PRESUMED full, log 5). -/
def chanBytes : Nat := 2 ^ 35 * 8 / 9 / 32 * 32

/-- Trained channels in channel order (R214). -/
def Pz.channels (z : Pz) : List Nat := (List.range 24).filter (fun c => bit (z.fld PzR.DDR_STAT_TRAINED) c)

/-- DRAM data capacity. -/
def Pz.dramSize (z : Pz) : Nat := z.channels.length * chanBytes

/-- Whether an address lies in DRAM. -/
def inDram (a : Nat) : Bool := decide (dramBase ≤ a)

/-- Channel that holds a DRAM address. -/
def Pz.chanOf (z : Pz) (a : Nat) : Nat := z.channels.getD ((a - dramBase) / chanBytes) 0

/-- Whether there is memory behind an address now (R419 step 2). -/
def Pz.exists? (z : Pz) (a : Nat) : Bool :=
  if a < 0x400000000 then z.runs && z.dieOk (sramDie a)
  else inDram a && decide (a < dramBase + z.dramSize) && decide (9 ≤ z.step) && z.dieOk (z.chanOf a / 2)

/-- Whether an address lies in reserved SRAM (Table 9.4). -/
def reservedSram (a : Nat) : Bool := decide (a < 0x400000000 ∧ a - dieBase (sramDie a) < 100 * 1048576)

/-- Whether two byte ranges meet. -/
def meets (a n b m : Nat) : Bool := decide (a < b + m ∧ b < a + n)

/-- Every tree that holds SRAM. -/
def Pz.trees (z : Pz) : List Tree :=
  (z.models.flatMap (fun p => p.2.trees ++ p.2.old ++ (if p.2.st = .shadow then p.2.todo else []))) ++
  z.launches.flatMap (·.trees)

/-- Whether a range meets the memory of a loaded model (R279). -/
def Pz.inModel (z : Pz) (a n : Nat) : Bool := z.trees.any (fun t => meets a n t.addr (8 * t.len))

/-- Whether a range meets a secure region (R383). -/
def Pz.inSecure (z : Pz) (a n : Nat) : Bool :=
  (List.range 16).any (fun i =>
    let size := (z.reg (0xD0104 + 16 * i)).toNat
    decide (0 < size) && meets a n ((z.reg (0xD0100 + 16 * i)).toNat * 65536) (size * 65536))

/-! ## The mesh (R209, R215) -/

/-- The links of a route on the 4 × 4 grid, X first or Y first; `fuel` links at most. -/
def meshWalk (xFirst : Bool) : Nat → Nat → Nat → List (Nat × Nat)
  | 0, _, _ => []
  | n + 1, a, b =>
    if a = b then []
    else
      let alongX := decide (a % 4 ≠ b % 4) && (xFirst || decide (a / 4 = b / 4))
      let c := if alongX then (if a % 4 < b % 4 then a + 1 else a - 1) else (if a / 4 < b / 4 then a + 4 else a - 4)
      (a, c) :: meshWalk xFirst n c b

/-- Whether every link of a route is up and no die on it is out. -/
def Pz.routeOpen (z : Pz) (links : List (Nat × Nat)) : Bool :=
  links.all (fun l => z.dieOk l.2 && !z.hl.mesh.any (fun d => d.1.toNat == l.1 && d.2.toNat == l.2))

/-- Whether a packet reaches die `b` from die `a` (R215): X first, or Y first around a link that is down. -/
def Pz.meshOpen (z : Pz) (a b : Nat) : Bool := z.routeOpen (meshWalk true 6 a b) || z.routeOpen (meshWalk false 6 a b)

/-! ## Interrupt messages and host writes (R375, R400) -/

/-- Whether the device may write host memory (R400, R401, R210). -/
def Pz.hostUp (z : Pz) : Bool :=
  z.pins.ready && z.pins.perstN && z.pins.pcieUp && z.pins.busMaster && !z.pins.d3hot && z.dieOk 15

/-- An MSI-X message, or its pending bit while masked, disabled or cut off. -/
def Pz.postMsix (v : Nat) (z : Pz) : Pz :=
  if z.hostUp && z.pins.msixOn && !bit (z.reg (0xC000C + 16 * v)).toNat 0 then
    (z.setFld PzR.MSIX_PBA_PBA (setBits (z.fld PzR.MSIX_PBA_PBA) v v 0)).emit (.msix v)
  else z.setFld PzR.MSIX_PBA_PBA (setBits (z.fld PzR.MSIX_PBA_PBA) v v 1)

/-- Holdoff of a vector in ns (Table 16.11). -/
def Pz.holdNs (z : Pz) (v : Nat) : Nat := 1000 * bits (z.reg 0xC1020).toNat (8 * v - 1) (8 * (v - 1))

/-- A message that starts its vector's holdoff. -/
def Pz.postHeld (v : Nat) (z : Pz) : Pz :=
  let z := z.postMsix v
  if v = 0 ∨ z.holdNs v = 0 then z else { z with msixAt := tblIns z.msixAt v (z.now + z.holdNs v) }

/-- An event of a vector: vector 0 at once, the others merged while their holdoff runs (R375). -/
def Pz.raise (v : Nat) (z : Pz) : Pz :=
  if v != 0 && (tblLookup z.msixAt v).isSome then { z with msixDue := v :: z.msixDue.filter (· != v) }
  else z.postHeld v

/-- Pending vectors that are no longer masked are sent. -/
def Pz.flushMsix (z : Pz) : Pz :=
  (List.range 8).foldl (fun z v => if bit (z.fld PzR.MSIX_PBA_PBA) v then z.postMsix v else z) z

/-- MSIX_HOLDOFF_EXPIRY (R375): events merged meanwhile leave as one message, which starts the holdoff again. -/
def Pz.holdoffEnd (v : Nat) (z : Pz) : Pz :=
  match tblLookup z.msixAt v with
  | none => z
  | some t =>
    let z := { (z.advanceTo t) with msixAt := tblDel z.msixAt v }
    if z.msixDue.any (· == v) then Pz.postHeld v { z with msixDue := z.msixDue.filter (· != v) } else z

/-- MSIX_HOLDOFF_EXPIRY. -/
def execMsixHoldoffExpiry (vec : BitVec 2) (s : State) : Host.Outcome State Fault Refusal :=
  .next (s.onPz (Pz.holdoffEnd vec.toNat))

/-- A W1C bit of the package status, or RFAIL, sets; vector 3 fires (Table 16.3). -/
def Pz.pkgEvent (f : Fld) (z : Pz) : Pz := if z.flag f then z else (z.setFld f 1).raise 3

/-- `PZ_CF_STAT.PATH` set; vector 3 fires when it changes (Table 16.3). -/
def Pz.setPath (n : Nat) (z : Pz) : Pz := if z.fld PzR.CF_STAT_PATH = n then z else (z.setFld PzR.CF_STAT_PATH n).raise 3

/-! ## Inkwell (R339 to R343) -/

/-- A record made in recorder `r`. -/
def Pz.record (r code origin tag : Nat) (body : List Byte) (z : Pz) : Pz :=
  let R := tget z.iw.recs r
  let x : InkRec := { seq := seqNext R.last, code := BitVec.ofNat 16 code, origin := BitVec.ofNat 16 origin
                      ink := z.ctl.epoch, time := z.now, tag := BitVec.ofNat 24 tag, body := body.take 4048 }
  let spill := if z.step < 9 then 0 else bits (z.reg (0xA0080 + 4 * r)).toNat 15 0 * 1048576
  { z with iw := { z.iw with recs := tput z.iw.recs r (R.append (pzSizes r).1 (pzSizes r).2 spill x) } }

/-! ## The alarm output stage (R333, R376, R403) -/

/-- Whether `pz_alm_n` is low (R376, R410, R415). -/
def Pz.almLow (z : Pz) : Bool :=
  !z.alarmQ.isEmpty || z.pins.railLow || !z.pins.tripN ||
  (z.fld PzR.AL_RSIZE_ENTRIES != 0 && z.fld PzR.AL_RPTR_WR != z.fld PzR.AL_RPTR_RD)

/-- The pin follows; its fall raises the in-band interrupt when enabled (R403). -/
def Pz.almPin (z : Pz) : Pz :=
  let low := z.almLow
  let z' := { z with pins := { z.pins with fallen := low } }
  if low && !z.pins.fallen && z.i3c.ibi then z'.emit (.ibi 1) else z'

/-- ALARM_IN: payload, fleet ID, fate 0 delivered, 1 dropped, 2 suppressed (Table 15.3, assumption log 15). -/
def Pz.alarmIn (e : AlarmEntry) (fate : Nat) (z : Pz) : Pz :=
  z.record 1 0x0B02 0 e.tag.toNat (e.payload ++ leB 4 e.fleet.toNat ++ leB 4 fate)

/-- The upward copy of an alarm, kept until an ALMACK names it (R179, R333). -/
def Pz.alarmUp (e : AlarmEntry) (z : Pz) : Pz :=
  if z.role = 2 then z
  else
    let m : Message := { fleet := e.fleet, cls := 0, ty := 2, ink := e.ink, mark := false, body := e.payload }
    let u : Unacked := { msg := m, aseq := BitVec.ofNat 16 (leAt e.payload 2 2), sent := z.now }
    Pz.sendUp m { z with ctl := { z.ctl with unacked := z.ctl.unacked ++ [u] } }

/-- An alarm reaches the output stage (R376). -/
def Pz.stage (e : AlarmEntry) (z : Pz) : Pz :=
  let z := z.alarmUp e
  if z.fld PzR.AL_RSIZE_ENTRIES = 0 ∨ !z.dieOk 15 then (z.addSat PzR.AL_STAT_DROP 1).alarmIn e 0
  else if 256 ≤ z.alarmQ.length then (z.addSat PzR.AL_STAT_DROP 1).alarmIn e 1
  else Pz.almPin ({ z with alarmQ := z.alarmQ ++ [e] }.alarmIn e 0)

/-- Whether a ring of `n` entries with its pointers has room for `k` more; one entry stays free (DEDUCED: equal pointers
mean an empty ring). -/
def ringRoom (n wr rd k : Nat) : Bool := decide (0 < n ∧ k < n ∧ (wr + n - rd % n) % n + k < n)

/-- A 64-bit host address from its register pair, 4 KiB aligned. -/
def Pz.hostBase (z : Pz) (off : Nat) : Nat :=
  ((z.reg off).toNat + (z.reg (off + 4)).toNat * 2 ^ 32) / 4096 * 4096

/-- ALARM_OUTPUT (R376, Table 16.4): the oldest queued alarm into the ring, then vector 0. -/
def Pz.alarmOutput (z : Pz) : Pz :=
  match z.alarmQ with
  | [] => z
  | e :: rest =>
    let n := z.fld PzR.AL_RSIZE_ENTRIES
    let wr := z.fld PzR.AL_RPTR_WR
    if z.hostUp && ringRoom n wr (z.fld PzR.AL_RPTR_RD) 1 then
      let bs := e.payload ++ leB 4 e.fleet.toNat ++ leB 4 e.ink.toNat ++
        leB 4 (b2n z.alPhase * 2 ^ 31 + e.path.toNat * 2 ^ 28) ++ leB 4 (e.tag.toNat * 256)
      let z := z.emit (.host (z.hostBase 0xC1000 + 32 * wr) bs)
      let z := z.setFld PzR.AL_RPTR_WR (if wr + 1 = n then 0 else wr + 1)
      Pz.almPin (Pz.raise 0 { z with alarmQ := rest, alPhase := if wr + 1 = n then !z.alPhase else z.alPhase })
    else z

/-- ALARM_OUTPUT. -/
def execAlarmOutput (s : State) : Host.Outcome State Fault Refusal := .next (s.onPz Pz.alarmOutput)

/-- A device alarm of this Polornaz (R421): at most once per ms for each die or rail. -/
def Pz.deviceAlarm (code unit : Nat) (z : Pz) : Pz :=
  if z.hl.raised.any (fun r => r.1 == code && r.2.1 == unit && decide (z.now < r.2.2 + 1000000)) then z
  else
    let raised := (code, unit, z.now) :: z.hl.raised.filter (fun r => !(r.1 == code && r.2.1 == unit))
    let z := { z with hl := { z.hl with raised := raised }
                      ctl := { z.ctl with aseq := z.ctl.aseq + 1 } }
    z.stage { payload := alarmBody code z.ctl.aseq.toNat z.now 0xFF false false, fleet := z.fleet, ink := z.ctl.epoch
              path := 4, tag := 0 }

/-! ## Record egress (R313 to R316) -/

/-- Whether a model's replacement is being staged or its shadow load is late (R315). -/
def Pz.mixedModel (z : Pz) (id : Word) : Option Model :=
  (z.models.map Prod.snd).find? (fun m => (m.st = .staging ∨ m.late) ∧ (m.id = id ∨ m.oldId = id) ∧ m.oldId ≠ 0)

/-- The phase of a job at an epoch by its switch history (R303). -/
def Job.phaseAt (j : Job) (ep : Word) : Bool :=
  match j.switches.find? (fun s => !laterInk s.1 ep) with
  | some s => s.2
  | none => if j.switches.isEmpty then j.phase else j.before

/-- Phase of a tag at an epoch; serving for a tag the device knows nothing of. -/
def Pz.phaseAt (z : Pz) (tag : BitVec 24) (ep : Word) : Bool := ((z.job tag).map (·.phaseAt ep)).getD false

/-- A header and body in 64-byte units. -/
def recBytes (head body : List Byte) : List Byte := padTo 64 (head ++ body)

/-- The word 0 of a record or pad record with its ring phase. -/
def withPhase (ph : Bool) (bs : List Byte) : List Byte :=
  leB 4 (setBits (leAt bs 0 4) 15 15 (b2n ph)) ++ bs.drop 4

/-- One record into the ring, with the pad that precedes it when it would cross the end (R316); none without room. -/
def Pz.ringRecord (bs : List Byte) (z : Pz) : Option Pz :=
  let n := z.fld PzR.VD_RSIZE_UNITS
  let wr := z.fld PzR.VD_RPTR_WR
  let u := bs.length / 64
  let pad := if n < wr + u then n - wr else 0
  if z.hostUp && ringRoom n wr (z.fld PzR.VD_RPTR_RD) (u + pad) then
    let base := z.hostBase 0x70030
    let z := if pad = 0 then z else
      { z.emit (.host (base + 64 * wr) (withPhase z.recPhase (padTo 64 (leB 4 pad)) ++
          List.replicate (64 * (pad - 1)) 0)) with recPhase := !z.recPhase }
    let w := if pad = 0 then wr else 0
    let z := z.emit (.host (base + 64 * w) (withPhase z.recPhase bs))
    let e := w + u
    some (Pz.raise 1 { z.setFld PzR.VD_RPTR_WR (if e = n then 0 else e) with
      recPhase := if e = n then !z.recPhase else z.recPhase })
  else none

/-- Queued records are written while there is room; `fuel` records at most. -/
def Pz.pumpRecords : Nat → Pz → Pz
  | 0, z => z
  | f + 1, z =>
    match z.recQ with
    | [] => z
    | (_, bs) :: rest =>
      match z.ringRecord bs with
      | none => z
      | some z => Pz.pumpRecords f { z with recQ := rest }

/-- Level at which the run-time of a tag attaches (R316): the tag's HOME, this device for others. -/
def Pz.attach (z : Pz) (tag : BitVec 24) : Nat := ((z.job tag).map (·.level.toNat)).getD z.role

/-- A record made here or received (R316): upward when its run-time attaches above, and to the local ring. -/
def Pz.egress (dev : Bool) (tag : BitVec 24) (bs : List Byte) (z : Pz) : Pz :=
  let z := if z.role < z.attach tag then z.sendUp (z.mkMsg 1 0x0A bs) else z
  if z.fld PzR.VD_RSIZE_UNITS = 0 then z.addSat PzR.VD_DROP_RDROP 1
  else if 4096 ≤ z.recQ.length then
    (z.addSat PzR.VD_DROP_RDROP 1).record 0 0x0A03 0 tag.toNat (bs.take 1024)
  else Pz.pumpRecords (z.recQ.length + 1) { z with recQ := z.recQ ++ [(dev, bs)] }

/-- A device record (R313, Tables 13.5 to 13.7): `fields` from body offset 0x20. -/
def Pz.device (adv : Bool) (kind : Nat) (tag : BitVec 24) (subject ep model : Word) (fields : List Byte) (z : Pz) : Pz :=
  let mm := z.mixedModel model
  let md := (mm.map (·.id)).getD model
  let body := recPrefix kind (32 + fields.length) subject.toNat ep.toNat md.toNat ++ fields
  let head := recHead adv true 0 (recUnits body) z.fleet.toNat tag.toNat (z.phaseAt tag ep) mm.isSome 3 false
    (((z.job tag).map (·.cfg.toNat)).getD 0) z.now ((mm.map (·.oldId.toNat)).getD 0) z.ctl.rseq.toNat
  Pz.egress true tag (recBytes head body) { z with ctl := { z.ctl with rseq := z.ctl.rseq + 1 } }

/-- A JOB advisory (Table 14.9); `more` counts missing leaves beyond the list. -/
def Pz.jobAdvN (event kind : Nat) (tag : BitVec 24) (cfg : BitVec 16) (epoch : Word) (ready late timeout more : Nat)
    (missing : List Word) (z : Pz) : Pz :=
  z.device true 0xD2 tag 0 epoch 0 (leB 1 event ++ leB 1 kind ++ leB 2 cfg.toNat ++ leB 4 epoch.toNat ++ leB 4 ready ++
    leB 4 late ++ leB 4 (missing.length + more) ++ leB 4 timeout ++ (missing.take 242).flatMap (fun w => leB 4 w.toNat))

/-- A JOB advisory whose list is whole. -/
def Pz.jobAdv (event kind : Nat) (tag : BitVec 24) (cfg : BitVec 16) (epoch : Word) (ready late timeout : Nat)
    (missing : List Word) : Pz → Pz :=
  Pz.jobAdvN event kind tag cfg epoch ready late timeout 0 missing

/-- A REFUSED advisory (Table 13.7, R337, R355). -/
def Pz.refused (reason : Nat) (tag : BitVec 24) (subject other : Word) (z : Pz) : Pz :=
  z.device true 0xCB tag subject 0 0 (leB 4 reason ++ leB 4 other.toNat)

/-! ## Uncorrectable words (R387 to R389) -/

/-- The words of `n` bytes from an address. -/
def wordsOf (a n : Nat) : List Nat := (List.range ((a + n + 31) / 32 - a / 32)).map (· + a / 32)

/-- The first word of a range that is known uncorrectable. -/
def Pz.badIn (z : Pz) (a n : Nat) : Option Nat := (wordsOf a n).find? (fun w => z.hl.bad.any (· == w))

/-- A consumer meets an uncorrectable word (R389): counted and alarmed, once until it is rewritten. -/
def Pz.uncorrAt (w : Nat) (z : Pz) : Pz :=
  let a := 32 * w
  let unit := if inDram a then 16 + z.chanOf a else sramDie a
  let z := if inDram a then z.addSat (PzR.EC_DRAM_UE.at (4 * z.chanOf a)) 1
    else z.addSat (PzR.EC_DIE_UE.at (4 * sramDie a)) 1
  let z := (z.setReg 0x103B0 (BitVec.ofNat 32 a)).setReg 0x103B4 (BitVec.ofNat 32 (a / 2 ^ 32))
  if z.hl.alarmed.any (· == w) then z
  else Pz.deviceAlarm 0x41 unit { z with hl := { z.hl with alarmed := w :: z.hl.alarmed } }

/-- The base die of a port (Table 9.2). -/
def portDie (p : Nat) : Nat := if p < 16 then p else if p = 16 then 7 else 8

/-- A byte that fails its parity on a die (R390): counted and recorded with an address and the scrub bit. -/
def Pz.parity (die addr scrub : Nat) (z : Pz) : Pz :=
  (z.addSat (PzR.EC_DIE_PAR.at (4 * die)) 1).record 0 0x0903 (die * 256) 0 (leB 8 addr ++ leB 1 die ++ leB 1 scrub)

/-- UNCORR_MEM (Table 17.1): address, array or channel, scrub bit. -/
def Pz.uncorrMem (w : Nat) (scrub : Bool) (z : Pz) : Pz :=
  let a := 32 * w
  (z.uncorrAt w).record 0 0x0902 (if inDram a then 0 else sramDie a * 256) 0
    (leB 8 a ++ leB 1 (if inDram a then z.chanOf a else sramDie a) ++ leB 1 (b2n scrub))

/-! ## Memory and drain-ahead (R213, R359, R388) -/

/-- `n` bytes of memory as a number, least significant first. -/
def memLoad (mem : Tbl Byte) (a : Nat) : Nat → Nat
  | 0 => 0
  | n + 1 => (tget mem a).toNat + 256 * memLoad mem (a + 1) n

/-- `n` bytes of memory. -/
def memBytes (mem : Tbl Byte) (a n : Nat) : List Byte := (List.range n).map (fun i => tget mem (a + i))

/-- Bytes put into memory from an address, those an address test admits. -/
def memPut (ok : Nat → Bool) : Tbl Byte → Nat → List Byte → Tbl Byte
  | mem, _, [] => mem
  | mem, a, b :: bs => memPut ok (if ok a then tput mem a b else mem) (a + 1) bs

/-- `n` bytes copied within memory; ranges do not meet. -/
def memCopy (mem : Tbl Byte) (src dst n : Nat) : Tbl Byte :=
  let kept := mem.filter (fun p => !(decide (dst ≤ p.1) && decide (p.1 < dst + n)))
  (mem.filter (fun p => decide (src ≤ p.1) && decide (p.1 < src + n))).foldl
    (fun t p => tput t (p.1 - src + dst) p.2) kept

/-- The DRAM snapshot region. -/
def Pz.snapBase (z : Pz) : Nat := z.hostBase 0xB0010

/-- Offset of the ranges in a snapshot image (R361). -/
def snapRanges : Nat := 4096 + 512 * 20480

/-- Offset in the image of an address that lies in one of the ranges. -/
def rangeOff (rs : List (Nat × Nat)) (a : Nat) : Nat :=
  ((rs.foldl (fun (acc : Nat × Option Nat) r =>
    (acc.1 + r.2, if r.1 ≤ a ∧ a < r.1 + r.2 then some (acc.1 + (a - r.1)) else acc.2)) (snapRanges, none)).2).getD 0

/-- A snapshot abandoned without a completion record (R362). -/
def Pz.dropSnap (z : Pz) : Pz := { z.setFld PzR.SN_STAT_STATE 0 with snap := { z.snap with now := none } }

/-- A page of the snapshot copied into its image; an uncorrectable source abandons the snapshot (Table 17.1). -/
def Pz.copyPage (pg : Nat) (z : Pz) : Pz :=
  match z.snap.now with
  | none => z
  | some sn =>
    match z.badIn (4096 * pg) 4096 with
    | some w => (z.uncorrMem w false).dropSnap
    | none =>
      { z with mem := memCopy z.mem (4096 * pg) (z.snapBase + rangeOff sn.ranges (4096 * pg)) 4096
               snap := { z.snap with now := some { sn with pages := sn.pages.filter (· != pg) } } }

/-- Drain-ahead (R359): pages that a write of `n` bytes touches and that are not yet copied are pushed first. -/
def Pz.drainAhead (a n : Nat) (z : Pz) : Pz :=
  match z.snap.now with
  | none => z
  | some sn =>
    (sn.pages.filter (fun pg => meets a n (4096 * pg) 4096)).foldl (fun z pg =>
      let z := (z.copyPage pg).addMod PzR.SN_DRAHEAD_COUNT 1
      { z with snap := { z.snap with now := z.snap.now.map (fun s => { s with pushed := s.pushed + 1 }) } }) z

/-- A write of bytes (R213, R388): a word that is uncorrectable takes only a whole write, which clears the fault. -/
def Pz.write (a : Nat) (bs : List Byte) (z : Pz) : Pz :=
  let z := z.drainAhead a bs.length
  let whole : Nat → Bool := fun w => decide (a ≤ 32 * w ∧ 32 * w + 32 ≤ a + bs.length)
  let bad : Nat → Bool := fun w => z.hl.bad.any (· == w)
  { z with mem := memPut (fun x => !bad (x / 32) || whole (x / 32)) z.mem a bs
           hl := { z.hl with bad := z.hl.bad.filter (fun w => !whole w)
                             alarmed := z.hl.alarmed.filter (fun w => !whole w) } }

end Sys2Proof.Machine
end

