-- ==== Sys2Proof/Machine/PzStation.lean ====
section
/-!
DEFINITION. Sys2Proof/Machine/PzStation.lean: stations of Polornaz around the instructions: replies of mailbox messages
(R243, R244, R268), streams (R234), triggers and dispatch (R235, R236), faults and the ends of activations (R237, R238,
R248), the station watchdog (R395), alarm credits (R266).
-/

namespace Sys2Proof.Machine

/-! ## Where a message for a fleet ID goes -/

/-- The port towards a fleet ID: a child, a chain master, a registered leaf; otherwise upward. -/
def Pz.portTo (z : Pz) (rcpt : Word) : Option Nat :=
  match tblLookup z.ctl.kids rcpt.toNat with
  | some k => some k.port
  | none =>
    match z.ctl.chains.find? (fun c => c.2.master == rcpt && rcpt != 0) with
    | some c => some c.1
    | none =>
      match z.route rcpt with
      | some r => some r.port.toNat
      | none => if z.role = 2 then none else z.upPort

/-- A message sent to a fleet ID; one that goes down names its receiver. -/
def Pz.sendTo (rcpt : Word) (m : Message) (z : Pz) : Pz :=
  match z.portTo rcpt with
  | none => z
  | some p => z.send p (if p < 16 then { m with fleet := rcpt } else m)

/-- An acknowledgement (Table 14.4), kept for the message's further copies (R324; the newest 256, assumption log 12). -/
def Pz.answer (rcpt : Word) (cseq : BitVec 16) (op status detail : Nat) (cfg : BitVec 16) (missing ready : Nat)
    (list : List Byte) (z : Pz) : Pz :=
  let body := ackBody cseq.toNat status op detail cfg.toNat z.fleet.toNat missing ready list
  Pz.sendTo rcpt (z.mkMsg 1 9 body) { z with ctl := { z.ctl with answers := ((rcpt, cseq, body) :: z.ctl.answers).take 256 } }

/-! ## Replies of mailbox messages (R243, R244) -/

/-- A mailbox slot is given back: STATUS written and OWN cleared in one write. -/
def Pz.mbDone (n status : Nat) (z : Pz) : Pz :=
  { z with mb := { z.mb with words := tmod z.mb.words (1024 * n) (fun w =>
      BitVec.ofNat 32 (setBits (setBits w.toNat 30 24 status) 31 31 0)) } }

/-- A reply record (R244): `slot` is the mailbox slot, 0 for a relayed message. -/
def replyRec (ph : Bool) (slot : Nat) (m : MbMsg) (status : Byte) (body : List Byte) : List Byte :=
  leB 4 (m.seq.toNat * 2 ^ 16 + m.mtype.toNat * 256 + status.toNat) ++
  leB 4 (m.tag.toNat * 256 + b2n ph * 128 + slot) ++ slice body 0 56

/-- A reply record into the ring, then its message finished; none while the ring has no room. Without a ring the reply is
discarded and its message finished (Table 10.18, R401). -/
def Pz.postReply (m : MbMsg) (status : Byte) (body : List Byte) (z : Pz) : Option Pz :=
  match m.src with
  | .relay .. => some z
  | .slot n =>
    let size := z.fld PzR.MB_RSIZE_ENTRIES
    let wr := z.fld PzR.MB_RPTR_WR
    if size = 0 then some (z.mbDone n.toNat status.toNat)
    else if z.hostUp && ringRoom size wr (z.fld PzR.MB_RPTR_RD) 1 then
      let z := z.mbDone n.toNat status.toNat
      let z := z.emit (.host (z.hostBase 0x60004 + 64 * wr) (replyRec z.mb.phase n.toNat m status body))
      let z := z.setFld PzR.MB_RPTR_WR (if wr + 1 = size then 0 else wr + 1)
      some (Pz.raise 2 { z with mb := { z.mb with phase := if wr + 1 = size then !z.mb.phase else z.mb.phase } })
    else none

/-- Held replies are written in order while the ring has room; `fuel` at most. -/
def Pz.pumpReplies : Nat → Pz → Pz
  | 0, z => z
  | f + 1, z =>
    match z.mb.replies with
    | [] => z
    | (m, st, body) :: rest =>
      match z.postReply m st body with
      | none => z
      | some z => Pz.pumpReplies f { z with mb := { z.mb with replies := rest } }

/-- A message is finished (R243): a relayed one with an acknowledgement that carries the record; one of a slot at once
when no reply is wanted or there is no ring, else once its reply record has been written. -/
def Pz.finish (m : MbMsg) (status : Nat) (body : List Byte) (z : Pz) : Pz :=
  match m.src with
  | .relay sender cseq cfg =>
    z.answer sender cseq 0x0A 0 0 cfg 0 0 (replyRec false 0 m (BitVec.ofNat 8 status) body)
  | .slot n =>
    if m.reply && z.fld PzR.MB_RSIZE_ENTRIES != 0 then
      Pz.pumpReplies (z.mb.replies.length + 1)
        { z with mb := { z.mb with replies := z.mb.replies ++ [(m, BitVec.ofNat 8 status, body)] } }
    else z.mbDone n.toNat status

/-! ## Slots, contexts and streams -/

/-- A program slot. -/
def Pz.slot (z : Pz) (st p : Nat) : PSlot := tget z.slots (16 * st + p)

/-- A program slot changed. -/
def Pz.setSlot (st p : Nat) (f : PSlot → PSlot) (z : Pz) : Pz := { z with slots := tmod z.slots (16 * st + p) f }

/-- A context. -/
def Pz.ctx (z : Pz) (st c : Nat) : Option Ctx := tget z.ctxs (4 * st + c)

/-- A context set. -/
def Pz.setCtx (st c : Nat) (x : Option Ctx) (z : Pz) : Pz := { z with ctxs := tput z.ctxs (4 * st + c) x }

/-- Whether an activation of the slot runs. -/
def Pz.slotRuns (z : Pz) (st p : Nat) : Bool :=
  (List.range 4).any (fun c => match z.ctx st c with
    | some x => x.slot.toNat == p
    | none => false)

/-- The stream descriptor `s` of an image; none when unbound (Table 10.11). -/
def Image.bind (i : Image) (s : Nat) : Option Bind :=
  match i.binds[s]? with
  | some b => if b.kind = 0 then none else some b
  | none => none

/-- The lowest descriptor of a kind (Table 10.3). -/
def Image.lowest (i : Image) (kind : Nat) : Option (Nat × Bind) :=
  ((List.range 16).filterMap (fun s => (i.bind s).map (fun b => (s, b)))).find? (fun p => p.2.kind.toNat == kind)

/-- JOB_TAG filter of descriptor s0, zero when unbound (R267). -/
def Image.jobTag (i : Image) : BitVec 24 := ((i.bind 0).map (·.tag)).getD 0

/-- Registers of a slot lie at this offset from those of station 0, slot 0 (Tables 10.15, 10.16). -/
def slotOff (st p : Nat) : Nat := 0x400 * st + 4 * p

/-- Items of a stream. -/
def PSlot.items (x : PSlot) (s : Nat) : List StreamItem := tget x.streams s

/-! ## Triggers (R235, R236) -/

/-- One more trigger of a kind: pending, or coalesced. -/
def Pend.add (p : Option Pend) (data : Nat) (late : Bool) : Pend :=
  match p with
  | none => { data := data, late := late, coal := 0 }
  | some q => { q with coal := q.coal + 1 }

/-- A trigger of kind 0 arrival, 1 Inkline or 2 time fires; the triggers of a disabled or empty slot have stopped. -/
def Pz.fire (st p kind data : Nat) (late : Bool) (z : Pz) : Pz :=
  let x := z.slot st p
  if x.active.isNone || x.disabled then z
  else
    let old := if kind = 0 then x.arr else if kind = 1 then x.ink else x.tim
    let q := some (Pend.add old data late)
    let z := if old.isSome then z.addSat (PzR.PG_STAT_COAL.at (slotOff st p)) 1 else z
    z.setSlot st p (fun x => if kind = 0 then { x with arr := q } else if kind = 1 then { x with ink := q }
      else { x with tim := q })

/-- Stream items dropped (R234, R245). -/
def Pz.dropItems (st p n : Nat) (z : Pz) : Pz := z.addMod (PzR.PG_DROP_COUNT.at (slotOff st p)) n

/-- An item enters a stream; ARRIVAL fires when the stream then holds THRESH items (R235). -/
def Pz.putItem (st p s : Nat) (it : StreamItem) (z : Pz) : Pz :=
  let z := z.setSlot st p (fun x => { x with streams := tmod x.streams s (fun l => l ++ [it]) })
  let x := z.slot st p
  match x.active with
  | none => z
  | some im =>
    if im.arr && im.tstream.toNat == s && decide (im.thresh ≤ (x.items s).length) then z.fire st p 0 0 false else z

/-- An item for a stream of a kind that drops when full (R234). -/
def Pz.offerItem (st p s : Nat) (b : Bind) (bytes : List Byte) (z : Pz) : Pz :=
  if b.depth ≤ ((z.slot st p).items s).length then z.dropItems st p 1
  else z.putItem st p s { bytes := bytes, came := z.now, ask := none }

/-- Unread PROG_MSG messages are answered with zeros (R268). -/
def Pz.answerAll (ms : List MbMsg) (z : Pz) : Pz := ms.foldl (fun z m => z.finish m 0 []) z

/-! ## Faults and ends of activations (R237, R248) -/

/-- An activation ends: unanswered program messages get zero replies (R268), g16 to g23 stay for the next one of the
same image (R229), and the context falls free. -/
def Pz.endAct (st c : Nat) (x : Ctx) (z : Pz) : Pz :=
  let p := x.slot.toNat
  let z := (z.setCtx st c none).setSlot st p (fun q =>
    if q.active = some x.image then { q with keep := x.g.filter (fun r => decide (16 ≤ r.1 ∧ r.1 ≤ 23)) } else q)
  z.answerAll x.asks

/-- A slot with 16 faults in one second becomes DISABLED, and an advisory is sent (R237). -/
def Pz.checkFaults (st p code : Nat) (tag : BitVec 24) (z : Pz) : Pz :=
  let x := z.slot st p
  if x.faults.length < 16 ∨ x.disabled then z
  else (z.setSlot st p (fun x => { x with disabled := true })).device true 0xCF tag 0 z.ctl.epoch 0
    (leB 4 (st + p * 2 ^ 8 + code * 2 ^ 16))

/-- ORIGIN of a record of a station (Table 15.1). -/
def stOrigin (st : Nat) : Nat := st + st / 4 * 256

/-- A fault of an activation: counted, recorded with its address, and the activation ends (R237, R248). -/
def Pz.faultAct (st c : Nat) (x : Ctx) (code addr : Nat) (z : Pz) : Pz :=
  let p := x.slot.toNat
  let z := (z.addSat (PzR.PG_STAT_FLT.at (slotOff st p)) 1).setFld (PzR.PG_STAT_LAST_FLT.at (slotOff st p)) code
  let z := z.addSat (PzR.ST_STAT_FAULTS.at (0x400 * st)) 1
  let z := z.record 2 0x0801 (stOrigin st) x.image.jobTag.toNat (leB 4 st ++ leB 4 p ++ leB 4 code ++ leB 8 addr)
  let z := z.setSlot st p (fun q => { q with
    faults := z.now :: q.faults.filter (fun (t : Nat) => decide (z.now < t + 1000000000)) })
  (z.checkFaults st p code x.image.jobTag).endAct st c x

/-! ## Image switches (R245) -/

/-- Every item of a slot is discarded: counted, and the program messages among them answered (R245, R268). -/
def Pz.dropStreams (st p : Nat) (z : Pz) : Pz :=
  let its := (z.slot st p).streams.flatMap (·.2)
  let z := (z.dropItems st p its.length).setSlot st p (fun x => { x with streams := [] })
  z.answerAll (its.filterMap (·.ask))

/-- The slot's launches of the old image complete without a reader. -/
def Pz.dropLaunches (st p : Nat) (z : Pz) : Pz :=
  let mine : Launch → Bool := fun l => l.station.toNat == st && l.slot.toNat == p
  { z.addMod PzR.SG_LAUNCH_COUNT (z.launches.filter mine).length with
    launches := z.launches.filter (fun l => !mine l) }

/-- Period of an image's TIME trigger in ns. -/
def Image.period (i : Image) : Nat := 50000 * 2 ^ i.pcode

/-- The next multiple of the period plus PHASE after tray time (R235). -/
def Image.nextPeriod (i : Image) (now : Nat) : Nat :=
  if now < i.ttime then i.ttime else i.ttime + ((now - i.ttime) / i.period + 1) * i.period

/-- An image becomes active (R229, R245, R261): streams empty, g16 to g23 zero, tags from zero; pending bits stay. A
one-shot time already past fires at once with LATE. -/
def Pz.switchImage (st p : Nat) (im : Image) (z : Pz) : Pz :=
  let z := (z.dropStreams st p).dropLaunches st p
  let late := im.tim && !im.periodic && decide (im.ttime < z.now)
  let z := z.setSlot st p (fun x => { x with
    active := some im, shadow := none, keep := [], tag := 0, out := [], tnext := 0
    pnext := if im.tim && im.periodic then im.nextPeriod z.now else 0
    once := if im.tim && !im.periodic && !late then some im.ttime else none })
  if late then z.fire st p 2 im.ttime true else z

/-! ## Trigger rows -/

/-- ARRIVAL_AGE_EXPIRY (R235): tray time comes to the moment at which the oldest item has waited AGE µs. -/
def Pz.ageExpiry (st p : Nat) (z : Pz) : Pz :=
  match (z.slot st p).active with
  | none => z
  | some im =>
    match (z.slot st p).items im.tstream.toNat with
    | [] => z
    | it :: _ =>
      if !im.arr || im.age == 0 then z
      else (z.advanceTo (it.came + 1000 * im.age)).fire st p 0 0 false

/-- ARRIVAL_AGE_EXPIRY. -/
def execArrivalAgeExpiry (st : BitVec 6) (slot : BitVec 4) (s : State) : Host.Outcome State Fault Refusal :=
  .next (s.onPz (Pz.ageExpiry st.toNat slot.toNat))

/-- Whether an Inkline fires an image's INKLINE trigger (R235): by its epoch, or by its kind against KMASK. -/
def Image.inkMatches (im : Image) (epoch : Word) (k : Kind) : Bool :=
  im.ink && (if im.inkEpoch = 0 then
      (bit im.kmask.toNat 0 && !k.stop && !k.ckpt && !k.commit) || (bit im.kmask.toNat 1 && k.stop) ||
      (bit im.kmask.toNat 2 && k.ckpt) || (bit im.kmask.toNat 3 && k.commit)
    else im.inkEpoch == epoch)

/-- INKLINE_TRIGGER (R235): an Inkline that has applied on tray time. -/
def Pz.inkTrigger (st p : Nat) (epoch : Word) (k : Kind) (z : Pz) : Pz :=
  match (z.slot st p).active with
  | none => z
  | some im =>
    if im.inkMatches epoch k && !laterInk epoch z.ctl.epoch then z.fire st p 1 epoch.toNat false else z

/-- INKLINE_TRIGGER. -/
def execInklineTrigger (st : BitVec 6) (slot : BitVec 4) (epoch : Word) (kind : Kind) (s : State) :
    Host.Outcome State Fault Refusal :=
  .next (s.onPz (Pz.inkTrigger st.toNat slot.toNat epoch kind))

/-- The times at which a slot's time triggers fire next. -/
def PSlot.due (x : PSlot) : List Nat :=
  (if x.pnext = 0 then [] else [x.pnext]) ++ (match x.once with
    | some t => [t]
    | none => []) ++ (if x.tnext = 0 then [] else [x.tnext])

/-- TIME_TRIGGER (R235): tray time comes to the slot's earliest time, and its triggers of that time fire. -/
def Pz.timeTrigger (st p : Nat) (z : Pz) : Pz :=
  let x := z.slot st p
  match x.active, x.due with
  | some im, t0 :: ts =>
    let t := ts.foldl min t0
    let n := (x.due.filter (· == t)).length
    let z := z.advanceTo t
    let z := z.setSlot st p (fun x => { x with
      pnext := if x.pnext = t then im.nextPeriod t else x.pnext
      once := if x.once = some t then none else x.once
      tnext := if x.tnext = t then 0 else x.tnext })
    iter (fun z => Pz.fire st p 2 t false z) n z
  | _, _ => z

/-- TIME_TRIGGER. -/
def execTimeTrigger (st : BitVec 6) (slot : BitVec 4) (s : State) : Host.Outcome State Fault Refusal :=
  .next (s.onPz (Pz.timeTrigger st.toNat slot.toNat))

/-! ## Dispatch (R236) -/

/-- Whether a restore holds the slot (R363). -/
def Pz.restoreHolds (z : Pz) (im : Image) : Bool :=
  match z.snap.running with
  | none => false
  | some tag => (List.range 16).any (fun s => match im.bind s with
    | some b => b.tag == tag
    | none => false)

/-- Whether a slot could be taken now. -/
def Pz.ready (z : Pz) (st p : Nat) : Bool :=
  let x := z.slot st p
  match x.active with
  | none => false
  | some im => !x.disabled && (x.arr.isSome || x.ink.isSome || x.tim.isSome) && !z.slotRuns st p &&
      !z.restoreHolds im

/-- Priority of a slot's image. -/
def PSlot.prio (x : PSlot) : Nat := (x.active.map (·.prio.toNat)).getD 0

/-- The slot that a free context takes: highest PRIO, then lowest number. -/
def Pz.choose (z : Pz) (st : Nat) : Option Nat :=
  ((List.range 16).filter (z.ready st)).foldl (fun best p =>
    match best with
    | none => some p
    | some q => if (z.slot st q).prio < (z.slot st p).prio then some p else some q) none

/-- WHERE of a station (Table 10.2). -/
def whereS (st c p : Nat) : Nat := p * 2 ^ 16 + c * 2 ^ 8 + st

/-- An activation starts (R229): kind Inkline before time before arrival (R236). -/
def Pz.start (st c p : Nat) (im : Image) (z : Pz) : Pz :=
  let x := z.slot st p
  let mk : Nat → Pend → Pz → Pz := fun kind q z =>
    let data := if kind = 0 then (x.items im.tstream.toNat).length else q.data
    z.setCtx st c (some { slot := BitVec.ofNat 4 p, image := im, pc := 0
                          g := tput (tput x.keep 1 (BitVec.ofNat 64 data)) 2 (BitVec.ofNat 64 (whereS st c p))
                          v := [], k := [], exec := 0, kind := BitVec.ofNat 2 kind, late := q.late, data := data
                          coal := q.coal, wait := none, asks := [], cur := none })
  match x.ink, x.tim, x.arr with
  | some q, _, _ => mk 1 q (z.setSlot st p (fun x => { x with ink := none }))
  | none, some q, _ => mk 2 q (z.setSlot st p (fun x => { x with tim := none }))
  | none, none, some q => mk 0 q (z.setSlot st p (fun x => { x with arr := none }))
  | none, none, none => z

/-- DISPATCH (R236): a free context of a station in service takes a pending slot. -/
def Pz.dispatch (st c : Nat) (z : Pz) : Pz :=
  if (z.ctx st c).isSome || !z.runs || !z.dieOk (st / 4) then z
  else match z.choose st with
    | none => z
    | some p =>
      match (z.slot st p).active with
      | none => z
      | some im => z.start st c p im

/-- DISPATCH. -/
def execDispatch (st : BitVec 6) (ctx : BitVec 2) (s : State) : Host.Outcome State Fault Refusal :=
  .next (s.onPz (Pz.dispatch st.toNat ctx.toNat))

/-! ## The station watchdog (R395) -/

/-- STATION_WATCHDOG: a context has waited in one instruction for longer than WAIT ms. -/
def Pz.watchdog (st c : Nat) (z : Pz) : Pz :=
  match z.ctx st c with
  | none => z
  | some x =>
    match x.wait with
    | none => z
    | some (_, t) =>
      let z := (z.advanceTo (t + 1000000 * max 1 (z.fld PzR.WD_CTL_WAIT))).addSat PzR.WD_STAT_FIRED 1
      z.faultAct st c x 0x0C (4 * (x.pc - 1))

/-- STATION_WATCHDOG. -/
def execStationWatchdog (st : BitVec 6) (ctx : BitVec 2) (s : State) : Host.Outcome State Fault Refusal :=
  .next (s.onPz (Pz.watchdog st.toNat ctx.toNat))

/-- Whether a context is ready to issue. -/
def Pz.ctxReady (z : Pz) (st c : Nat) : Bool := match z.ctx st c with
  | some x => x.wait.isNone
  | none => false

/-- STATION_STALL: no handshake for 1 ms while a context is ready; every activation of the station ends. -/
def Pz.stall (st : Nat) (z : Pz) : Pz :=
  if !(List.range 4).any (z.ctxReady st) then z
  else
    let z := (List.range 4).foldl (fun z c =>
      match z.ctx st c with
      | none => z
      | some x => (z.addSat PzR.WD_STAT_FIRED 1).faultAct st c x 0x0C (4 * x.pc)) z
    let z := (z.addSat PzR.WD_STAT_STALLS 1).record 2 0x0803 (stOrigin st) 0 (leB 4 st)
    z.deviceAlarm 0x42 (st / 4)

/-- STATION_STALL. -/
def execStationStall (st : BitVec 6) (s : State) : Host.Outcome State Fault Refusal :=
  .next (s.onPz (Pz.stall st.toNat))

/-! ## Alarms of a station (R266) -/

/-- An alarm of a station is sent: Polornaz's fleet ID, POS the station, Polornaz's own ASEQ. -/
def Pz.stationAlarm (st code : Nat) (tag : BitVec 24) (z : Pz) : Pz :=
  let z := { z with ctl := { z.ctl with aseq := z.ctl.aseq + 1 } }
  z.stage { payload := alarmBody code z.ctl.aseq.toNat z.now st false false, fleet := z.fleet, ink := z.ctl.epoch
            path := 2, tag := tag }

/-- `emit.alarm` with a good code: sent for a credit, else suppressed, counted and recorded. -/
def Pz.raiseAlarm (st p code : Nat) (tag : BitVec 24) (z : Pz) : Bool × Pz :=
  if (z.slot st p).spent < 64 then
    (true, (z.setSlot st p (fun x => { x with spent := x.spent + 1 })).stationAlarm st code tag)
  else
    let z := (z.addSat (PzR.ST_EGDROP_ALMSUPP.at (0x400 * st)) 1).setSlot st p (fun x => { x with supp := true })
    (false, z.alarmIn { payload := alarmBody code 0 z.now st false false, fleet := z.fleet, ink := z.ctl.epoch
                        path := 2, tag := tag } 2)

/-- STATION_ALARM_CREDIT: a slot's bucket gains a credit; an owed SUPPRESSED alarm takes it (R171, R266). -/
def Pz.alarmCredit (st p : Nat) (z : Pz) : Pz :=
  let x := z.slot st p
  if x.spent = 0 then z
  else if x.supp then
    (z.setSlot st p (fun x => { x with supp := false })).stationAlarm st 1 ((x.active.map (·.jobTag)).getD 0)
  else z.setSlot st p (fun x => { x with spent := x.spent - 1 })

/-- STATION_ALARM_CREDIT. -/
def execStationAlarmCredit (st : BitVec 6) (slot : BitVec 4) (s : State) : Host.Outcome State Fault Refusal :=
  .next (s.onPz (Pz.alarmCredit st.toNat slot.toNat))

end Sys2Proof.Machine
end

