-- ==== Sys2Proof/Machine/PzExec.lean ====
section
/-!
DEFINITION. Sys2Proof/Machine/PzExec.lean: how a Jarend instruction runs: on a station context (R228 to R232, R237, R248,
R251), and on either engine.
-/

namespace Sys2Proof.Machine

/-- What a station instruction does: it completes; it faults with a code of Table 10.4 and an address; it waits (class TW);
it ends the activation. -/
inductive SRes where
  | go (z : Pz) (x : Ctx)
  | fault (z : Pz) (code addr : Nat)
  | wait (z : Pz)
  | stop (z : Pz) (x : Ctx)

/-! ## Registers of a context (R228) -/

/-- A general register: g0 reads zero. -/
def Ctx.rg (x : Ctx) (r : Nat) : DWord := if r = 0 then 0 else tget x.g r

/-- A general register written; writes to g0 are discarded. -/
def Ctx.put (x : Ctx) (r : Nat) (v : DWord) : Ctx := if r = 0 then x else { x with g := tput x.g r v }

/-- A vector register's lane. -/
def Ctx.ln (x : Ctx) (r i : Nat) : Word := lane (tget x.v r) i

/-- A vector register written lane by lane. -/
def Ctx.vput (x : Ctx) (r : Nat) (f : Nat → Word) : Ctx := { x with v := tput x.v r (lanes f) }

/-- A mask register: k0 reads as all ones. -/
def Ctx.kr (x : Ctx) (r : Nat) : DWord := if r = 0 then 0xFFFFFFFFFFFFFFFF else tget x.k r

/-- Whether a mask register selects a lane. -/
def Ctx.on (x : Ctx) (r i : Nat) : Bool := bit (x.kr r).toNat i

/-- A mask register written; writes to k0 are discarded. -/
def Ctx.kput (x : Ctx) (r : Nat) (v : DWord) : Ctx := if r = 0 then x else { x with k := tput x.k r v }

/-- Address of the instruction that has been issued (R251). -/
def Ctx.here (x : Ctx) : Nat := 4 * (x.pc - 1)

/-! ## Memory of a program (R231, R232, R384, R389) -/

/-- Whether a range lies within one granted region, with WRITE for a store. -/
def Image.grants (i : Image) (a n : Nat) (w : Bool) : Bool :=
  i.regions.any (fun r => decide (r.base ≤ a ∧ a + n ≤ r.base + r.size) && (!w || r.write))

/-- The fault of an access of `n` bytes aligned to `al`, if it has one: ALIGN, then ACCESS. -/
def Pz.accessFault (z : Pz) (x : Ctx) (a n al : Nat) (w : Bool) : Option Nat :=
  if a % al ≠ 0 then some 4
  else if x.image.grants a n w && z.exists? a && z.exists? (a + n - 1) &&
      (x.image.secure || !z.inSecure a n) then none
  else some 3

/-- A read of `n` bytes, then what is done with them; an uncorrectable word faults with UNCORR. -/
def Pz.reads (z : Pz) (x : Ctx) (a n al : Nat) (k : SRes) : SRes :=
  match z.accessFault x a n al false with
  | some e => .fault z e a
  | none =>
    match z.badIn a n with
    | some w => .fault (z.uncorrMem w false) 5 a
    | none => k

/-- A store of bytes, then what follows. -/
def Pz.stores (z : Pz) (x : Ctx) (a al : Nat) (bs : List Byte) (k : Pz → SRes) : SRes :=
  match z.accessFault x a bs.length al true with
  | some e => .fault z e a
  | none => k (z.write a bs)

/-- A read of a block of `n` bytes that the instruction also writes. -/
def Pz.updates (z : Pz) (x : Ctx) (a n al : Nat) (k : SRes) : SRes :=
  match z.accessFault x a n al true with
  | some e => .fault z e a
  | none => z.reads x a n al k

/-! ## Issue (R237, R240, R248, R251) -/

/-- What an answer leaves. `x0` is the context as it stands if the instruction faults. -/
def SRes.settle (r : SRes) (i : Instr) (st c : Nat) (x0 : Ctx) : Pz :=
  match r with
  | .go z x => z.setCtx st c (some x)
  | .fault z code addr => z.faultAct st c x0 code addr
  | .wait z => z.setCtx st c (some { x0 with wait := some (i, ((x0.wait.map Prod.snd).getD z.now)) })
  | .stop z x => z.endAct st c x

/-- One instruction on a context. No activation, or one that waits: nothing. With the budget used up it faults before
issue; past the last word it faults; a word outside the profile faults, executed. -/
def Pz.station (i : Instr) (st c : Nat) (body : Pz → Ctx → SRes) (z : Pz) : Pz :=
  match z.ctx st c with
  | none => z
  | some x =>
    if x.wait.isSome then z
    else if x.image.budget ≤ x.exec then z.faultAct st c x 6 (4 * x.pc)
    else if x.image.code.length ≤ x.pc then z.faultAct st c x 1 (4 * x.pc)
    else
      let x' := { x with exec := x.exec + 1, pc := x.pc + 1 }
      if !(jarProfileS i && jarUnused i) then z.faultAct st c x' 1 (4 * x.pc)
      else (body z x').settle i st c x'

/-- The shared effects on a context; the link register takes the address of the next word. -/
def JEff.onCtx (e : JEff) (z : Pz) (x : Ctx) : SRes :=
  match e with
  | .fault code => .fault z code x.here
  | .write rd v _ => .go z (x.put rd v)
  | .jump false _ _ => .go z x
  | .jump true t link =>
    if 0 ≤ t ∧ t < x.image.code.length then
      let x' := match link with
        | some r => x.put r (BitVec.ofNat 64 (4 * x.pc))
        | none => x
      .go z { x' with pc := t.toNat }
    else .fault z 1 x.here

/-! ## Either engine -/

/-- An instruction with one body for each engine; `cost` is what it counts for on the Quill engine. -/
def State.jarRun (i : Instr) (e : Engine) (cost : Leaf → Nat) (bl : Leaf → Window → Nat → LRes)
    (bs : Pz → Ctx → SRes) (s : State) : State :=
  match e with
  | .quill => s.onLeaf (fun l => l.jarend i (cost l) bl)
  | .station st c => s.onPz (Pz.station i st.toNat c.toNat bs)

/-- The outcome of an instruction with one body for each engine. -/
def State.jar (i : Instr) (e : Engine) (cost : Leaf → Nat) (bl : Leaf → Window → Nat → LRes) (bs : Pz → Ctx → SRes)
    (s : State) : Host.Outcome State Fault Refusal := .next (s.jarRun i e cost bl bs)

/-- An instruction that reads and writes general registers and the pc alone: the effect sees the registers and the
instruction's own word index. -/
def State.jarEff (i : Instr) (e : Engine) (f : (Nat → DWord) → Nat → JEff) (s : State) :
    Host.Outcome State Fault Refusal :=
  s.jar i e (fun _ => 1) (fun l w _ => (f w.g (w.pc - 1)).onWindow l w) (fun z x => (f x.rg (x.pc - 1)).onCtx z x)

/-- The body of an instruction on an engine whose profile lacks it. -/
def notL : Leaf → Window → Nat → LRes := fun _ _ _ => .error 1

/-- The body of an instruction of Jarend-L on a station. -/
def notS : Pz → Ctx → SRes := fun z x => .fault z 1 x.here

/-- An instruction of Jarend-S. -/
def State.jarS (i : Instr) (e : Engine) (bs : Pz → Ctx → SRes) (s : State) : Host.Outcome State Fault Refusal :=
  s.jar i e (fun _ => 1) notL bs

/-- An instruction of Jarend-L. -/
def State.jarL (i : Instr) (e : Engine) (bl : Leaf → Window → Nat → LRes) (s : State) :
    Host.Outcome State Fault Refusal :=
  s.jar i e (fun _ => 1) bl notS

/-- Station and context of an engine; the Quill engine has none. -/
def engineAt : Engine → Nat × Nat
  | .quill => (0, 0)
  | .station st c => (st.toNat, c.toNat)

end Sys2Proof.Machine
end

