-- ==== Sys2Proof/Machine/JarScalar.lean ====
section
/-!
DEFINITION. Sys2Proof/Machine/JarScalar.lean: scalar, control and key instructions of both profiles (R250 to R252, Tables
11.1 and 11.2) and the capture, field, wave and local tree instructions of Jarend-L (R253 to R255, R261).
-/

namespace Sys2Proof.Machine

/-- Three-operand scalar instructions (Table 11.1). -/
def eff3 (op : DWord → DWord → DWord) (f : FmtA) (g : Nat → DWord) (_ : Nat) : JEff :=
  .write f.rd.toNat (op (g f.ra.toNat) (g f.rb.toNat)) [f.ra.toNat, f.rb.toNat]

/-- Scalar instructions with an immediate value. -/
def effI (op : DWord → DWord → DWord) (rd ra : BitVec 5) (v : DWord) (g : Nat → DWord) (_ : Nat) : JEff :=
  .write rd.toNat (op (g ra.toNat) v) [ra.toNat]

/-- Key conversions (R252). -/
def effKey (op : Word → DWord) (f : FmtA) (g : Nat → DWord) (_ : Nat) : JEff :=
  .write f.rd.toNat (op (lo32 (g f.ra.toNat))) [f.ra.toNat]

/-- Conditional branches (R251). -/
def effBr (cond : DWord → DWord → Bool) (f : FmtB) (g : Nat → DWord) (pc : Nat) : JEff :=
  .jump (cond (g f.ra.toNat) (g f.rb.toNat)) (pc + f.off.toInt) none

/-- `jr` (Table 11.2). -/
def effJr (f : FmtA) (g : Nat → DWord) (_ : Nat) : JEff :=
  let t := (g f.ra.toNat).toNat
  if t % 4 = 0 then .jump true (t / 4 : Nat) (some f.rd.toNat) else .fault 1

/-- `ld` of `n` bytes on a station. -/
def ldS (n : Nat) (f : FmtM) (z : Pz) (x : Ctx) : SRes :=
  let a := ((x.rg f.ra.toNat).toNat + (f.off.toInt * n + 2 ^ 64).toNat) % 2 ^ 64
  z.reads x a n n (.go z (x.put f.r.toNat (BitVec.ofNat 64 (memLoad z.mem a n))))

/-- `st` of `n` bytes. -/
def stS (n : Nat) (f : FmtM) (z : Pz) (x : Ctx) : SRes :=
  let a := ((x.rg f.ra.toNat).toNat + (f.off.toInt * n + 2 ^ 64).toNat) % 2 ^ 64
  z.stores x a n (leB n (x.rg f.r.toNat).toNat) (fun z => .go z x)

/-- `amo` on an aligned 8-byte SRAM word (R232): `op` answers what is stored, given the old word and g[rb]. -/
def amoS (op : DWord → DWord → DWord) (f : FmtA) (z : Pz) (x : Ctx) : SRes :=
  let a := (x.rg f.ra.toNat).toNat
  if a % 8 = 0 ∧ inDram a then .fault z 3 a
  else z.updates x a 8 8
    (let old := BitVec.ofNat 64 (memLoad z.mem a 8)
     .go (z.write a (leB 8 (op old (x.rg f.rb.toNat)).toNat)) (x.put f.rd.toNat old))

/-- `amo.cas`: rk is compared with the old word, and takes it. -/
def amoCasS (f : FmtA) (z : Pz) (x : Ctx) : SRes :=
  amoS (fun old b => if old = x.rg f.rd.toNat then b else old) f z x

/-- A special register of a station (Table 10.2). -/
def Pz.csr (z : Pz) (st c : Nat) (x : Ctx) (n : Nat) : Option Nat :=
  if n = 0x000 then some 0x0102
  else if n = 0x001 then some 0
  else if n = 0x002 then some (whereS st c x.slot.toNat)
  else if n = 0x010 then some z.now
  else if n = 0x011 then some z.ctl.epoch.toNat
  else if n = 0x012 then some (z.fld PzR.CF_STAT_LAST_CFG)
  else if n = 0x013 then some z.ctl.inkTime
  else if n = 0x020 then some (x.kind.toNat + 4 * b2n x.late)
  else if n = 0x021 then some x.data
  else if n = 0x022 then some x.coal
  else if n = 0x030 then some (x.exec - 1)
  else if n = 0x031 then some (x.image.budget - (x.exec - 1))
  else if n = 0x040 then some (z.fld PzR.GOV_STAT_LEVEL)
  else if n = 0x070 then some (z.slot st x.slot.toNat).tnext
  else none

/-- `csrr` on a station: COALESCE is cleared by its read. -/
def csrrS (st c : Nat) (f : FmtX) (z : Pz) (x : Ctx) : SRes :=
  match z.csr st c x (csrNum f) with
  | none => .fault z 0x0B x.here
  | some v => .go z ({ x with coal := if csrNum f = 0x022 then 0 else x.coal }.put f.rd.toNat (BitVec.ofNat 64 v))

/-- `csrw`: TNEXT alone; a value already past fires at once with LATE (R230). -/
def csrwS (st : Nat) (f : FmtX) (z : Pz) (x : Ctx) : SRes :=
  if csrNum f ≠ 0x070 then .fault z 0x0B x.here
  else
    let t := (x.rg f.rd.toNat).toNat
    let p := x.slot.toNat
    if 0 < t ∧ t < z.now then .go ((z.setSlot st p (fun q => { q with tnext := 0 })).fire st p 2 t true) x
    else .go (z.setSlot st p (fun q => { q with tnext := t })) x

/-- `add`. (R250) -/
def execAdd (e : Engine) (f : FmtA) (s : State) : Host.Outcome State Fault Refusal :=
  s.jarEff (.add e f) e (eff3 aluAdd f)

/-- `sub`. (R250) -/
def execSub (e : Engine) (f : FmtA) (s : State) : Host.Outcome State Fault Refusal :=
  s.jarEff (.sub e f) e (eff3 aluSub f)

/-- `and`. (R250) -/
def execAnd (e : Engine) (f : FmtA) (s : State) : Host.Outcome State Fault Refusal :=
  s.jarEff (.and e f) e (eff3 aluAnd f)

/-- `or`. (R250) -/
def execOr (e : Engine) (f : FmtA) (s : State) : Host.Outcome State Fault Refusal :=
  s.jarEff (.or e f) e (eff3 aluOr f)

/-- `xor`. (R250) -/
def execXor (e : Engine) (f : FmtA) (s : State) : Host.Outcome State Fault Refusal :=
  s.jarEff (.xor e f) e (eff3 aluXor f)

/-- `shl`. (R250) -/
def execShl (e : Engine) (f : FmtA) (s : State) : Host.Outcome State Fault Refusal :=
  s.jarEff (.shl e f) e (eff3 aluShl f)

/-- `shr`. (R250) -/
def execShr (e : Engine) (f : FmtA) (s : State) : Host.Outcome State Fault Refusal :=
  s.jarEff (.shr e f) e (eff3 aluShr f)

/-- `sra`. (R250) -/
def execSra (e : Engine) (f : FmtA) (s : State) : Host.Outcome State Fault Refusal :=
  s.jarEff (.sra e f) e (eff3 aluSra f)

/-- `mul`. (R250) -/
def execMul (e : Engine) (f : FmtA) (s : State) : Host.Outcome State Fault Refusal :=
  s.jarEff (.mul e f) e (eff3 aluMul f)

/-- `mulh`. (R250) -/
def execMulh (e : Engine) (f : FmtA) (s : State) : Host.Outcome State Fault Refusal :=
  s.jarEff (.mulh e f) e (eff3 aluMulh f)

/-- `mulhu`. (R250) -/
def execMulhu (e : Engine) (f : FmtA) (s : State) : Host.Outcome State Fault Refusal :=
  s.jarEff (.mulhu e f) e (eff3 aluMulhu f)

/-- `min`. (R250) -/
def execMin (e : Engine) (f : FmtA) (s : State) : Host.Outcome State Fault Refusal :=
  s.jarEff (.min e f) e (eff3 aluMin f)

/-- `max`. (R250) -/
def execMax (e : Engine) (f : FmtA) (s : State) : Host.Outcome State Fault Refusal :=
  s.jarEff (.max e f) e (eff3 aluMax f)

/-- `minu`. (R250) -/
def execMinu (e : Engine) (f : FmtA) (s : State) : Host.Outcome State Fault Refusal :=
  s.jarEff (.minu e f) e (eff3 aluMinu f)

/-- `maxu`. (R250) -/
def execMaxu (e : Engine) (f : FmtA) (s : State) : Host.Outcome State Fault Refusal :=
  s.jarEff (.maxu e f) e (eff3 aluMaxu f)

/-- `slt`. (R250) -/
def execSlt (e : Engine) (f : FmtA) (s : State) : Host.Outcome State Fault Refusal :=
  s.jarEff (.slt e f) e (eff3 aluSlt f)

/-- `sltu`. (R250) -/
def execSltu (e : Engine) (f : FmtA) (s : State) : Host.Outcome State Fault Refusal :=
  s.jarEff (.sltu e f) e (eff3 aluSltu f)

/-- `seq`. (R250) -/
def execSeq (e : Engine) (f : FmtA) (s : State) : Host.Outcome State Fault Refusal :=
  s.jarEff (.seq e f) e (eff3 aluSeq f)

/-- `addi`: IMM16 sign-extended. -/
def execAddi (e : Engine) (f : FmtI) (s : State) : Host.Outcome State Fault Refusal :=
  s.jarEff (.addi e f) e (effI aluAdd f.rd f.ra (f.imm.signExtend 64))

/-- `andi`: IMM16 zero-extended. -/
def execAndi (e : Engine) (f : FmtI) (s : State) : Host.Outcome State Fault Refusal :=
  s.jarEff (.andi e f) e (effI aluAnd f.rd f.ra (f.imm.setWidth 64))

/-- `ori`: IMM16 zero-extended. -/
def execOri (e : Engine) (f : FmtI) (s : State) : Host.Outcome State Fault Refusal :=
  s.jarEff (.ori e f) e (effI aluOr f.rd f.ra (f.imm.setWidth 64))

/-- `xori`: IMM16 zero-extended. -/
def execXori (e : Engine) (f : FmtI) (s : State) : Host.Outcome State Fault Refusal :=
  s.jarEff (.xori e f) e (effI aluXor f.rd f.ra (f.imm.setWidth 64))

/-- `shli`: count IMM16[5:0]. -/
def execShli (e : Engine) (f : FmtS) (s : State) : Host.Outcome State Fault Refusal :=
  s.jarEff (.shli e f) e (effI aluShl f.rd f.ra (f.n.setWidth 64))

/-- `shri`: count IMM16[5:0]. -/
def execShri (e : Engine) (f : FmtS) (s : State) : Host.Outcome State Fault Refusal :=
  s.jarEff (.shri e f) e (effI aluShr f.rd f.ra (f.n.setWidth 64))

/-- `srai`: count IMM16[5:0]. -/
def execSrai (e : Engine) (f : FmtS) (s : State) : Host.Outcome State Fault Refusal :=
  s.jarEff (.srai e f) e (effI aluSra f.rd f.ra (f.n.setWidth 64))

/-- `lui`: sext(IMM16) times 2^16. -/
def execLui (e : Engine) (f : FmtI) (s : State) : Host.Outcome State Fault Refusal :=
  s.jarEff (.lui e f) e (fun _ _ => .write f.rd.toNat (f.imm.signExtend 64 <<< 16) [])

/-- `ld.b`: 1 byte, zero-extended. -/
def execLdB (e : Engine) (f : FmtM) (s : State) : Host.Outcome State Fault Refusal :=
  s.jar (.ldB e f) e (fun _ => 1) (Leaf.ldBody 1 f) (ldS 1 f)

/-- `ld.h`: 2 bytes, zero-extended. -/
def execLdH (e : Engine) (f : FmtM) (s : State) : Host.Outcome State Fault Refusal :=
  s.jar (.ldH e f) e (fun _ => 1) (Leaf.ldBody 2 f) (ldS 2 f)

/-- `ld.w`: 4 bytes, zero-extended. -/
def execLdW (e : Engine) (f : FmtM) (s : State) : Host.Outcome State Fault Refusal :=
  s.jar (.ldW e f) e (fun _ => 1) (Leaf.ldBody 4 f) (ldS 4 f)

/-- `ld.d`: 8 bytes, zero-extended. -/
def execLdD (e : Engine) (f : FmtM) (s : State) : Host.Outcome State Fault Refusal :=
  s.jar (.ldD e f) e (fun _ => 1) (Leaf.ldBody 8 f) (ldS 8 f)

/-- `st.b`: 1 byte. -/
def execStB (e : Engine) (f : FmtM) (s : State) : Host.Outcome State Fault Refusal :=
  s.jarS (.stB e f) e (stS 1 f)

/-- `st.h`: 2 bytes. -/
def execStH (e : Engine) (f : FmtM) (s : State) : Host.Outcome State Fault Refusal :=
  s.jarS (.stH e f) e (stS 2 f)

/-- `st.w`: 4 bytes. -/
def execStW (e : Engine) (f : FmtM) (s : State) : Host.Outcome State Fault Refusal :=
  s.jarS (.stW e f) e (stS 4 f)

/-- `st.d`: 8 bytes. -/
def execStD (e : Engine) (f : FmtM) (s : State) : Host.Outcome State Fault Refusal :=
  s.jarS (.stD e f) e (stS 8 f)

/-- `amo.add` (R232, R250). -/
def execAmoAdd (e : Engine) (f : FmtA) (s : State) : Host.Outcome State Fault Refusal :=
  s.jarS (.amoAdd e f) e (amoS aluAdd f)

/-- `amo.min` (R232, R250). -/
def execAmoMin (e : Engine) (f : FmtA) (s : State) : Host.Outcome State Fault Refusal :=
  s.jarS (.amoMin e f) e (amoS aluMin f)

/-- `amo.max` (R232, R250). -/
def execAmoMax (e : Engine) (f : FmtA) (s : State) : Host.Outcome State Fault Refusal :=
  s.jarS (.amoMax e f) e (amoS aluMax f)

/-- `amo.minu` (R232, R250). -/
def execAmoMinu (e : Engine) (f : FmtA) (s : State) : Host.Outcome State Fault Refusal :=
  s.jarS (.amoMinu e f) e (amoS aluMinu f)

/-- `amo.maxu` (R232, R250). -/
def execAmoMaxu (e : Engine) (f : FmtA) (s : State) : Host.Outcome State Fault Refusal :=
  s.jarS (.amoMaxu e f) e (amoS aluMaxu f)

/-- `amo.swap` (R232, R250). -/
def execAmoSwap (e : Engine) (f : FmtA) (s : State) : Host.Outcome State Fault Refusal :=
  s.jarS (.amoSwap e f) e (amoS (fun _ b => b) f)

/-- `amo.cas` (R250). -/
def execAmoCas (e : Engine) (f : FmtA) (s : State) : Host.Outcome State Fault Refusal :=
  s.jarS (.amoCas e f) e (amoCasS f)

/-- `fence`: every store is visible at once, so it completes at once (assumption log 3). -/
def execFence (e : Engine) (f : FmtX) (s : State) : Host.Outcome State Fault Refusal :=
  s.jarS (.fence e f) e (fun z x => .go z x)

/-- `beq` (R251). -/
def execBeq (e : Engine) (f : FmtB) (s : State) : Host.Outcome State Fault Refusal :=
  s.jarEff (.beq e f) e (effBr (fun a b => a == b) f)

/-- `bne` (R251). -/
def execBne (e : Engine) (f : FmtB) (s : State) : Host.Outcome State Fault Refusal :=
  s.jarEff (.bne e f) e (effBr (fun a b => a != b) f)

/-- `blt` (R251). -/
def execBlt (e : Engine) (f : FmtB) (s : State) : Host.Outcome State Fault Refusal :=
  s.jarEff (.blt e f) e (effBr (fun a b => a.slt b) f)

/-- `bge` (R251). -/
def execBge (e : Engine) (f : FmtB) (s : State) : Host.Outcome State Fault Refusal :=
  s.jarEff (.bge e f) e (effBr (fun a b => !a.slt b) f)

/-- `bltu` (R251). -/
def execBltu (e : Engine) (f : FmtB) (s : State) : Host.Outcome State Fault Refusal :=
  s.jarEff (.bltu e f) e (effBr (fun a b => a.ult b) f)

/-- `bgeu` (R251). -/
def execBgeu (e : Engine) (f : FmtB) (s : State) : Host.Outcome State Fault Refusal :=
  s.jarEff (.bgeu e f) e (effBr (fun a b => !a.ult b) f)

/-- `jal`, link in g31 (R251). -/
def execJal (e : Engine) (off : BitVec 26) (s : State) : Host.Outcome State Fault Refusal :=
  s.jarEff (.jal e off) e (fun _ pc => .jump true (pc + off.toInt) (some 31))

/-- `jr`, link in rd (R251). -/
def execJr (e : Engine) (f : FmtA) (s : State) : Host.Outcome State Fault Refusal :=
  s.jarEff (.jr e f) e (effJr f)

/-- `key.f32` (R252). -/
def execKeyF32 (e : Engine) (f : FmtA) (s : State) : Host.Outcome State Fault Refusal :=
  s.jarEff (.keyF32 e f) e (effKey (fun w => (keyF32 w).setWidth 64) f)

/-- `key.f16` (R252). -/
def execKeyF16 (e : Engine) (f : FmtA) (s : State) : Host.Outcome State Fault Refusal :=
  s.jarEff (.keyF16 e f) e (effKey (fun w => (keyF16 w).setWidth 64) f)

/-- `key.bf16` (R252). -/
def execKeyBf16 (e : Engine) (f : FmtA) (s : State) : Host.Outcome State Fault Refusal :=
  s.jarEff (.keyBf16 e f) e (effKey (fun w => (keyBf16 w).setWidth 64) f)

/-- `key.s32` (R252). -/
def execKeyS32 (e : Engine) (f : FmtA) (s : State) : Host.Outcome State Fault Refusal :=
  s.jarEff (.keyS32 e f) e (effKey (fun w => (keyS32 w).setWidth 64) f)

/-- `key.u32` (R252). -/
def execKeyU32 (e : Engine) (f : FmtA) (s : State) : Host.Outcome State Fault Refusal :=
  s.jarEff (.keyU32 e f) e (effKey (fun w => (keyU32 w).setWidth 64) f)

/-- `unkey.f32` (R252). -/
def execUnkeyF32 (e : Engine) (f : FmtA) (s : State) : Host.Outcome State Fault Refusal :=
  s.jarEff (.unkeyF32 e f) e (effKey (fun w => (unkeyF32 w).setWidth 64) f)

/-- `unkey.s32` (R252). -/
def execUnkeyS32 (e : Engine) (f : FmtA) (s : State) : Host.Outcome State Fault Refusal :=
  s.jarEff (.unkeyS32 e f) e (effKey unkeyS32 f)

/-- `cap.cnt` (R253). -/
def execCapCnt (e : Engine) (f : FmtC) (s : State) : Host.Outcome State Fault Refusal :=
  s.jarL (.capCnt e f) e (Leaf.capGroup .counter f)

/-- `cap.start` (R253). -/
def execCapStart (e : Engine) (f : FmtC) (s : State) : Host.Outcome State Fault Refusal :=
  s.jarL (.capStart e f) e (Leaf.capGroup .start f)

/-- `cap.end` (R253). -/
def execCapEnd (e : Engine) (f : FmtC) (s : State) : Host.Outcome State Fault Refusal :=
  s.jarL (.capEnd e f) e (Leaf.capGroup .finish f)

/-- `cap.strm` (R253). -/
def execCapStrm (e : Engine) (f : FmtC) (s : State) : Host.Outcome State Fault Refusal :=
  s.jarL (.capStrm e f) e (Leaf.capGroup .stream f)

/-- `cap.val` (R253). -/
def execCapVal (e : Engine) (f : FmtC) (s : State) : Host.Outcome State Fault Refusal :=
  s.jarL (.capVal e f) e (Leaf.capVal f)

/-- `cap.vtag` (R253). -/
def execCapVtag (e : Engine) (f : FmtC) (s : State) : Host.Outcome State Fault Refusal :=
  s.jarL (.capVtag e f) e (Leaf.capVtag f)

/-- `cap.fresh` (R253). -/
def execCapFresh (e : Engine) (f : FmtC) (s : State) : Host.Outcome State Fault Refusal :=
  s.jarL (.capFresh e f) e (Leaf.capFresh f)

/-- `cap.upd` (R253). -/
def execCapUpd (e : Engine) (f : FmtC) (s : State) : Host.Outcome State Fault Refusal :=
  s.jarL (.capUpd e f) e (Leaf.capUpd f)

/-- `cap.tagerr` (R253). -/
def execCapTagerr (e : Engine) (f : FmtC) (s : State) : Host.Outcome State Fault Refusal :=
  s.jarL (.capTagerr e f) e (Leaf.capTagerr f)

/-- `fld.w` (R254). -/
def execFldW (e : Engine) (f : FmtC) (s : State) : Host.Outcome State Fault Refusal :=
  s.jarL (.fldW e f) e (Leaf.fldW f)

/-- `fld.inv` (R254). -/
def execFldInv (e : Engine) (f : FmtC) (s : State) : Host.Outcome State Fault Refusal :=
  s.jarL (.fldInv e f) e (Leaf.fldInv f)

/-- `fld.rd` (R254). -/
def execFldRd (e : Engine) (f : FmtC) (s : State) : Host.Outcome State Fault Refusal :=
  s.jarL (.fldRd e f) e (Leaf.fldRd f)

/-- `red.add` (R255). -/
def execRedAdd (e : Engine) (f : FmtC) (s : State) : Host.Outcome State Fault Refusal :=
  s.jarL (.redAdd e f) e (Leaf.redAdd f)

/-- `tree.local`: costs 1 + D (R261, R286). -/
def execTreeLocal (e : Engine) (f : FmtX) (s : State) : Host.Outcome State Fault Refusal :=
  s.jar (.treeLocal e f) e (fun l => 1 + l.lmD) (Leaf.treeLocal f) notS

/-- `end` (R237, R251). -/
def execFinish (e : Engine) (f : FmtX) (s : State) : Host.Outcome State Fault Refusal :=
  .next (match e with
    | .quill => s.onLeaf (Leaf.endL (.finish e f))
    | .station st c => s.onPz (Pz.station (.finish e f) st.toNat c.toNat (fun z x => .stop z x)))

/-- `csrr` (R230, Table 10.2). -/
def execCsrr (e : Engine) (f : FmtX) (s : State) : Host.Outcome State Fault Refusal :=
  s.jar (.csrr e f) e (fun _ => 1) (Leaf.csrrL f) (csrrS (engineAt e).1 (engineAt e).2 f)

/-- `csrw` (R230). Jarend-L has no register that it may write. -/
def execCsrw (e : Engine) (f : FmtX) (s : State) : Host.Outcome State Fault Refusal :=
  s.jar (.csrw e f) e (fun _ => 1) (fun _ _ _ => .error 11) (csrwS (engineAt e).1 f)

end Sys2Proof.Machine
end

