-- ==== Sys2Proof/Config.lean ====
section
/-!
DEFINITION. Sys2Proof/Config.lean: what the spec leaves to a maker or leaves open, as constants with no body.
-/

namespace Sys2Proof

/-- The hash of R192 that chooses a group's Blotter slice from JOB_TAG and GROUP: the spec names a hash and
states no function (assumption log 8). -/
opaque Config.blotterHash : Nat → Nat → Nat

/-- The open value of an answer to a query whose value the spec does not state (I3C PID, BCR, DCR, MWL, MRL and the
status bits of GETSTATUS beyond those named), by query number (assumption log 9). -/
opaque Config.i3cOpen : Nat → Nat

/-- A byte of reserved SRAM whose layout the spec does not give, by address, and of a page of the Peat store that holds
keeper state (assumption log 16). -/
opaque Config.reservedByte : Nat → Byte

/-- CODE of the records that the TRACE recorder holds: Table 15.3 lists none (assumption log 15). -/
opaque Config.traceCode : Nat

/-- CODE of the records that the COMPARE recorder holds: Table 15.3 lists none (assumption log 15). -/
opaque Config.compareCode : Nat

/-- KIND of the advisory that tells the operator of a Peat page without valid data (R354): Table 13.7 lists none
(assumption log 15). -/
opaque Config.pageKind : Nat

/-- STATUS of a mailbox message that is refused with SHARED (R322): Table 10.12 lists no code for it (assumption log 24). -/
opaque Config.sharedStatus : BitVec 7

/-- The answer of `stat.qs.q` for a rank that no bin of the sketch reaches, by rank (assumption log 17). -/
opaque Config.noBin : Nat → Word

/-- Code-word address that a PARITY or UNCORR_MEM record names for a cell on its way, by the count of such records: the
spec gives queues of cells no addresses (assumption log 34). -/
opaque Config.cellWord : Nat → Nat

/-- Array byte that the leaf's PARITY record names for a cell on its way out (assumption log 34). -/
opaque Config.cellArray : Nat

/-- A free value of the model: read at the counter `State.freeCtr` (assumption log 1). -/
opaque Config.freeWord : Nat → DWord

end Sys2Proof
end

