-- ==== Sys2Proof/Machine/JarSystem.lean ====
section
/-!
DEFINITION. Sys2Proof/Machine/JarSystem.lean: stream, tree, epoch and emit instructions (R259 to R261, R264 to R268, R292,
R293, R300, R314 to R316), and the completion of waits (R239).
-/

namespace Sys2Proof.Machine

/-! ## Streams (Table 11.8) -/

/-- Items that an activation finds in a stream: the streams of a slot that has switched image are not its own (R245). -/
def Pz.itemsOf (z : Pz) (st : Nat) (x : Ctx) (s : Nat) : List StreamItem :=
  let q := z.slot st x.slot.toNat
  if q.active = some x.image then q.items s else []

/-- The oldest `n` items leave a stream. -/
def Pz.popItems (st p s n : Nat) (z : Pz) : Pz :=
  z.setSlot st p (fun q => { q with streams := tmod q.streams s (fun l => l.drop n) })

/-- `str.pop`: waits while the stream is empty. -/
def strPopS (st : Nat) (f : FmtX) (z : Pz) (x : Ctx) : SRes :=
  let a := (x.rg f.ra.toNat).toNat
  match x.image.bind f.sel.toNat with
  | none => .fault z 7 x.here
  | some b =>
    if a % 64 ≠ 0 then .fault z 4 a
    else match z.itemsOf st x f.sel.toNat with
      | [] => .wait z
      | it :: _ => z.stores x a 64 it.bytes (fun z =>
          let x' := if b.kind = 4 then { x with cur := it.ask, asks := x.asks ++ it.ask.toList } else x
          .go (z.popItems st x.slot.toNat f.sel.toNat 1) (x'.put f.rd.toNat (BitVec.ofNat 64 it.bytes.length)))

/-- `str.peek`. -/
def strPeekS (st : Nat) (f : FmtX) (z : Pz) (x : Ctx) : SRes :=
  let a := (x.rg f.ra.toNat).toNat
  match x.image.bind f.sel.toNat with
  | none => .fault z 7 x.here
  | some _ =>
    if a % 64 ≠ 0 then .fault z 4 a
    else match z.itemsOf st x f.sel.toNat with
      | [] => .go z (x.put f.rd.toNat 0)
      | it :: _ => z.stores x a 64 it.bytes (fun z => .go z (x.put f.rd.toNat (BitVec.ofNat 64 it.bytes.length)))

/-- `str.skip`: a skipped program message that wants a reply gets zeros, as one discarded unpopped (R268). -/
def strSkipS (st : Nat) (f : FmtX) (z : Pz) (x : Ctx) : SRes :=
  match x.image.bind f.sel.toNat with
  | none => .fault z 7 x.here
  | some _ =>
    let its := z.itemsOf st x f.sel.toNat
    let n := min (x.rg f.ra.toNat).toNat its.length
    let z := (z.popItems st x.slot.toNat f.sel.toNat n).answerAll ((its.take n).filterMap (·.ask))
    .go z (x.put f.rd.toNat (BitVec.ofNat 64 n))

/-- `str.len`. -/
def strLenS (st : Nat) (f : FmtX) (z : Pz) (x : Ctx) : SRes :=
  match x.image.bind f.sel.toNat with
  | none => .fault z 7 x.here
  | some _ => .go z (x.put f.rd.toNat (BitVec.ofNat 64 (z.itemsOf st x f.sel.toNat).length))

/-- `str.push`: 64 bytes into the lowest PEER stream of a slot. -/
def strPushS (f : FmtX) (z : Pz) (x : Ctx) : SRes :=
  let a := (x.rg f.ra.toNat).toNat
  let w := (x.rg f.rd.toNat).toNat
  let st := bits w 13 8
  let p := bits w 3 0
  match (z.slot st p).active.bind (·.lowest 6) with
  | none => .fault z 7 x.here
  | some (s, b) =>
    z.reads x a 64 64
      (let room := decide (((z.slot st p).items s).length < b.depth)
       .go (z.offerItem st p s b (memBytes z.mem a 64)) (x.put f.rd.toNat (flagD room)))

/-! ## Trees (Table 11.10) -/

/-- The model that a handle's ID names, loaded and committed. -/
def Pz.modelOf (z : Pz) (id : Word) : Option Model :=
  let m := tget z.models id.toNat
  if id != 0 && m.id == id && (decide (m.st = .active) || decide (m.st = .staging)) then some m else none

/-- Feature bytes that launches of a die hold in its launch store (R277). -/
def Pz.storeUsed (z : Pz) (d : Nat) : Nat :=
  (z.launches.filter (fun l => l.station.toNat / 4 == d)).foldl (fun n l => n + 4 * l.feats.length) 0

/-- Whether the governor's level does not allow a launch now (R223; level 0 admits nothing, and a level below demand
leaves work waiting). -/
def Pz.deferred (z : Pz) : Bool := z.fld PzR.GOV_STAT_LEVEL == 0 || decide (z.fld PzR.GOV_STAT_LEVEL < z.hl.demand)

/-- A launch issued (R261, R274, R277): it reads its features and the model's active trees at once. An activation on a
switched-out image has no stream left for the result. -/
def Pz.issueLaunch (st : Nat) (m : Model) (a : Nat) (x : Ctx) (z : Pz) : Pz :=
  let p := x.slot.toNat
  let q := z.slot st p
  let z := if z.deferred then z.addSat PzR.GOV_STAT_DEFER 1 else z
  if q.active ≠ some x.image then z.addMod PzR.SG_LAUNCH_COUNT 1
  else
    let l : Launch := { station := BitVec.ofNat 6 st, slot := x.slot, tag := q.tag, model := m.id, nclass := m.nclass
                        base := m.base, trees := m.old ++ m.trees
                        feats := (List.range m.nf).map (fun i => BitVec.ofNat 32 (memLoad z.mem (a + 4 * i) 4))
                        mixed := (z.mixedModel m.id).isSome, repl := m.repl }
    { z.setSlot st p (fun q => { q with tag := q.tag + 1, out := q.out ++ [q.tag] }) with launches := z.launches ++ [l] }

/-- `tree.launch`: waits without room in the TREE stream or in the launch store; each wait for the store counts in DEFER. -/
def treeLaunchS (st : Nat) (f : FmtX) (z : Pz) (x : Ctx) : SRes :=
  let a := (x.rg f.ra.toNat).toNat
  let q := z.slot st x.slot.toNat
  if 8 ≤ f.sel.toNat then .fault z 2 x.here
  else match z.modelOf (x.image.models.getD f.sel.toNat 0), x.image.lowest 5 with
    | none, _ => .fault z 8 x.here
    | some _, none => .fault z 7 x.here
    | some m, some (s, b) =>
      z.reads x a (4 * m.nf) 4
        (if b.depth ≤ (z.itemsOf st x s).length + q.out.length then .wait z
         else if 8388608 < z.storeUsed (st / 4) + 4 * m.nf then
           .wait (if x.wait.isSome then z else z.addSat PzR.GOV_STAT_DEFER 1)
         else .go (z.issueLaunch st m a x) (x.put f.rd.toNat (q.tag.setWidth 64)))

/-- `tree.wait`: until every launch with a tag not later has its result. -/
def treeWaitS (st : Nat) (f : FmtX) (z : Pz) (x : Ctx) : SRes :=
  let lim : BitVec 16 := (x.rg f.ra.toNat).setWidth 16
  let out := (z.slot st x.slot.toNat).out
  if out.all (fun t => laterCfg t lim) then .go z (x.put f.rd.toNat (BitVec.ofNat 64 out.length)) else .wait z

/-- fp32 sum of a list in order. -/
def f32Sum : List Word → Word
  | [] => 0
  | w :: ws => ws.foldl f32Add w

/-- `tree.sum`: waits for n items, pops them, and adds their scores in pop order. -/
def treeSumS (st : Nat) (f : FmtX) (z : Pz) (x : Ctx) : SRes :=
  let n := (x.rg f.ra.toNat).toNat
  match x.image.bind f.sel.toNat with
  | none => .fault z 7 x.here
  | some _ =>
    if n = 0 ∨ 64 < n then .go z (x.put f.rd.toNat 0)
    else
      let its := (z.itemsOf st x f.sel.toNat).take n
      if its.length < n then .wait z
      else .go (z.popItems st x.slot.toNat f.sel.toNat n)
        (x.put f.rd.toNat ((f32Sum (its.map (fun i => BitVec.ofNat 32 (leAt i.bytes 0 4)))).setWidth 64))

/-! ## Epochs (Table 11.13) -/

/-- Comparison under R25: -1 earlier, 0 equal, +1 later, 2 at the half range. -/
def serialCmp (equal later earlier : Bool) : DWord :=
  if equal then 0 else if later then 1 else if earlier then 0xFFFFFFFFFFFFFFFF else 2

/-- `ep.cmp`. -/
def epCmpS (f : FmtX) (z : Pz) (x : Ctx) : SRes :=
  let a := lo32 (x.rg f.ra.toNat)
  .go z (x.put f.rd.toNat (serialCmp (a == z.ctl.epoch) (laterInk a z.ctl.epoch) (laterInk z.ctl.epoch a)))

/-- `ep.wait`. -/
def epWaitS (f : FmtX) (z : Pz) (x : Ctx) : SRes :=
  let a := lo32 (x.rg f.ra.toNat)
  if z.ctl.epoch == a || laterInk z.ctl.epoch a then .go z (x.put f.rd.toNat (z.ctl.epoch.setWidth 64)) else .wait z

/-- `ep.cfgcmp`. -/
def epCfgcmpS (f : FmtX) (z : Pz) (x : Ctx) : SRes :=
  let a : BitVec 16 := (x.rg f.ra.toNat).setWidth 16
  let c := BitVec.ofNat 16 (z.fld PzR.CF_STAT_LAST_CFG)
  .go z (x.put f.rd.toNat (serialCmp (a == c) (laterCfg a c) (laterCfg c a)))

/-! ## Emit (Table 11.14) -/

/-- EMIT_BAD (R265, R266): station, slot, and what was wrong. -/
def Pz.emitBad (st : Nat) (x : Ctx) (what : Nat) (z : Pz) : Pz :=
  z.record 2 0x0802 (stOrigin st) x.image.jobTag.toNat (leB 4 st ++ leB 4 x.slot.toNat ++ leB 4 what)

/-- `emit.alarm` on a station. -/
def emitAlarmS (st : Nat) (f : FmtX) (z : Pz) (x : Ctx) : SRes :=
  let code := bits (x.rg f.ra.toNat).toNat 15 0
  if code < 0x100 then .go (z.emitBad st x code) (x.put f.rd.toNat 0)
  else
    let r := z.raiseAlarm st x.slot.toNat code x.image.jobTag
    .go r.2 (x.put f.rd.toNat (flagD r.1))

/-- Least LEN of a kind that a program may emit as a verdict or an advisory (R314, Table 13.7); none for the others. -/
def kindMin (adv : Bool) (kind : Nat) : Option Nat :=
  if 0x80 ≤ kind ∧ kind ≤ 0xBF then some 8
  else if adv then if kind = 4 then some 0x48 else none
  else if kind = 1 then some 0x30
  else if kind = 2 ∨ kind = 3 then some 0x34
  else none

/-- BASIS of R292 with whether BASEMIS counts: 0 OWN, 1 COHORT, 2 PRIOR, 3 NONE. -/
def Pz.basis (z : Pz) (x : Ctx) (tag : BitVec 24) (body : List Byte) : Nat × Bool :=
  let a := leAt body 8 8
  let fd : Nat → Nat → Nat := fun off n => memLoad z.mem (a + off) n
  let least := max 1 (z.fld PzR.VD_CTL_COHORT_MIN)
  let dflt := if z.fld PzR.VD_CTL_PRIME = 0 then 256 else z.fld PzR.VD_CTL_PRIME
  if a = 0 then (3, false)
  else if !(x.image.grants a 1280 false && z.exists? a) || fd 0 4 != leAt body 4 4 || fd 5 3 != tag.toNat then (3, true)
  else if (if fd 0xA 2 = 0 then dflt else fd 0xA 2) ≤ fd 0x10 8 then (0, false)
  else if least ≤ leAt body 0x18 2 then (1, false)
  else (2, false)

/-- A program record completed and queued (R313, R315, R316); none when the programs' share of the queue is full. -/
def Pz.progRecord (adv : Bool) (st : Nat) (basis : Nat) (tag : BitVec 24) (body : List Byte) (z : Pz) : Option Pz :=
  let model : Word := BitVec.ofNat 32 (leAt body 0x14 4)
  let mm := z.mixedModel model
  let body' := match mm with
    | some m => body.take 0x14 ++ leB 4 m.id.toNat ++ body.drop 0x18
    | none => body
  let prov := leAt body 2 1 == 1 && decide (leAt body 0x28 4 < 256 * z.fld PzR.VD_CTL_QMIN)
  let head := recHead adv false st (recUnits body') z.fleet.toNat tag.toNat
    (z.phaseAt tag (BitVec.ofNat 32 (leAt body 0x10 4))) (mm.isSome || bit (leAt body 0x18 4) 16) basis prov
    (((z.job tag).map (·.cfg.toNat)).getD 0) z.now ((mm.map (·.oldId.toNat)).getD 0) z.ctl.rseq.toNat
  if 3584 ≤ (z.recQ.filter (fun r => !r.1)).length ∨ 4096 ≤ z.recQ.length then none
  else some (Pz.egress false tag (recBytes head body') { z with ctl := { z.ctl with rseq := z.ctl.rseq + 1 } })

/-- `emit.verdict` and `emit.adv` (R265, R292, R293, R300, R314 to R316). -/
def emitRecS (adv : Bool) (st : Nat) (f : FmtX) (z : Pz) (x : Ctx) : SRes :=
  let a := (x.rg f.ra.toNat).toNat
  let w := memLoad z.mem a 4
  let len := w % 65536
  let kind := bits w 23 16
  let no : Pz → SRes := fun z => .go z (x.put f.rd.toNat 0)
  z.reads x a 4 4
    (match kindMin adv kind with
    | none => no (z.emitBad st x w)
    | some least =>
      if len < least ∨ 1024 < len ∨ 2 ^ 24 ≤ w then no (z.emitBad st x w)
      else z.reads x a len 4
        (let body := memBytes z.mem a len
         let b := z.basis x x.image.jobTag body
         let z := if b.2 then z.addSat PzR.VD_STAT_BASEMIS 1 else z
         if (kind = 2 ∨ kind = 3) ∧ b.1 ≠ 0 then no (z.addSat PzR.VD_STAT_UNPRIMED 1)
         else match z.progRecord adv st b.1 x.image.jobTag body with
           | none => no (z.addSat PzR.VD_DROP_PROGDROP 1)
           | some z => .go z (x.put f.rd.toNat 1)))

/-- A trace record of a station: on Trace towards the parent and into the TRACE recorder (Table 11.15). -/
def Pz.sendTrace (st kind : Nat) (tag : BitVec 24) (body : List Byte) (z : Pz) : Pz :=
  let bs := traceHead kind 1 body.length z.fleet.toNat tag.toNat st (tget z.ctl.tseqs st).toNat z.now ++ body
  let z := { z with ctl := { z.ctl with tseqs := tmod z.ctl.tseqs st (· + 1) } }
  (z.record 5 Config.traceCode (stOrigin st) tag.toNat bs).sendUp (z.mkMsg 3 0x0B bs)

/-- `emit.trace`: `full` tells whether the Trace egress queue, whose size the spec does not give, has no room. -/
def emitTraceS (st : Nat) (full : Bool) (f : FmtX) (z : Pz) (x : Ctx) : SRes :=
  let a := (x.rg f.ra.toNat).toNat
  let w := memLoad z.mem a 4
  let len := w % 65536
  let kind := bits w 23 16
  z.reads x a 4 4
    (if len < 4 ∨ 4072 < len ∨ kind = 0 ∨ 0xCF < kind ∨ 2 ^ 24 ≤ w then
       .go (z.emitBad st x w) (x.put f.rd.toNat 0)
     else z.reads x a len 4
       (if full then .go (z.addSat (PzR.ST_EGDROP_TRACE.at (0x400 * st)) 1) (x.put f.rd.toNat 0)
        else .go (z.sendTrace st kind x.image.jobTag (memBytes z.mem a len)) (x.put f.rd.toNat 1)))

/-- `emit.reply` (R268): answers the MBOX item popped last when it still wants a reply. -/
def emitReplyS (f : FmtX) (z : Pz) (x : Ctx) : SRes :=
  let a := (x.rg f.ra.toNat).toNat
  z.reads x a 56 4
    (match x.cur with
    | none => .go z (x.put f.rd.toNat 0)
    | some m => .go (z.finish m 0 (memBytes z.mem a 56))
        ({ x with cur := none, asks := x.asks.filter (fun y => !decide (y = m)) }.put f.rd.toNat 1))

/-! ## The rows -/

/-- `str.pop`. -/
def execStrPop (e : Engine) (f : FmtX) (s : State) : Host.Outcome State Fault Refusal :=
  s.jarS (.strPop e f) e (strPopS (engineAt e).1 f)

/-- `str.peek`. -/
def execStrPeek (e : Engine) (f : FmtX) (s : State) : Host.Outcome State Fault Refusal :=
  s.jarS (.strPeek e f) e (strPeekS (engineAt e).1 f)

/-- `str.skip`. -/
def execStrSkip (e : Engine) (f : FmtX) (s : State) : Host.Outcome State Fault Refusal :=
  s.jarS (.strSkip e f) e (strSkipS (engineAt e).1 f)

/-- `str.len`. -/
def execStrLen (e : Engine) (f : FmtX) (s : State) : Host.Outcome State Fault Refusal :=
  s.jarS (.strLen e f) e (strLenS (engineAt e).1 f)

/-- `str.push`. -/
def execStrPush (e : Engine) (f : FmtX) (s : State) : Host.Outcome State Fault Refusal :=
  s.jarS (.strPush e f) e (strPushS f)

/-- `tree.launch`. -/
def execTreeLaunch (e : Engine) (f : FmtX) (s : State) : Host.Outcome State Fault Refusal :=
  s.jarS (.treeLaunch e f) e (treeLaunchS (engineAt e).1 f)

/-- `tree.wait`. -/
def execTreeWait (e : Engine) (f : FmtX) (s : State) : Host.Outcome State Fault Refusal :=
  s.jarS (.treeWait e f) e (treeWaitS (engineAt e).1 f)

/-- `tree.sum`. -/
def execTreeSum (e : Engine) (f : FmtX) (s : State) : Host.Outcome State Fault Refusal :=
  s.jarS (.treeSum e f) e (treeSumS (engineAt e).1 f)

/-- `ep.cmp`. -/
def execEpCmp (e : Engine) (f : FmtX) (s : State) : Host.Outcome State Fault Refusal :=
  s.jarS (.epCmp e f) e (epCmpS f)

/-- `ep.wait`. -/
def execEpWait (e : Engine) (f : FmtX) (s : State) : Host.Outcome State Fault Refusal :=
  s.jarS (.epWait e f) e (epWaitS f)

/-- `ep.cfgcmp`. -/
def execEpCfgcmp (e : Engine) (f : FmtX) (s : State) : Host.Outcome State Fault Refusal :=
  s.jarS (.epCfgcmp e f) e (epCfgcmpS f)

/-- `emit.alarm` (R92, R265, R266). -/
def execEmitAlarm (e : Engine) (f : FmtX) (s : State) : Host.Outcome State Fault Refusal :=
  s.jar (.emitAlarm e f) e (fun _ => 1) (Leaf.emitAlarmL f) (emitAlarmS (engineAt e).1 f)

/-- `emit.verdict`. -/
def execEmitVerdict (e : Engine) (f : FmtX) (s : State) : Host.Outcome State Fault Refusal :=
  s.jarS (.emitVerdict e f) e (emitRecS false (engineAt e).1 f)

/-- `emit.adv`. -/
def execEmitAdv (e : Engine) (f : FmtX) (s : State) : Host.Outcome State Fault Refusal :=
  s.jarS (.emitAdv e f) e (emitRecS true (engineAt e).1 f)

/-- `emit.trace`: whether its egress queue is full is a free value (assumption log 1). -/
def execEmitTrace (e : Engine) (f : FmtX) (s : State) : Host.Outcome State Fault Refusal :=
  .next { s.jarRun (.emitTrace e f) e (fun _ => 1) notL
      (emitTraceS (engineAt e).1 ((Config.freeWord s.freeCtr).getLsbD 0) f) with freeCtr := s.freeCtr + 1 }

/-- `emit.reply`. -/
def execEmitReply (e : Engine) (f : FmtX) (s : State) : Host.Outcome State Fault Refusal :=
  s.jarS (.emitReply e f) e (emitReplyS f)

/-! ## Waits that end (R239) -/

/-- The body of an instruction of class TW, tried again. -/
def waitBody (i : Instr) (st : Nat) : Option (Pz → Ctx → SRes) :=
  match i with
  | .strPop _ f => some (strPopS st f)
  | .treeLaunch _ f => some (treeLaunchS st f)
  | .treeWait _ f => some (treeWaitS st f)
  | .treeSum _ f => some (treeSumS st f)
  | .epWait _ f => some (epWaitS f)
  | _ => none

/-- WAIT_COMPLETE: a waiting instruction completes when its condition holds; else it goes on waiting. -/
def Pz.waitComplete (st c : Nat) (z : Pz) : Pz :=
  match z.ctx st c with
  | none => z
  | some x =>
    match x.wait with
    | none => z
    | some (i, _) =>
      match waitBody i st with
      | none => z
      | some body =>
        match body z x with
        | .go z x' => z.setCtx st c (some { x' with wait := none })
        | .fault z code addr => z.faultAct st c { x with wait := none } code addr
        | .wait _ => z
        | .stop z x' => z.endAct st c x'

/-- WAIT_COMPLETE. -/
def execWaitComplete (st : BitVec 6) (ctx : BitVec 2) (s : State) : Host.Outcome State Fault Refusal :=
  .next (s.onPz (Pz.waitComplete st.toNat ctx.toNat))

end Sys2Proof.Machine
end

