-- ==== Sys2Proof/Machine/JarVector.lean ====
section
/-!
DEFINITION. Sys2Proof/Machine/JarVector.lean: vector, statistics, reduction and digest instructions of Jarend-S
(R256 to R258, R262, R263, R297 to R299).
-/

namespace Sys2Proof.Machine

/-! ## Vectors (Table 11.6) -/

/-- Lane operations of three registers: lanes outside km keep vd. -/
def vec3 (op : Word → Word → Word) (f : FmtV) (z : Pz) (x : Ctx) : SRes :=
  .go z (x.vput f.vd.toNat (fun i =>
    if x.on f.km.toNat i then op (x.ln f.va.toNat i) (x.ln f.vb.toNat i) else x.ln f.vd.toNat i))

/-- Comparisons: bit i of kd is the condition for the lanes in km, 0 elsewhere. -/
def vecCmp (cond : Word → Word → Bool) (f : FmtV) (z : Pz) (x : Ctx) : SRes :=
  if 8 ≤ f.vd.toNat then .fault z 2 x.here
  else .go z (x.kput f.vd.toNat (BitVec.ofNat 64 ((List.range 64).foldl (fun n i =>
    n + b2n (x.on f.km.toNat i && cond (x.ln f.va.toNat i) (x.ln f.vb.toNat i)) * 2 ^ i) 0)))

/-- Key conversions per lane (R252). -/
def vecKey (op : Word → Word) (f : FmtV) (z : Pz) (x : Ctx) : SRes :=
  .go z (x.vput f.vd.toNat (fun i => if x.on f.km.toNat i then op (x.ln f.va.toNat i) else x.ln f.vd.toNat i))

/-- Address of `vld` and `vst`: g[ra] + 256 times OFF13. -/
def vecAddr (f : FmtW) (x : Ctx) : Nat :=
  ((x.rg f.ra.toNat).toNat + (f.off.toInt * 256 + 2 ^ 64).toNat) % 2 ^ 64

/-- `vld`: the 256 bytes are read; lanes outside km keep their value. -/
def vldS (f : FmtW) (z : Pz) (x : Ctx) : SRes :=
  let a := vecAddr f x
  z.reads x a 256 4 (.go z (x.vput f.v.toNat (fun i =>
    if x.on f.km.toNat i then BitVec.ofNat 32 (memLoad z.mem (a + 4 * i) 4) else x.ln f.v.toNat i)))

/-- `vst`: lanes outside km are not stored. -/
def vstS (f : FmtW) (z : Pz) (x : Ctx) : SRes :=
  let a := vecAddr f x
  match z.accessFault x a 256 4 true with
  | some e => .fault z e a
  | none => .go ((List.range 64).foldl (fun z i =>
      if x.on f.km.toNat i then z.write (a + 4 * i) (leB 4 (x.ln f.v.toNat i).toNat) else z) z) x

/-- The lanes of vS in km, in order. -/
def redLanes (f : FmtX) (x : Ctx) : List Word :=
  ((List.range 64).filter (fun i => x.on f.km.toNat i)).map (x.ln f.sel.toNat)

/-- Reductions: a value for no lanes, and an operation over the others. -/
def vecRed (r : List Word → DWord) (f : FmtX) (z : Pz) (x : Ctx) : SRes := .go z (x.put f.rd.toNat (r (redLanes f x)))

/-- 64-bit sum of sign-extended lanes. -/
def redSum (ls : List Word) : DWord := ls.foldl (fun a w => a + w.signExtend 64) 0
/-- Signed minimum; 0x7FFF_FFFF without lanes. -/
def redMin (ls : List Word) : DWord := (ls.foldl (fun a w => if w.slt a then w else a) (0x7FFFFFFF : Word)).signExtend 64
/-- Signed maximum; 0x8000_0000 sign-extended without lanes. -/
def redMax (ls : List Word) : DWord := (ls.foldl (fun a w => if a.slt w then w else a) (0x80000000 : Word)).signExtend 64
/-- Unsigned minimum; 0xFFFF_FFFF without lanes. -/
def redMinu (ls : List Word) : DWord := (ls.foldl (fun a w => if w.ult a then w else a) (0xFFFFFFFF : Word)).setWidth 64
/-- Unsigned maximum; 0 without lanes. -/
def redMaxu (ls : List Word) : DWord := (ls.foldl (fun a w => if a.ult w then w else a) (0 : Word)).setWidth 64
/-- Number of lanes. -/
def redCnt (ls : List Word) : DWord := BitVec.ofNat 64 ls.length

/-- `vsplat`. -/
def vsplatS (f : FmtX) (z : Pz) (x : Ctx) : SRes := .go z (x.vput f.sel.toNat (fun _ => lo32 (x.rg f.ra.toNat)))

/-- `vins`: lane g[ri] mod 64. -/
def vinsS (f : FmtX) (z : Pz) (x : Ctx) : SRes :=
  let j := (x.rg f.rd.toNat).toNat % 64
  .go z (x.vput f.sel.toNat (fun i => if i = j then lo32 (x.rg f.ra.toNat) else x.ln f.sel.toNat i))

/-- `vext`. -/
def vextS (f : FmtX) (z : Pz) (x : Ctx) : SRes :=
  .go z (x.put f.rd.toNat ((x.ln f.sel.toNat ((x.rg f.ra.toNat).toNat % 64)).setWidth 64))

/-- `vmov`: a register field of 16 or above faults. -/
def vmovS (f : FmtX) (z : Pz) (x : Ctx) : SRes :=
  if 16 ≤ f.rd.toNat then .fault z 2 x.here else .go z (x.vput f.rd.toNat (x.ln f.sel.toNat))

/-! ## Statistics (R258) -/

/-- Whether a lane mask in a general register selects a lane; a mask of zero selects all. -/
def maskOn (m : DWord) (i : Nat) : Bool := m == 0 || bit m.toNat i

/-- Keys of the selected lanes of vS that are not the NaN key. -/
def statKeys (f : FmtX) (x : Ctx) : List Nat :=
  (((List.range 64).filter (fun i => maskOn (x.rg f.ra.toNat) i && x.ln f.sel.toNat i != nanKey)).map
    (fun i => (x.ln f.sel.toNat i).toNat))

/-- Median key of a list, the NaN key for none. -/
def medKey (ks : List Nat) : Nat := if ks.isEmpty then nanKey.toNat else lowerMedian ks

/-- `stat.med`. -/
def statMedS (f : FmtX) (z : Pz) (x : Ctx) : SRes :=
  let ks := statKeys f x
  .go z (x.put f.rd.toNat (BitVec.ofNat 64 (medKey ks + ks.length * 2 ^ 32)))

/-- `stat.mad`: distances are unsigned key differences. -/
def statMadS (f : FmtX) (z : Pz) (x : Ctx) : SRes :=
  let ks := statKeys f x
  let m := medKey ks
  let d := if ks.isEmpty then 0 else lowerMedian (ks.map (fun k => max k m - min k m))
  .go z (x.put f.rd.toNat (BitVec.ofNat 64 (m + d * 2 ^ 32)))

/-- Bin of a key (R298). -/
def sketchBin (lo shift k : Nat) : Nat := if k < lo then 0 else min 4095 (1 + (k - lo) / 2 ^ shift)

/-- SHIFT of a sketch at an address: above 20 acts as 20. -/
def sketchShift (mem : Tbl Byte) (a : Nat) : Nat := min 20 (memLoad mem (a + 4) 1)

/-- One key counted in its bin, saturating. -/
def qsAdd (a : Nat) (z : Pz) (k : Nat) : Pz :=
  let c := a + 0x100 + 4 * sketchBin (memLoad z.mem a 4) (sketchShift z.mem a) k
  let z := z.write c (leB 4 (min 0xFFFFFFFF (memLoad z.mem c 4 + 1)))
  z.write (a + 8) (leB 4 (min 0xFFFFFFFF (memLoad z.mem (a + 8) 4 + 1)))

/-- The halving (R298): every counter halved, N the new sum, HALVINGS one more. -/
def sketchHalve (a : Nat) (z : Pz) : Pz :=
  let cs := (List.range 4096).map (fun b => memLoad z.mem (a + 0x100 + 4 * b) 4 / 2)
  let z := z.write (a + 0x100) (cs.flatMap (leB 4))
  let z := z.write (a + 8) (leB 4 (min 0xFFFFFFFF (cs.foldl (· + ·) 0)))
  z.write (a + 0x10) (leB 4 (memLoad z.mem (a + 0x10) 4 + 1))

/-- `stat.qs.add` (R298). -/
def qsAddS (f : FmtX) (z : Pz) (x : Ctx) : SRes :=
  let a := (x.rg f.ra.toNat).toNat
  let ks := ((List.range 64).map (fun i => (x.ln f.sel.toNat i).toNat)).filter (· != nanKey.toNat)
  z.updates x a 16640 256
    (let z := ks.foldl (qsAdd a) z
     let h := memLoad z.mem (a + 0xC) 4
     let z := if 0 < h ∧ h ≤ memLoad z.mem (a + 8) 4 ∧ ks ≠ [] then sketchHalve a z else z
     .go z (x.put f.rd.toNat (BitVec.ofNat 64 ks.length)))

/-- The lowest bin from `b` on whose cumulative count, `acc` so far, reaches the rank; `n` bins at most. -/
def rankBin (count : Nat → Nat) (r : Nat) : Nat → Nat → Nat → Option Nat
  | 0, _, _ => none
  | n + 1, b, acc => if r ≤ acc + count b then some b else rankBin count r n (b + 1) (acc + count b)

/-- Upper edge of a bin (R299). -/
def binEdge (lo shift b : Nat) : Nat :=
  if b = 0 then (lo + 2 ^ 32 - 1) % 2 ^ 32
  else if b < 4095 then min (lo + b * 2 ^ shift - 1) 0xFFFFFFFE else 0xFFFFFFFE

/-- The key at quantile `q / 65536` of a sketch (R299); a rank that no bin reaches gives a free value. -/
def sketchQuantile (mem : Tbl Byte) (a q : Nat) : Word :=
  let n := memLoad mem (a + 8) 4
  let r := max 1 ((q * n + 65535) / 65536)
  if n = 0 then nanKey
  else match rankBin (fun b => memLoad mem (a + 0x100 + 4 * b) 4) r 4096 0 0 with
    | some b => BitVec.ofNat 32 (binEdge (memLoad mem a 4) (sketchShift mem a) b)
    | none => Config.noBin r

/-- `stat.qs.q`. -/
def qsQS (f : FmtX) (z : Pz) (x : Ctx) : SRes :=
  let a := (x.rg f.ra.toNat).toNat
  z.reads x a 16640 256
    (.go z (x.put f.rd.toNat ((sketchQuantile z.mem a ((x.rg f.rd.toNat).toNat % 65536)).setWidth 64)))

/-- One lane of `stat.ewma` (Table 11.7): mean, then variance, in fp32. -/
def ewmaLane (al : Word) (mean var x : Word) : Word × Word :=
  let d := f32Add x (f32Negate mean)
  let mean' := f32Add mean (f32Mul al d)
  let var' := f32Mul (f32Add 0x3F800000 (f32Negate al)) (f32Add var (f32Mul al (f32Mul d d)))
  (mean', var')

/-- `stat.ewma`: means at the address, variances 256 bytes on. -/
def ewmaS (f : FmtX) (z : Pz) (x : Ctx) : SRes :=
  let a := (x.rg f.ra.toNat).toNat
  let al := f32Pow2Neg (max 1 ((x.rg f.rd.toNat).toNat % 16))
  let ls := (List.range 64).filter (fun i => x.ln f.sel.toNat i != nanKey)
  z.updates x a 512 256
    (let z := ls.foldl (fun z i =>
       let r := ewmaLane al (BitVec.ofNat 32 (memLoad z.mem (a + 4 * i) 4))
         (BitVec.ofNat 32 (memLoad z.mem (a + 256 + 4 * i) 4)) (unkeyF32 (x.ln f.sel.toNat i))
       (z.write (a + 4 * i) (leB 4 r.1.toNat)).write (a + 256 + 4 * i) (leB 4 r.2.toNat)) z
     .go z (x.put f.rd.toNat (BitVec.ofNat 64 ls.length)))

/-! ## Station reductions (R256) -/

/-- Lanes that an `rdx` selects: the mask is in rm. -/
def rdxLanes (f : FmtX) (x : Ctx) : List Nat := (List.range 64).filter (maskOn (x.rg f.rd.toNat))

/-- An `rdx` over the selected lanes of the block at g[ra]: `g` changes lane i at its 24 bytes. -/
def rdxS (g : Nat → Word → Pz → Pz) (f : FmtX) (z : Pz) (x : Ctx) : SRes :=
  let a := (x.rg f.ra.toNat).toNat
  z.updates x a 1536 256 (.go ((rdxLanes f x).foldl (fun z i => g (a + 24 * i) (x.ln f.sel.toNat i) z) z) x)

/-- `rdx.add` on a lane: count and signed sum. -/
def rdxAddLane (a : Nat) (v : Word) (z : Pz) : Pz :=
  let z := z.write a (leB 4 (memLoad z.mem a 4 + 1))
  z.write (a + 16) (leB 8 (memLoad z.mem (a + 16) 8 + (v.signExtend 64).toNat))

/-- `rdx.min` on a lane. -/
def rdxMinLane (a : Nat) (v : Word) (z : Pz) : Pz := z.write (a + 4) (leB 4 (min (memLoad z.mem (a + 4) 4) v.toNat))

/-- `rdx.max` on a lane. -/
def rdxMaxLane (a : Nat) (v : Word) (z : Pz) : Pz := z.write (a + 8) (leB 4 (max (memLoad z.mem (a + 8) 4) v.toNat))

/-- A reset lane: count 0, minimum all ones, maximum 0, sum 0. -/
def rdxClear : List Byte := leB 4 0 ++ leB 4 0xFFFFFFFF ++ leB 8 0 ++ leB 8 0

/-- `rdx.close`: the block is copied to the 1,536 bytes after it and reset. -/
def rdxCloseS (f : FmtX) (z : Pz) (x : Ctx) : SRes :=
  let a := (x.rg f.ra.toNat).toNat
  z.updates x a 3072 256
    (let n := (List.range 64).foldl (fun n i => n + memLoad z.mem (a + 24 * i) 4) 0
     let z := z.write (a + 1536) (memBytes z.mem a 1536)
     .go (z.write a ((List.replicate 64 rdxClear).flatten)) (x.put f.rd.toNat (BitVec.ofNat 64 n)))

/-! ## Digests (R262, R263) -/

/-- Projection j of a digest body at an address (Table 8.3). -/
def projAt (mem : Tbl Byte) (a j : Nat) : Nat := memLoad mem (a + 0x60 + 8 * j) 8

/-- `dg.ld`. -/
def dgLdS (f : FmtX) (z : Pz) (x : Ctx) : SRes :=
  let a := (x.rg f.ra.toNat).toNat
  z.reads x a 224 8 (.go z ((x.vput f.sel.toNat (fun i =>
      if i < 32 then BitVec.ofNat 32 (projAt z.mem a (i / 2) / 2 ^ (32 * (i % 2))) else 0)).put f.rd.toNat
    (BitVec.ofNat 64 (memLoad z.mem (a + 0x20) 8))))

/-- Magnitude of a signed 64-bit number; 2^63 for the most negative. -/
def mag64 (n : Nat) : Nat := (sgn 64 n).natAbs

/-- `dg.diff`: lanes above 31 keep their value. -/
def dgDiffS (f : FmtX) (z : Pz) (x : Ctx) : SRes :=
  let a := (x.rg f.ra.toNat).toNat
  let pair : Nat → Nat := fun j => (x.ln f.sel.toNat (2 * j)).toNat + (x.ln f.sel.toNat (2 * j + 1)).toNat * 2 ^ 32
  let d : Nat → Nat := fun j => (pair j + 2 ^ 64 - projAt z.mem a j) % 2 ^ 64
  z.reads x a 224 8 (.go z ((x.vput f.sel.toNat (fun i =>
      if i < 32 then BitVec.ofNat 32 (d (i / 2) / 2 ^ (32 * (i % 2))) else x.ln f.sel.toNat i)).put f.rd.toNat
    (BitVec.ofNat 64 ((List.range 16).foldl (fun m j => max m (mag64 (d j))) 0))))

/-- Twice the negative exponent of the unit roundoff of ACCF (R195); none for a reserved code. -/
def accfExp (accf : Nat) : Option Nat := ([48, 22, 16] : List Nat)[accf]?

/-- The tolerance t of R195: the smallest whole number at least KTOL times the square root of V, computed exactly. V is
taken in units of 2^-17. -/
def tolerance (n sumsq r depth accf ktol : Nat) : Nat :=
  match accfExp accf with
  | none => 0
  | some e =>
    if r = 0 ∨ depth = 0 then 0
    else
      let v := n * (r + 1) ^ 2 * 2 ^ 16 + r * depth ^ 2 * sumsq * 2 ^ (50 - e)
      sqrtUp ((ktol ^ 2 * v + 2 ^ 17 - 1) / 2 ^ 17)

/-- `dg.tol` (Table 11.12). -/
def dgTolS (f : FmtX) (z : Pz) (x : Ctx) : SRes :=
  let a := (x.rg f.ra.toNat).toNat
  let b : Nat → Nat → Nat := fun off n => memLoad z.mem (a + off) n
  z.reads x a 32 8
    (let k := b 0x1B 1
     let t := tolerance (b 0 8) (b 8 8 + b 0x10 5 * 2 ^ 64) (b 0x18 1) (b 0x19 1) (b 0x1A 1 % 8) (if k = 0 then 8 else k)
     .go z (x.put f.rd.toNat (BitVec.ofNat 64 (min t (2 ^ 64 - 1)))))

/-- `vadd` (R257). -/
def execVadd (e : Engine) (f : FmtV) (s : State) : Host.Outcome State Fault Refusal :=
  s.jarS (.vadd e f) e (vec3 (fun a b => a + b) f)

/-- `vsub` (R257). -/
def execVsub (e : Engine) (f : FmtV) (s : State) : Host.Outcome State Fault Refusal :=
  s.jarS (.vsub e f) e (vec3 (fun a b => a - b) f)

/-- `vmul` (R257). -/
def execVmul (e : Engine) (f : FmtV) (s : State) : Host.Outcome State Fault Refusal :=
  s.jarS (.vmul e f) e (vec3 (fun a b => a * b) f)

/-- `vmin` (R257). -/
def execVmin (e : Engine) (f : FmtV) (s : State) : Host.Outcome State Fault Refusal :=
  s.jarS (.vmin e f) e (vec3 (fun a b => if a.slt b then a else b) f)

/-- `vmax` (R257). -/
def execVmax (e : Engine) (f : FmtV) (s : State) : Host.Outcome State Fault Refusal :=
  s.jarS (.vmax e f) e (vec3 (fun a b => if a.slt b then b else a) f)

/-- `vminu` (R257). -/
def execVminu (e : Engine) (f : FmtV) (s : State) : Host.Outcome State Fault Refusal :=
  s.jarS (.vminu e f) e (vec3 (fun a b => if a.ult b then a else b) f)

/-- `vmaxu` (R257). -/
def execVmaxu (e : Engine) (f : FmtV) (s : State) : Host.Outcome State Fault Refusal :=
  s.jarS (.vmaxu e f) e (vec3 (fun a b => if a.ult b then b else a) f)

/-- `vand` (R257). -/
def execVand (e : Engine) (f : FmtV) (s : State) : Host.Outcome State Fault Refusal :=
  s.jarS (.vand e f) e (vec3 (fun a b => a &&& b) f)

/-- `vor` (R257). -/
def execVor (e : Engine) (f : FmtV) (s : State) : Host.Outcome State Fault Refusal :=
  s.jarS (.vor e f) e (vec3 (fun a b => a ||| b) f)

/-- `vxor` (R257). -/
def execVxor (e : Engine) (f : FmtV) (s : State) : Host.Outcome State Fault Refusal :=
  s.jarS (.vxor e f) e (vec3 (fun a b => a ^^^ b) f)

/-- `vshl` (R257). -/
def execVshl (e : Engine) (f : FmtV) (s : State) : Host.Outcome State Fault Refusal :=
  s.jarS (.vshl e f) e (vec3 (fun a b => a <<< (b.toNat % 32)) f)

/-- `vshr` (R257). -/
def execVshr (e : Engine) (f : FmtV) (s : State) : Host.Outcome State Fault Refusal :=
  s.jarS (.vshr e f) e (vec3 (fun a b => a >>> (b.toNat % 32)) f)

/-- `vsra` (R257). -/
def execVsra (e : Engine) (f : FmtV) (s : State) : Host.Outcome State Fault Refusal :=
  s.jarS (.vsra e f) e (vec3 (fun a b => a.sshiftRight (b.toNat % 32)) f)

/-- `vfadd` (R257). -/
def execVfadd (e : Engine) (f : FmtV) (s : State) : Host.Outcome State Fault Refusal :=
  s.jarS (.vfadd e f) e (vec3 f32Add f)

/-- `vfmul` (R257). -/
def execVfmul (e : Engine) (f : FmtV) (s : State) : Host.Outcome State Fault Refusal :=
  s.jarS (.vfmul e f) e (vec3 f32Mul f)

/-- `vcmp.eq` (R257). -/
def execVcmpEq (e : Engine) (f : FmtV) (s : State) : Host.Outcome State Fault Refusal :=
  s.jarS (.vcmpEq e f) e (vecCmp (fun a b => a == b) f)

/-- `vcmp.lt` (R257). -/
def execVcmpLt (e : Engine) (f : FmtV) (s : State) : Host.Outcome State Fault Refusal :=
  s.jarS (.vcmpLt e f) e (vecCmp (fun a b => a.slt b) f)

/-- `vcmp.ltu` (R257). -/
def execVcmpLtu (e : Engine) (f : FmtV) (s : State) : Host.Outcome State Fault Refusal :=
  s.jarS (.vcmpLtu e f) e (vecCmp (fun a b => a.ult b) f)

/-- `vcmp.ge` (R257). -/
def execVcmpGe (e : Engine) (f : FmtV) (s : State) : Host.Outcome State Fault Refusal :=
  s.jarS (.vcmpGe e f) e (vecCmp (fun a b => !a.slt b) f)

/-- `vcmp.geu` (R257). -/
def execVcmpGeu (e : Engine) (f : FmtV) (s : State) : Host.Outcome State Fault Refusal :=
  s.jarS (.vcmpGeu e f) e (vecCmp (fun a b => !a.ult b) f)

/-- `vld` (R257). -/
def execVld (e : Engine) (f : FmtW) (s : State) : Host.Outcome State Fault Refusal :=
  s.jarS (.vld e f) e (vldS f)

/-- `vst` (R257). -/
def execVst (e : Engine) (f : FmtW) (s : State) : Host.Outcome State Fault Refusal :=
  s.jarS (.vst e f) e (vstS f)

/-- `vred.sum` (R257). -/
def execVredSum (e : Engine) (f : FmtX) (s : State) : Host.Outcome State Fault Refusal :=
  s.jarS (.vredSum e f) e (vecRed redSum f)

/-- `vred.min` (R257). -/
def execVredMin (e : Engine) (f : FmtX) (s : State) : Host.Outcome State Fault Refusal :=
  s.jarS (.vredMin e f) e (vecRed redMin f)

/-- `vred.max` (R257). -/
def execVredMax (e : Engine) (f : FmtX) (s : State) : Host.Outcome State Fault Refusal :=
  s.jarS (.vredMax e f) e (vecRed redMax f)

/-- `vred.minu` (R257). -/
def execVredMinu (e : Engine) (f : FmtX) (s : State) : Host.Outcome State Fault Refusal :=
  s.jarS (.vredMinu e f) e (vecRed redMinu f)

/-- `vred.maxu` (R257). -/
def execVredMaxu (e : Engine) (f : FmtX) (s : State) : Host.Outcome State Fault Refusal :=
  s.jarS (.vredMaxu e f) e (vecRed redMaxu f)

/-- `vred.cnt` (R257). -/
def execVredCnt (e : Engine) (f : FmtX) (s : State) : Host.Outcome State Fault Refusal :=
  s.jarS (.vredCnt e f) e (vecRed redCnt f)

/-- `vkey.f32` (R252). -/
def execVkeyF32 (e : Engine) (f : FmtV) (s : State) : Host.Outcome State Fault Refusal :=
  s.jarS (.vkeyF32 e f) e (vecKey keyF32 f)

/-- `vkey.f16` (R252). -/
def execVkeyF16 (e : Engine) (f : FmtV) (s : State) : Host.Outcome State Fault Refusal :=
  s.jarS (.vkeyF16 e f) e (vecKey keyF16 f)

/-- `vkey.bf16` (R252). -/
def execVkeyBf16 (e : Engine) (f : FmtV) (s : State) : Host.Outcome State Fault Refusal :=
  s.jarS (.vkeyBf16 e f) e (vecKey keyBf16 f)

/-- `vkey.s32` (R252). -/
def execVkeyS32 (e : Engine) (f : FmtV) (s : State) : Host.Outcome State Fault Refusal :=
  s.jarS (.vkeyS32 e f) e (vecKey keyS32 f)

/-- `vkey.u32` (R252). -/
def execVkeyU32 (e : Engine) (f : FmtV) (s : State) : Host.Outcome State Fault Refusal :=
  s.jarS (.vkeyU32 e f) e (vecKey keyU32 f)

/-- `vsplat` (R257). -/
def execVsplat (e : Engine) (f : FmtX) (s : State) : Host.Outcome State Fault Refusal :=
  s.jarS (.vsplat e f) e (vsplatS f)

/-- `vins` (R257). -/
def execVins (e : Engine) (f : FmtX) (s : State) : Host.Outcome State Fault Refusal :=
  s.jarS (.vins e f) e (vinsS f)

/-- `vext` (R257). -/
def execVext (e : Engine) (f : FmtX) (s : State) : Host.Outcome State Fault Refusal :=
  s.jarS (.vext e f) e (vextS f)

/-- `vmov` (R257). -/
def execVmov (e : Engine) (f : FmtX) (s : State) : Host.Outcome State Fault Refusal :=
  s.jarS (.vmov e f) e (vmovS f)

/-- `stat.med` (R258). -/
def execStatMed (e : Engine) (f : FmtX) (s : State) : Host.Outcome State Fault Refusal :=
  s.jarS (.statMed e f) e (statMedS f)

/-- `stat.mad` (R258). -/
def execStatMad (e : Engine) (f : FmtX) (s : State) : Host.Outcome State Fault Refusal :=
  s.jarS (.statMad e f) e (statMadS f)

/-- `stat.qs.add` (R298). -/
def execStatQsAdd (e : Engine) (f : FmtX) (s : State) : Host.Outcome State Fault Refusal :=
  s.jarS (.statQsAdd e f) e (qsAddS f)

/-- `stat.qs.q` (R299). -/
def execStatQsQ (e : Engine) (f : FmtX) (s : State) : Host.Outcome State Fault Refusal :=
  s.jarS (.statQsQ e f) e (qsQS f)

/-- `stat.ewma` (R258). -/
def execStatEwma (e : Engine) (f : FmtX) (s : State) : Host.Outcome State Fault Refusal :=
  s.jarS (.statEwma e f) e (ewmaS f)

/-- `dg.ld` (R262). -/
def execDgLd (e : Engine) (f : FmtX) (s : State) : Host.Outcome State Fault Refusal :=
  s.jarS (.dgLd e f) e (dgLdS f)

/-- `dg.diff` (R262). -/
def execDgDiff (e : Engine) (f : FmtX) (s : State) : Host.Outcome State Fault Refusal :=
  s.jarS (.dgDiff e f) e (dgDiffS f)

/-- `dg.tol` (R262, R263). -/
def execDgTol (e : Engine) (f : FmtX) (s : State) : Host.Outcome State Fault Refusal :=
  s.jarS (.dgTol e f) e (dgTolS f)

/-- `rdx.add` (R256). -/
def execRdxAdd (e : Engine) (f : FmtX) (s : State) : Host.Outcome State Fault Refusal :=
  s.jarS (.rdxAdd e f) e (rdxS rdxAddLane f)

/-- `rdx.min` (R256). -/
def execRdxMin (e : Engine) (f : FmtX) (s : State) : Host.Outcome State Fault Refusal :=
  s.jarS (.rdxMin e f) e (rdxS rdxMinLane f)

/-- `rdx.max` (R256). -/
def execRdxMax (e : Engine) (f : FmtX) (s : State) : Host.Outcome State Fault Refusal :=
  s.jarS (.rdxMax e f) e (rdxS rdxMaxLane f)

/-- `rdx.close` (R256). -/
def execRdxClose (e : Engine) (f : FmtX) (s : State) : Host.Outcome State Fault Refusal :=
  s.jarS (.rdxClose e f) e (rdxCloseS f)

end Sys2Proof.Machine
end

