-- ==== Sys2Proof/Machine/Reed.lean ====
section
/-!
DEFINITION. Sys2Proof/Machine/Reed.lean: the Reed chain: links, routing, the chain master and its election, REPORT,
STATE, INK and ALARM (R112, R131 to R142, R145, R146, R154 to R157, R163, R321, R336).
-/

namespace Sys2Proof.Machine

/-- The interval clock moved forward to `c`, and aligned time with it while the time base runs. -/
def Leaf.advanceClk (c : Nat) (l : Leaf) : Leaf :=
  if c ≤ l.time.clk then l
  else if l.timeRuns then l.advanceTo (l.time.ns + (c - l.time.clk))
  else { l with time := { l.time with clk := c } }

/-- A message consumed with a failing CRC: discarded and counted (R133). -/
def Leaf.crcError (p : Bool) (l : Leaf) : Leaf := l.addSat (GlR.CH_ERR_CRC.at (portOff p)) 1

/-- ROLE set; a change counts in source 306. -/
def Leaf.setRole (r : Nat) (l : Leaf) : Leaf :=
  if l.fld GlR.CH_STAT_ROLE = r then l else ((l.setFld GlR.CH_STAT_ROLE r).event 306).pickSource

/-- Whether a port is UP. -/
def Leaf.isUp (l : Leaf) (p : Bool) : Bool := decide ((l.port p).st = .up)

/-- A message that members pass on unchanged goes out of the opposite port when it is UP. -/
def Leaf.passOn (p : Bool) (m : ReedMsg) (crcOk : Bool) (l : Leaf) : Leaf :=
  if l.isUp (!p) then l.sendOn (!p) m (!crcOk) else l

/-! ## Eligibility and election (R138, R139) -/

/-- Whether the leaf is eligible to be master (R138, R140, R351). -/
def Leaf.eligible (l : Leaf) : Bool :=
  l.pins.hostIsoN && l.flag GlR.IDENT_STATUS_READY && l.fleet != 0 && l.flag GlR.CH_CTL_MPRI &&
  (l.isUp false || l.isUp true) && !l.flag GlR.PT_OOS_MARK && l.chain.abdWrite.isNone && !l.chain.abdStall

/-- Whether candidate `a` (MPRI, position) is better than `b`. -/
def better (a b : BitVec 4 × BitVec 6) : Bool :=
  decide (b.1.toNat < a.1.toNat ∨ a.1 = b.1 ∧ a.2.toNat < b.2.toNat)

/-- ELECT as this leaf would send it; MPRI 0, never master, when it knows no candidate. -/
def Leaf.mkElect (l : Leaf) : ReedMsg :=
  let c := l.chain.cand.getD (0, l.pins.pkgpos)
  .elect { pos := c.2, mpri := c.1, epoch := l.chain.elEpoch, cfg := l.chain.elCfg, minor := l.chain.elMinor }

/-- The leaf names itself as candidate. -/
def Leaf.nameSelf (l : Leaf) : Leaf :=
  { l with chain := { l.chain with cand := some (BitVec.ofNat 4 (l.fld GlR.CH_CTL_MPRI), l.pins.pkgpos)
                                   selfNamed := true, candAt := l.time.clk } }

/-- What only a master holds is dropped. -/
def Leaf.dropMaster (l : Leaf) : Leaf :=
  { l with chain := { l.chain with waveOut := none, cut := none, repeats := [], members := [], subOf := none, sub := none, subCount := []
                                   registered := false } }

/-- An election starts at this leaf (R139). -/
def Leaf.startElection (l : Leaf) : Leaf :=
  let l := (l.dropMaster.setRole roleElecting).setFld GlR.CH_STAT_RING 0
  let l := { l with chain := { l.chain with
    cand := none, selfNamed := false, elEpoch := l.epoch, elCfg := l.chain.cfg
    elMinor := BitVec.ofNat 4 (l.fld GlR.IDENT_VERSION_MINOR)
    portA := { l.chain.portA with hops := none }, portB := { l.chain.portB with hops := none } } }
  let l := onlyIf l.eligible Leaf.nameSelf l
  l.showHops.sendUp l.mkElect

/-- Number of members, the master and a sub-master's part included (R141). -/
def Leaf.memberCount (l : Leaf) : Nat := min 64 (l.chain.members.length + 1 + l.chain.subCount.length)

/-- STATE as the master sends it (Table 6.2). -/
def Leaf.mkState (l : Leaf) : ReedMsg :=
  .state { mpos := l.pins.pkgpos, mfleet := l.fleet, epoch := l.epoch, cfg := l.chain.cfg
           effMin := BitVec.ofNat 4 (l.fld GlR.CH_STAT_EFF_MINOR), nextMin := BitVec.ofNat 4 (l.fld GlR.CH_STAT_NEXT_MINOR)
           stop := l.flag GlR.CH_STAT_STOPPED, ring := l.flag GlR.CH_STAT_RING, sub := l.flag GlR.CH_STAT_SUB
           lastCut := l.chain.lastCut, waveF := l.chain.waveF, members := BitVec.ofNat 7 l.memberCount }

/-- A registration of the leaf (R22, R336), with LEAF_OOS after it when it is out of service (R351). -/
def Leaf.register (l : Leaf) : Leaf :=
  let flags := b2n (!l.timed) + 2 * b2n l.chain.lateNow + 4 * b2n l.chain.catchNow +
    8 * l.fld GlR.CH_STAT_STOPPED + 16 * b2n l.idle
  let l := l.pushOwn 1 7 (regBody (l.fld GlR.CH_STAT_EFF_MINOR) (l.fld GlR.IDENT_STATUS_RESET_CAUSE) 1
    [regEntry l.fleet.toNat l.epoch.toNat flags (l.fld GlR.TM_STAT_STATE) l.pins.pkgpos.toNat l.quill.actCfg.toNat
      l.jobTag l.version])
  onlyIf (l.flag GlR.PT_OOS_MARK) (Leaf.alarm 5 none) l

/-- The leaf becomes master (R139): the latest epochs that any ELECT carried, STATE, and its registration. -/
def Leaf.becomeMaster (l : Leaf) : Leaf :=
  let l := l.dropMaster.setRole roleMaster
  let l := (l.setFld GlR.CH_STAT_MPOS l.pins.pkgpos.toNat).setReg 0x2008 l.fleet
  let l := l.setReg 0x200C l.chain.elEpoch
  let l := (l.setFld GlR.CH_STAT_NEXT_MINOR l.chain.elMinor.toNat).setFld GlR.CH_STAT_AHEAD 0
  let l := (l.setFld GlR.CH_STAT_MEMBERS 1).setFld GlR.CH_STAT_SUB 0
  let l := { l with chain := { l.chain with cfg := l.chain.elCfg, tickSent := l.time.ns - 1
                                            waveF := BitVec.ofNat 7 (l.fld GlR.CH_CTL_WAVE_F) } }
  l.register.sendUp l.mkState

/-- A candidate heard of: better ones replace the leaf's own (R139). -/
def Leaf.hearElect (m : ElectMsg) (l : Leaf) : Leaf :=
  let c := (m.mpri, m.pos)
  let take := m.mpri != 0 && l.chain.cand.elim true (better c)
  { l with chain := { l.chain with
      cand := if take then some c else l.chain.cand
      selfNamed := l.chain.selfNamed && !take
      elEpoch := if laterInk m.epoch l.chain.elEpoch then m.epoch else l.chain.elEpoch
      elCfg := if laterCfg m.cfg l.chain.elCfg then m.cfg else l.chain.elCfg
      elMinor := if m.minor.toNat < l.chain.elMinor.toNat then m.minor else l.chain.elMinor } }

/-- The master gives up its role (R140). -/
def Leaf.abdicate (l : Leaf) : Leaf :=
  if l.isMaster then (l.sendUp (.abdicate l.pins.pkgpos)).startElection else l

/-! ## Links (R131) -/

/-- PORT_UP shows the ports that are UP. -/
def Leaf.showPorts (l : Leaf) : Leaf := l.setFld GlR.CH_STAT_PORT_UP (b2n (l.isUp false) + 2 * b2n (l.isUp true))

/-- A port enters DOWN (R131): the message in transit is lost; a leaf with no UP port is isolated (R141). -/
def Leaf.portDown (p : Bool) (lost : Option ReedMsg) (l : Leaf) : Leaf :=
  if !l.wired p then l
  else
    let r := l.port p
    let was := r.st
    let l := l.setPort p { r with st := .down, sent := false, heard := false, toward := false }
    let l := match lost with
      | some m => l.reedDrop p m
      | none => l
    let l := if was = .down then l else ((l.addSat (GlR.CH_ERR_DOWNS.at (portOff p)) 1).event 307).showPorts
    if l.isUp false || l.isUp true then l else l.dropMaster.setRole roleIsolated

/-- HELLO of this leaf. -/
def Leaf.mkHello (l : Leaf) : ReedMsg :=
  .hello { fleet := l.fleet, version := BitVec.ofNat 8 l.version, pos := l.pins.pkgpos, eligible := l.eligible
           mpri := BitVec.ofNat 4 (l.fld GlR.CH_CTL_MPRI) }

/-- A training attempt of a DOWN port sends HELLO. -/
def Leaf.trainPort (p : Bool) (l : Leaf) : Leaf :=
  if !l.wired p || l.isUp p then l
  else
    let l := l.setPort p { l.port p with st := .train, sent := true }
    { l with out := l.out ++ [.reed p l.mkHello false] }

/-- HELLO has passed both ways with one MAJOR: the port is UP, what waited leaves, an isolated leaf starts the
election. -/
def Leaf.bringUp (p : Bool) (l : Leaf) : Leaf :=
  let l := (l.setPort p { l.port p with st := .up }).showPorts
  let l := l.releasePort p
  if l.fld GlR.CH_STAT_ROLE = roleIsolated ∧ l.flag GlR.IDENT_STATUS_READY then l.startElection
  else if l.fld GlR.CH_STAT_ROLE = roleElecting then l.sendOn p l.mkElect false
  else if l.isMaster then l.sendOn p l.mkState false else l

/-- A HELLO from the neighbour (R131). -/
def Leaf.hearHello (p : Bool) (m : HelloMsg) (l : Leaf) : Leaf :=
  let l := l.setReg (0x2040 + 2 * portOff p) m.fleet
  let l := (l.setFld (GlR.CH_NBR_VERSION.at (2 * portOff p)) m.version.toNat).setFld (GlR.CH_NBR_POS.at (2 * portOff p))
    m.pos.toNat
  let l := l.setPort p { l.port p with nbrMpri := m.mpri, nbrElig := m.eligible }
  if l.isUp p then l
  else
    let l := if (l.port p).sent then l else l.trainPort p
    if bits m.version.toNat 7 4 ≠ l.fld GlR.IDENT_VERSION_MAJOR then
      (l.setPort p { l.port p with st := .down, sent := false, heard := false }).setEvent GlR.CH_STAT_MAJOR_ERR 308
    else (l.setPort p { l.port p with heard := true }).bringUp p

/-! ## Routes and ticks (R112, R135, R149) -/

/-- Median turnaround of a port's last 256 transfers. -/
def ReedPort.z (r : ReedPort) : Nat := (median (r.zs.map (fun (z : Nat) => (z : Int)))).toNat

/-- HOP on each UP port: the turnaround, and whether this leaf's route leaves by it (R149). -/
def Leaf.sendHops (l : Leaf) : Leaf :=
  [false, true].foldl (fun l p =>
    if l.isUp p then l.sendOn p (.hop (BitVec.ofNat 16 (l.port p).z) (l.route == some p)) false else l) l

/-- A change around which the route toward the master may change: then HOP goes at once and what waited leaves. -/
def Leaf.routeAround (f : Leaf → Leaf) (l : Leaf) : Leaf :=
  let l' := (f l).showHops
  if l'.route = l.route then l' else l'.sendHops.releaseRouted

/-- Turnaround of this end's own transfer kept. -/
def Leaf.keepZ (p : Bool) (z : Nat) (l : Leaf) : Leaf :=
  l.setPort p { l.port p with zs := (z :: (l.port p).zs).take 256 }

/-- A TICK at a member (R112, R135): hop count, sample, instant in tick mode, then forwarded with its corrections; with
a failing CRC only forwarded. -/
def Leaf.memberTick (p : Bool) (m : TickMsg) (crcOk : Bool) (hold : Nat) (l : Leaf) : Leaf :=
  let h := l.hopDelay p
  let t16 : Int := 16 * m.time.toNat + m.frac.toNat + h
  let l :=
    if crcOk then
      let l := l.routeAround (fun l => l.setPort p { l.port p with hops := some (m.hops.toNat + 1), tickAt := l.time.clk })
      let l := if l.timeRuns then l else { l with ul := { l.ul with tickCnt := l.ul.tickCnt + 1 } }
      let l := if l.tickMode then l.tickInstant (t16.toNat / 16) else l
      let l := l.reedSample (l.now16 - t16)
      if l.route = some p then l.sendHops else l
    else l.crcError p
  let out := (t16 + hold).toNat
  let m' : TickMsg := { time := BitVec.ofNat 64 (out / 16), frac := BitVec.ofNat 4 (out % 16), hops := m.hops + 1 }
  if l.isUp (!p) then l.sendOn (!p) (.tick m') (!crcOk) else l

/-- A TICK at the master: its own, come round, closes the ring. -/
def Leaf.masterTick (m : TickMsg) (l : Leaf) : Leaf :=
  if m.time.toNat / 50000 * 50000 = l.chain.tickSent / 50000 * 50000 then l.setFld GlR.CH_STAT_RING 1 else l

/-- Members whose messages have not reached the master for 4 tick intervals (R145). -/
def Leaf.unreachable (l : Leaf) : List Member :=
  (l.chain.members.map Prod.snd).filter (fun m => decide (m.heard + 200000 < l.time.clk))

/-- An INK relay as a Control message to one leaf (Table 14.3). -/
def Leaf.inkByFabric (m : InkMsg) (l : Leaf) (rcpt : Word) : Leaf :=
  l.pushMsg { fleet := rcpt, cls := 1, ty := 8, ink := l.epoch, mark := false
              body := cfgBody 0 3 0 0 l.fleet.toNat m.epoch.toNat (kindNum m.kind + m.cfg.toNat * 2 ^ 16)
                (leB 8 m.time.toNat) } none

/-- A marker on both ports, and by fabric to the members that the chain does not reach and to a sub-master (R141,
R145). -/
def Leaf.sendInk (m : InkMsg) (l : Leaf) : Leaf :=
  (l.unreachable.map (fun x => x.report.fleet) ++ l.chain.sub.toList).foldl (Leaf.inkByFabric m) (l.sendUp (.ink m))

/-- A marker taken up by the master: sent, repeated with every TICK, and taken by the master itself. -/
def Leaf.issueInk (m : InkMsg) (l : Leaf) : Leaf :=
  let l := { l with chain := { l.chain with
    repeats := l.chain.repeats.filter (fun (r : InkMsg × Nat) => r.1.epoch != m.epoch) ++ [(m, m.time.toNat + 400000)] } }
  (l.sendInk m).takeInk m

/-- The master's tick (R124, R135, R142, R145): TICK, STATE and HOP on each UP port, repeats of open markers, and, on
the fallback timer, its instants. -/
def Leaf.sendTick (l : Leaf) : Leaf :=
  if !l.isMaster then l
  else
    let t := if l.timeRuns then (max l.time.ns (l.chain.tickSent + 1) + 49999) / 50000 * 50000
      else max ((l.time.ns + 49999) / 50000 * 50000) (l.chain.tickSent / 50000 * 50000 + 50000)
    let l := if l.timeRuns then l.advanceTo t else { l with time := { l.time with clk := l.time.clk + 50000 } }
    let l := { l with chain := { l.chain with tickSent := t
                                              repeats := l.chain.repeats.filter (fun (r : InkMsg × Nat) => decide (t ≤ r.2)) } }
    let l := if l.timeRuns then l else l.tickInstant t
    let l := if l.timeRuns then l else { l with ul := { l.ul with tickCnt := l.ul.tickCnt + 1 } }
    let l := (l.sendUp (.tick { time := BitVec.ofNat 64 t, frac := 0, hops := 0 })).sendUp l.mkState
    l.chain.repeats.foldl (fun (l : Leaf) (r : InkMsg × Nat) => l.sendInk r.1) l.sendHops

/-! ## STATE (R139 to R141, R152, R157) -/

/-- Candidate rank of a master whose STATE arrives: its MPRI from HELLO or ELECT where this leaf has heard it, else the
default 1. -/
def Leaf.rankOf (l : Leaf) (pos : BitVec 6) : BitVec 4 × BitVec 6 :=
  let nb : Bool → Bool := fun p => l.isUp p && l.fld (GlR.CH_NBR_POS.at (2 * portOff p)) == pos.toNat
  if nb false then (l.chain.portA.nbrMpri, pos)
  else if nb true then (l.chain.portB.nbrMpri, pos)
  else match l.chain.cand with
    | some c => if c.2 = pos then c else (1, pos)
    | none => (1, pos)

/-- Whether this master yields to another (R141). -/
def Leaf.yieldsTo (l : Leaf) (m : StateMsg) : Bool :=
  match l.chain.subOf with
  | some f => f == m.mfleet
  | none => better (l.rankOf m.mpos) (BitVec.ofNat 4 (l.fld GlR.CH_CTL_MPRI), l.pins.pkgpos)

/-- A STATE taken by a leaf that is not, or no longer, master. -/
def Leaf.takeState (m : StateMsg) (l : Leaf) : Leaf :=
  let l := l.dropMaster.setRole roleMember
  let l := { l with chain := { l.chain with cand := none, selfNamed := false, abdWrite := none, waveF := m.waveF
                                            oldMaster := m.mpos
                                            lastCut := m.lastCut } }
  let l := (l.setFld GlR.CH_STAT_MPOS m.mpos.toNat).setReg 0x2008 m.mfleet
  let l := (l.setFld GlR.CH_STAT_RING (b2n m.ring)).setFld GlR.CH_STAT_SUB (b2n m.sub)
  let l := (l.setFld GlR.CH_STAT_MEMBERS m.members.toNat).setFld GlR.CH_STAT_NEXT_MINOR m.nextMin.toNat
  if laterInk m.epoch l.epoch then ((l.catchUp m).setFld GlR.CH_STAT_EFF_MINOR m.effMin.toNat).setFld GlR.CH_STAT_AHEAD 0
  else
    let l := l.setFld GlR.CH_STAT_EFF_MINOR m.effMin.toNat
    let l := { l with chain := { l.chain with cfg := m.cfg } }
    if laterInk l.epoch m.epoch then
      if l.flag GlR.CH_STAT_AHEAD then l else l.setEvent GlR.CH_STAT_AHEAD 311
    else
      let l := l.setFld GlR.CH_STAT_AHEAD 0
      let l := if m.stop && !l.flag GlR.CH_STAT_STOPPED then { l with chain := { l.chain with lateNow := true } } else l
      l.setFld GlR.CH_STAT_STOPPED (b2n m.stop)

/-- A STATE arrives. -/
def Leaf.hearState (p : Bool) (m : StateMsg) (crcOk : Bool) (l : Leaf) : Leaf :=
  if l.isMaster then
    if m.mfleet = l.fleet ∧ m.mpos = l.pins.pkgpos then l
    else if !crcOk then l.crcError p
    else if l.yieldsTo m then (l.takeState m).passOn p (.state m) true else l
  else
    let l := if crcOk then l.takeState m else l.crcError p
    l.passOn p (.state m) crcOk

/-! ## REPORT (R142, R155, R336) -/

/-- REPORT of this leaf. -/
def Leaf.mkReport (l : Leaf) : ReportMsg :=
  { pos := l.pins.pkgpos, fleet := l.fleet, version := BitVec.ofNat 8 l.version, cfg := l.quill.actCfg, epoch := l.epoch
    servo := BitVec.ofNat 3 (l.fld GlR.TM_STAT_STATE), untimed := !l.timed, late := l.chain.lateNow
    catchup := l.chain.catchNow, stopped := l.flag GlR.CH_STAT_STOPPED, idle := l.idle }

/-- Flag bits of a member report entry (Table 14.12). -/
def reportFlags (m : ReportMsg) : Nat :=
  b2n m.untimed + 2 * b2n m.late + 4 * b2n m.catchup + 8 * b2n m.stopped + 16 * b2n m.idle

/-- An entry of a member report (Table 14.12). -/
def memberEntry (m : Member) : List Byte :=
  regEntry m.report.fleet.toNat m.report.epoch.toNat (reportFlags m.report) m.report.servo.toNat m.report.pos.toNat
    m.report.cfg.toNat (if m.owned then m.tag.toNat else 0) m.report.version.toNat

/-- A member's state relayed to the tray (R336). -/
def Leaf.relayMember (m : Member) (l : Leaf) : Leaf :=
  l.pushOwn 1 7 (regBody (l.fld GlR.CH_STAT_EFF_MINOR) 0 2 [memberEntry m])

/-- NEXT_MINOR is the lowest MINOR among the members (R155). -/
def Leaf.lowestMinor (l : Leaf) : Nat :=
  l.chain.members.foldl (fun n p => min n (bits p.2.report.version.toNat 3 0)) (l.fld GlR.IDENT_VERSION_MINOR)

/-- Whether a member is due for relay: a changed field other than INK_EP, or its interval has passed (R336). -/
def relayDue (old : Member) (m : ReportMsg) (clk : Nat) : Bool :=
  let quick := m.stopped || m.idle || !old.owned
  decide ({ old.report with epoch := m.epoch } ≠ m) || decide (old.sent + (if quick then 1000000 else 10000000) ≤ clk)

/-- A REPORT reaches the master. -/
def Leaf.masterReport (m : ReportMsg) (l : Leaf) : Leaf :=
  let old := tblLookup l.chain.members m.pos.toNat
  let base : Member := old.getD { report := m, tag := 0, owned := false, heard := 0, sent := 0 }
  let due := old.isNone || relayDue base m l.time.clk
  let mem : Member := { base with report := m, heard := l.time.clk, sent := if due then l.time.clk else base.sent }
  let l := { l with chain := { l.chain with members := tblIns l.chain.members m.pos.toNat mem } }
  let was := l.fld GlR.CH_STAT_NEXT_MINOR
  let l := (l.setFld GlR.CH_STAT_NEXT_MINOR l.lowestMinor).setFld GlR.CH_STAT_MEMBERS l.memberCount
  let l := if old.isNone || l.fld GlR.CH_STAT_NEXT_MINOR != was then l.sendUp l.mkState else l
  let l := if due then l.relayMember mem else l
  l.cutReport m.pos m.epoch (m.late || m.catchup)

/-! ## ALARM (R136, R163) -/

/-- A 32-bit time extended to 64 bits near `now` (R126). -/
def extendTime (now : Nat) (t : Word) : Nat :=
  ((now : Int) + sgn 32 (unsgn 32 ((t.toNat : Int) - now))).toNat

/-- The latest epoch whose low 8 bits are those given, among the pending ones and those up to the one in force. -/
def Leaf.epochOf (l : Leaf) (b : Byte) : Word :=
  match (l.time.inks.filter (fun m => m.epoch.setWidth 8 == b)).getLast? with
  | some m => m.epoch
  | none => l.epoch - BitVec.ofNat 32 ((l.epoch.setWidth 8 - b).toNat)

/-- Whether the master has seen an alarm within 10 ms; keys older than that are forgotten. -/
def Leaf.alarmSeen (l : Leaf) (fleet : Word) (q : BitVec 16) : Bool :=
  l.chain.dedupe.any (fun k => k.1 == fleet && k.2.1 == q && decide (l.time.clk < k.2.2 + 10000000))

/-- The key of an alarm copy that the master has forwarded. -/
def Leaf.noteAlarm (fleet : Word) (q : BitVec 16) (l : Leaf) : Leaf :=
  { l with chain := { l.chain with
      dedupe := (fleet, q, l.time.clk) :: l.chain.dedupe.filter (fun k => decide (l.time.clk < k.2.2 + 10000000)) } }

/-- An ALARM reaches the master (R163). -/
def Leaf.masterAlarm (p : Bool) (m : AlarmMsg) (l : Leaf) : Leaf :=
  match tblLookup l.chain.members m.pos.toNat with
  | none => l.reedDrop p (.alarm m)
  | some x =>
    if l.alarmSeen x.report.fleet m.aseq then l
    else
      (l.noteAlarm x.report.fleet m.aseq).pushMsg
        { fleet := x.report.fleet, cls := 0, ty := 2, ink := l.epochOf m.epoch, mark := false
          body := alarmBody m.code.toNat m.aseq.toNat (extendTime l.time.ns m.time) m.pos.toNat true
            (x.report.servo != 2) } none

/-! ## GO (R154, R321) -/

/-- A lease request to the tray (Table 14.3, R319), repeated until it is acknowledged (R324). -/
def Leaf.askLease (l : Leaf) : Leaf :=
  let q := l.ctl.cseq
  let m : Message := { fleet := l.fleet, cls := 1, ty := 8, ink := l.epoch, mark := false
                       body := cfgBody 0 4 q.toNat 0 l.fleet.toNat 0 0 [] }
  Leaf.pushMsg m none { l with ctl := { l.ctl with cseq := q + 1, asked := l.ctl.asked ++ [(q, m)] } }

/-- The first odd multiple of 25 µs not before `t` (R321). -/
def oddSlot (t : Nat) : Nat := if t ≤ 25000 then 25000 else 25000 + (t - 25000 + 49999) / 50000 * 50000

/-- GO (R154). -/
def Leaf.inkGo (l : Leaf) : Leaf :=
  let k := l.fld GlR.CH_INK_CTL_KIND
  let t := (l.reg 0x2018).toNat + (l.reg 0x201C).toNat * 2 ^ 32
  let left := l.fld GlR.CH_INK_CTL_LEASE_LEFT
  if !l.isMaster || left = 0 || bit k 2 || decide (t < l.time.ns + 20000) then l.refuseInk
  else
    let e := l.reg 0x2020
    let m : InkMsg := { epoch := e, time := BitVec.ofNat 64 (oddSlot t), kind := kindOf k, cfg := 0 }
    let l := (l.setReg 0x2020 (e + 1)).setFld GlR.CH_INK_CTL_LEASE_LEFT (left - 1)
    let l := if left - 1 < 4 ∧ l.ctl.asked.isEmpty then l.askLease else l
    l.issueInk m

/-- A write of `GL_CH_INK_CTL` (Table 6.9). -/
def Leaf.inkCtlWrite (data : Nat) (l : Leaf) : Leaf :=
  let l := l.setFld GlR.CH_INK_CTL_KIND (bits data 30 28)
  if bit data 31 then l.inkGo else l

/-- A write of `GL_CH_CTL` (Table 6.5): MPRI, WAVE_F up to 64, ABDICATE at a master (R140). -/
def Leaf.chCtlWrite (data : Nat) (l : Leaf) : Leaf :=
  let l := l.setFld GlR.CH_CTL_MPRI (bits data 31 28)
  let f := bits data 26 20
  let l := if 64 < f then l
    else
      let l := l.setFld GlR.CH_CTL_WAVE_F f
      if l.isMaster then { l with chain := { l.chain with waveF := BitVec.ofNat 7 f } } else l
  if bit data 27 && l.isMaster then Leaf.abdicate { l with chain := { l.chain with abdWrite := some l.time.clk } } else l

/-! ## Commands -/

/-- REED_STALL (R131): a phase does not complete within 1 µs; the operand is the message in transit, if one was. -/
def execReedStall (port : Bool) (lost : Option ReedMsg) (s : State) : Host.Outcome State Fault Refusal :=
  .next (s.onLeaf (Leaf.portDown port lost))

/-- REED_RAIL_ERROR (R131): a rail pair shows 0b11. -/
def execReedRailError (port : Bool) (lost : Option ReedMsg) (s : State) : Host.Outcome State Fault Refusal :=
  .next (s.onLeaf (Leaf.portDown port lost))

/-- REED_TRAIN_RETRY (R131). -/
def execReedTrainRetry (port : Bool) (s : State) : Host.Outcome State Fault Refusal :=
  .next (s.onLeaf (Leaf.trainPort port))

/-- REED_HELLO (R131, R133). -/
def execReedHello (port : Bool) (m : HelloMsg) (crcOk : Bool) (s : State) : Host.Outcome State Fault Refusal :=
  .next (s.onLeaf fun l =>
    if !l.wired port then l else if crcOk then l.hearHello port m else l.crcError port)

/-- REED_HOP (R112, R149): Q of this end, the neighbour's Z and TOWARD, this end's own turnaround. -/
def execReedHop (port : Bool) (z : BitVec 16) (toward : Bool) (crcOk : Bool) (q zown : Nat) (s : State) :
    Host.Outcome State Fault Refusal :=
  .next (s.onLeaf fun l =>
    if !l.isUp port then l
    else if !crcOk then (l.keepZ port zown).crcError port
    else
      let l := (l.keepZ port zown).measure port q z.toNat
      l.setPort port { l.port port with toward := toward, nbrZ := z.toNat })

/-- REED_TICK (R112, R124, R135): `hold` is the holding time in 1/16 ns, first symbol in to first symbol out. -/
def execReedTick (port : Bool) (m : TickMsg) (crcOk : Bool) (hold : Nat) (q zown : Nat) (s : State) :
    Host.Outcome State Fault Refusal :=
  .next (s.onLeaf fun l =>
    if !l.isUp port then l
    else
      let l := (l.keepZ port zown).measure port q (l.port port).nbrZ
      if l.isMaster then (if crcOk then l.masterTick m else l.crcError port)
      else l.memberTick port m crcOk hold)

/-- TICK_SEND (R135): at a master. -/
def execTickSend (s : State) : Host.Outcome State Fault Refusal := .next (s.onLeaf Leaf.sendTick)

/-- ROUTE_TIMEOUT (R135): no TICK on a port for 4 tick intervals; at the master the ring is open. -/
def execRouteTimeout (port : Bool) (s : State) : Host.Outcome State Fault Refusal :=
  .next (s.onLeaf fun l =>
    if l.isMaster then l.setFld GlR.CH_STAT_RING 0
    else l.routeAround (fun l => l.setPort port { l.port port with hops := none }))

/-- MASTER_LOSS (R139): no TICK on any port for 200 µs. -/
def execMasterLoss (s : State) : Host.Outcome State Fault Refusal :=
  .next (s.onLeaf fun l => if l.fld GlR.CH_STAT_ROLE = roleMember then l.startElection else l)

/-- REED_ELECT (R139). A member outside an election passes it on, with the latest epochs it knows itself. -/
def execReedElect (port : Bool) (m : ElectMsg) (crcOk : Bool) (s : State) : Host.Outcome State Fault Refusal :=
  .next (s.onLeaf fun l =>
    if !l.isUp port then l
    else if !crcOk then l.crcError port
    else if l.isMaster then l.sendOn port l.mkState false
    else if l.fld GlR.CH_STAT_ROLE = roleElecting then
      let l' := l.hearElect m
      if l'.chain.cand = l.chain.cand ∧ l'.chain.elEpoch = l.chain.elEpoch ∧ l'.chain.elCfg = l.chain.elCfg ∧
        l'.chain.elMinor = l.chain.elMinor then l' else l'.sendUp l'.mkElect
    else l.passOn port (.elect { m with epoch := if laterInk l.epoch m.epoch then l.epoch else m.epoch
                                        cfg := if laterCfg l.chain.cfg m.cfg then l.chain.cfg else m.cfg }) true)

/-- ELECTION_SETTLE (R139): 100 µs after the leaf named itself, with no better candidate heard of. -/
def execElectionSettle (s : State) : Host.Outcome State Fault Refusal :=
  .next (s.onLeaf fun l =>
    if l.fld GlR.CH_STAT_ROLE = roleElecting ∧ l.chain.selfNamed then
      (l.advanceClk (l.chain.candAt + 100000)).becomeMaster
    else l)

/-- REED_STATE (R139, R141, R152, R157). -/
def execReedState (port : Bool) (m : StateMsg) (crcOk : Bool) (s : State) : Host.Outcome State Fault Refusal :=
  .next (s.onLeaf fun l => if l.isUp port then l.hearState port m crcOk else l)

/-- REED_ABDICATE (R139). -/
def execReedAbdicate (port : Bool) (pos : BitVec 6) (crcOk : Bool) (s : State) : Host.Outcome State Fault Refusal :=
  .next (s.onLeaf fun l =>
    if !l.isUp port || l.isMaster || pos == l.pins.pkgpos then l
    else
      let l := l.passOn port (.abdicate pos) crcOk
      if !crcOk then l.crcError port
      else if l.fld GlR.CH_STAT_ROLE = roleMember then l.startElection else l)

/-- ABDICATE_WRITE (R140): a write of `GL_CH_CTL` with ABDICATE set. -/
def execAbdicateWrite (p : Port) (data : Word) (s : State) : Host.Outcome State Fault Refusal :=
  .next (s.onLeaf (Leaf.guarded p 0x2000 true (Leaf.chCtlWrite (data ||| 0x08000000).toNat)))

/-- Whether the uplink holds a cell. -/
def Leaf.holdsCell (l : Leaf) : Bool :=
  l.ul.queues.any (fun q => !q.2.isEmpty) || l.ul.fwd.any (fun q => !q.2.isEmpty)

/-- UPLINK_STALL_ABDICATE (R140): no beat accepted for 50 µs while a cell is held. -/
def execUplinkStallAbdicate (s : State) : Host.Outcome State Fault Refusal :=
  .next (s.onLeaf fun l =>
    if l.isMaster && l.holdsCell then Leaf.abdicate { l with chain := { l.chain with abdStall := true } } else l)

/-- A written abdication is over: the leaf names itself again when no better candidate is known (R140). -/
def Leaf.abdicateOver (l : Leaf) : Leaf :=
  let mine := (BitVec.ofNat 4 (l.fld GlR.CH_CTL_MPRI), l.pins.pkgpos)
  let free := match l.chain.cand with
    | some c => better mine c
    | none => true
  if l.fld GlR.CH_STAT_ROLE == roleElecting && l.eligible && free then l.nameSelf.sendUp l.nameSelf.mkElect else l

/-- ABDICATE_TIMEOUT (R140): 310 µs after a written abdication without another master's STATE. -/
def execAbdicateTimeout (s : State) : Host.Outcome State Fault Refusal :=
  .next (s.onLeaf fun l =>
    match l.chain.abdWrite with
    | none => l
    | some t =>
      Leaf.abdicateOver (Leaf.advanceClk (t + 310000) { l with chain := { l.chain with abdWrite := none } }))

/-- REED_REPORT (R142): a member forwards it, the master consumes it. -/
def execReedReport (port : Bool) (m : ReportMsg) (crcOk : Bool) (s : State) : Host.Outcome State Fault Refusal :=
  .next (s.onLeaf fun l =>
    if !l.isUp port then l
    else if l.isMaster then (if crcOk then l.masterReport m else l.crcError port)
    else l.sendOn (!port) (.report m) (!crcOk))

/-- REPORT_SEND (R142): at a member. -/
def execReportSend (s : State) : Host.Outcome State Fault Refusal :=
  .next (s.onLeaf fun l =>
    if l.fld GlR.CH_STAT_ROLE = roleMember then l.toMaster (.report l.mkReport) else l)

/-- REED_INK (R145, R146). -/
def execReedInk (port : Bool) (m : InkMsg) (crcOk : Bool) (s : State) : Host.Outcome State Fault Refusal :=
  .next (s.onLeaf fun l =>
    if !l.isUp port || l.isMaster then l
    else
      let l := l.passOn port (.ink m) crcOk
      if crcOk then l.takeInk m else l.crcError port)

/-- INK_GO (R154, R321): a write of `GL_CH_INK_CTL` with GO set. -/
def execInkGo (p : Port) (data : Word) (s : State) : Host.Outcome State Fault Refusal :=
  .next (s.onLeaf (Leaf.guarded p 0x2014 true (Leaf.inkCtlWrite (data ||| 0x80000000).toNat)))

/-- REED_ALARM (R135, R136, R163). -/
def execReedAlarm (port : Bool) (m : AlarmMsg) (crcOk : Bool) (s : State) : Host.Outcome State Fault Refusal :=
  .next (s.onLeaf fun l =>
    if !l.isUp port then l
    else if l.isMaster then (if crcOk then l.masterAlarm port m else l.crcError port)
    else l.sendOn (!port) (.alarm m) (!crcOk))

/-- REGISTRATION_TIMER (R22): a second has passed while the fleet ID is zero. -/
def execRegistrationTimer (s : State) : Host.Outcome State Fault Refusal :=
  .next (s.onLeaf fun l => if l.fleet = 0 ∧ l.flag GlR.IDENT_STATUS_READY then l.register else l)

end Sys2Proof.Machine
end

