-- ==== Sys2Proof/Machine/Uplink.lean ====
section
/-!
DEFINITION. Sys2Proof/Machine/Uplink.lean: cells on `ul_tx` and `ul_rx` of a leaf: shapers, the ceiling, the scheduler,
the check of a frame before it leaves, the forwarding store of a chain master, reassembly (R103, R110, R160 to R172).
-/

namespace Sys2Proof.Machine

/-! ## Buckets (R165 to R168) -/

/-- Units of 1/1000 bit in a number of counted bytes. -/
def byteUnits (n : Nat) : Nat := 8000 * n

/-- OVH. -/
def Leaf.ovh (l : Leaf) : Nat := l.fld GlR.UL_CTL_OVH

/-- `GL_UL_SHP[c]`. -/
def Leaf.shp (l : Leaf) (c : Nat) : Nat := (l.reg (0x3010 + 4 * c)).toNat

/-- BURST of a class in counted bytes as it acts (R167). -/
def Leaf.burst (l : Leaf) (c : Nat) : Nat := max (bits (l.shp c) 15 0) (256 + l.ovh)

/-- RATE of a class in Mb/s, which is 1/1000 bit per ns. -/
def Leaf.rate (l : Leaf) (c : Nat) : Nat := bits (l.shp c) 31 16

/-- CAP of the ceiling in counted bytes (R166). -/
def Leaf.ceilCap (l : Leaf) : Nat := 16 * (256 + l.ovh)

/-- ARES (R166). -/
def Leaf.ceilReserve (l : Leaf) : Nat := 64 * (32 + l.ovh)

/-- Every bucket brought up to the interval clock. -/
def Leaf.refill (l : Leaf) : Leaf :=
  let dt := l.time.clk - l.ul.filled
  { l with ul := { l.ul with
      filled := l.time.clk
      ceilShort := l.ul.ceilShort - 80 * l.hard.hostlink.toNat * dt
      short := [1, 2, 3, 4].foldl (fun t c => tput t c (tget l.ul.short c - l.rate c * dt)) [] } }

/-- Content of a class bucket in 1/1000 bit. -/
def Leaf.tokens (l : Leaf) (c : Nat) : Nat := byteUnits (l.burst c) - tget l.ul.short c

/-- Content of the ceiling in 1/1000 bit. -/
def Leaf.ceilTokens (l : Leaf) : Nat := byteUnits l.ceilCap - l.ul.ceilShort

/-- TOKENS of `GL_UL_CEIL` now. -/
def Leaf.ceilShown (l : Leaf) : Nat := l.refill.ceilTokens / 8000

/-! ## Cells of a message (R160) -/

/-- The cell that a queued message starts next. -/
def Queued.cell (q : Queued) : Cell :=
  let body := q.msg.body
  cellSealed { fleet := q.msg.fleet, cls := q.msg.cls, som := q.sent == 0
               eom := decide (body.length ≤ 240 * (q.sent + 1))
               mark := q.msg.mark || (q.fseq.isSome && q.sent == 0), cidx := BitVec.ofNat 8 q.sent, mseq := q.mseq
               ink := q.msg.ink, ty := q.msg.ty, payload := (body.drop (240 * q.sent)).take 240, ccrc := 0, resid := 0 }

/-- Counted bytes of a cell (R165). -/
def Leaf.counted (l : Leaf) (c : Cell) : Nat := cellLen c + l.ovh

/-! ## The frame before its first cell (R102, R103) -/

/-- Code words of a frame that are uncorrectable, by index of 32 bytes. -/
def Leaf.badFrame (l : Leaf) (fseq : BitVec 16) : List Nat :=
  l.ecc.bad.filterMap (fun p => match p.1 with
    | .frame f cw => if f = fseq then some cw.toNat else none
    | _ => none)

/-- Byte `i` of a frame replaced. -/
def setByte (bs : List Byte) (i : Nat) (b : Byte) : List Byte := bs.set i b

/-- The 8 fields of a code word made invalid. -/
def dropFields (n : Nat) (bs : List Byte) (cw : Nat) : List Byte :=
  (List.range 8).foldl (fun bs k =>
    let i := 8 * (cw - 2) + k
    if n ≤ i then bs
    else
      let v := (bs.getD (32 + i / 8) 0).toNat
      let bs := setByte bs (32 + i / 8) (BitVec.ofNat 8 (setBits v (i % 8) (i % 8) 0))
      (List.range 4).foldl (fun bs j => setByte bs (64 + 4 * i + j) 0) bs) bs

/-- A flag bit of the frame's header set. -/
def setFlag (bs : List Byte) (i : Nat) : List Byte :=
  setByte bs (18 + i / 8) (BitVec.ofNat 8 (setBits (bs.getD (18 + i / 8) 0).toNat (i % 8) (i % 8) 1))

/-- The frame at the head is read and checked (R103), and takes GAP when frames were discarded since the previous one
(R102); its storage holds no known fault after that. -/
def Leaf.checkFrame (l : Leaf) : Leaf :=
  match tget l.ul.queues 2 with
  | q :: rest =>
    match q.fseq with
    | none => l
    | some f =>
      if q.sent ≠ 0 then l
      else
        let cws := l.badFrame f
        let rep := fun (l : Leaf) cw => l.uncorr (.frame f (BitVec.ofNat 6 cw)) 0x0103 0
          (leB 4 f.toNat ++ leB 4 (8 * cw) ++ leB 4 (b2n (cw < 2)))
        let forget := fun (l : Leaf) => { l with ecc := { l.ecc with bad := l.ecc.bad.filter (fun p => match p.1 with
          | .frame g _ => g != f
          | _ => true) } }
        if cws.any (· < 2) then forget (cws.foldl rep l).discardFrame
        else
          let n := leAt q.msg.body 20 2
          let body := cws.foldl (dropFields n) q.msg.body
          let body := if cws.isEmpty then body else setFlag body 3
          let body := if l.quill.gapPend then setFlag body 7 else body
          let body := if cws.isEmpty && !l.quill.gapPend then body else frameSealed body
          let l := forget (cws.foldl rep l)
          { l with quill := { l.quill with gapPend := false }
                   ul := { l.ul with queues := tput l.ul.queues 2 ({ q with msg := { q.msg with body := body } } :: rest) } }
  | [] => l

/-! ## The scheduler (R169, R170) -/

/-- Weight of a weighted class. -/
def Leaf.weight (l : Leaf) (c : Nat) : Nat :=
  max 1 (if c = 2 then l.fld GlR.UL_WEIGHT_W_FRAME else if c = 3 then l.fld GlR.UL_WEIGHT_W_TRACE
    else l.fld GlR.UL_WEIGHT_W_BULK)

/-- The head cell of a class's own queue. -/
def Leaf.head (l : Leaf) (c : Nat) : Option Cell := (tget l.ul.queues c).head?.map Queued.cell

/-- Whether a class's bucket holds its head cell. -/
def Leaf.bucketOk (l : Leaf) (c : Nat) (x : Cell) : Bool := decide (c = 0 ∨ byteUnits (l.counted x) ≤ l.tokens c)

/-- Whether the ceiling allows a cell of a class (R166). -/
def Leaf.ceilOk (l : Leaf) (c : Nat) (x : Cell) : Bool :=
  decide (byteUnits (l.counted x + (if c = 0 then 0 else l.ceilReserve)) ≤ l.ceilTokens)

/-- The head of a weighted queue takes its start tag: the virtual time when the queue woke; one held by its own bucket
wakes again when it becomes ready. -/
def Leaf.tagHead (l : Leaf) (c : Nat) : Leaf :=
  match l.head c with
  | none => { l with ul := { l.ul with start := tput l.ul.start c none } }
  | some x =>
    if !l.bucketOk c x then { l with ul := { l.ul with start := tput l.ul.start c none } }
    else if (tget l.ul.start c).isSome then l
    else
      { l with ul := { l.ul with start := tput l.ul.start c (some l.ul.vtime)
                                 fin := tput l.ul.fin c (l.ul.vtime + (l.counted x : Rat) / (l.weight c : Rat)) } }

/-- What may start next: a class, whether a forwarded cell, and the order among those of the class. -/
structure Choice where
  cls : Nat
  fwd : Bool
  key : Rat
deriving DecidableEq, Repr

/-- The smaller of two choices by key, the first on a tie. -/
def minChoice (a : Option Choice) (b : Choice) : Option Choice :=
  match a with
  | none => some b
  | some a => if b.key < a.key then some b else some a

/-- Own and forwarded candidates of a class that may start. -/
def Leaf.choicesOf (l : Leaf) (c : Nat) : List Choice :=
  let own := match (tget l.ul.queues c).head? with
    | some q =>
      let x := q.cell
      if l.bucketOk c x && l.ceilOk c x then
        [{ cls := c, fwd := false, key := if c < 2 then (q.came : Rat) else (tget l.ul.start c).getD 0 }] else []
    | none => []
  let fw := match (tget l.ul.fwd c).head? with
    | some f => [{ cls := c, fwd := true, key := if c < 2 then (f.came : Rat) else f.tag }]
    | none => []
  own ++ fw

/-- The cell to start (R169). -/
def Leaf.choose (l : Leaf) : Option Choice :=
  let pick : List Choice → Option Choice := fun cs => cs.foldl minChoice none
  match pick (l.choicesOf 0) with
  | some c => some c
  | none =>
    match pick (l.choicesOf 1) with
    | some c => some c
    | none => pick (l.choicesOf 2 ++ l.choicesOf 3 ++ l.choicesOf 4)

/-- Where a cell goes on `ul_tx_dst` (Table 2.7): a member's cells to its chain master, a master's to the package MAC,
downstream cells to the member's position; a sub-master's to the registered master (R141). -/
def Leaf.dstOf (l : Leaf) (fleet : Word) : BitVec 7 :=
  match (l.chain.members.map Prod.snd).find? (fun m => m.report.fleet == fleet) with
  | some m => if l.isMaster && fleet != l.fleet then m.report.pos.setWidth 7 else 64
  | none =>
    if l.isMaster then (if l.chain.subOf.isSome then l.chain.oldMaster.setWidth 7 else 64)
    else BitVec.ofNat 7 (l.fld GlR.CH_STAT_MPOS)

/-- The virtual clock and every finish tag restart when no weighted cell is queued (R170). -/
def Leaf.idleTags (l : Leaf) : Leaf :=
  if [2, 3, 4].all (fun c => (tget l.ul.queues c).isEmpty && (tget l.ul.fwd c).isEmpty) then
    { l with ul := { l.ul with vtime := 0, fin := [], start := [], fwdFin := [] } }
  else l

/-- A cell starts on `ul_tx`: counted, and an abdication for a stalled uplink ends (R140). -/
def Leaf.emit (dst : BitVec 7) (x : Cell) (l : Leaf) : Leaf :=
  let l := l.addMod (GlR.UL_TXCNT_CELLS.at (4 * x.cls.toNat)) 1
  { l with out := l.out ++ [.cell dst x], chain := { l.chain with abdStall := false } }

/-- A cell one of whose bytes fails its parity leaves with its check code inverted, counted and recorded (R390; which word
the record names is open, assumption log 34). -/
def Leaf.emitPar (par : Bool) (dst : BitVec 7) (x : Cell) (l : Leaf) : Leaf :=
  if par then (l.emit dst { x with ccrc := ~~~x.ccrc }).parity (Config.cellWord (l.fld GlR.EC_STAT_PAR)) Config.cellArray 0
  else l.emit dst x

/-- t3 of a marked frame cell is kept, for the last 64 of them (R109). -/
def Leaf.stampMark (q : Queued) (x : Cell) (l : Leaf) : Leaf :=
  match q.fseq with
  | some f => if x.mark && l.timeRuns then
      { l with time := { l.time with t3 := ((f, l.now16.toNat) :: l.time.t3).take 64 } } else l
  | none => l

/-- A message that the master sends downstream names another leaf: it bypasses the buckets of what the leaf originates
upward no less than a forwarded cell; own cells are charged (R166, R167). -/
def Leaf.startOwn (par : Bool) (c : Nat) (l : Leaf) : Leaf :=
  match tget l.ul.queues c with
  | [] => l
  | q :: rest =>
    let x := q.cell
    let n := byteUnits (l.counted x)
    let q' := if x.eom then rest else { q with sent := q.sent + 1 } :: rest
    let l := { l with ul := { l.ul with
      queues := tput l.ul.queues c q'
      ceilShort := l.ul.ceilShort + n
      short := if c = 0 then l.ul.short else tput l.ul.short c (tget l.ul.short c + n) } }
    let l := if c < 2 then l
      else
        let s := (tget l.ul.start c).getD 0
        let f := tget l.ul.fin c
        let l := { l with ul := { l.ul with vtime := s, start := tput l.ul.start c none } }
        match l.head c with
        | none => l
        | some y => { l with ul := { l.ul with start := tput l.ul.start c (some f)
                                               fin := tput l.ul.fin c (f + (l.counted y : Rat) / (l.weight c : Rat)) } }
    let own := x.fleet == l.fleet || !(x.ty == 8 && l.isMaster)
    (l.stampMark q x).emitPar par (if own then l.dstOf l.fleet else l.dstOf x.fleet) x

/-- A forwarded cell starts: its holding time joins a marked cell's residence (R110). -/
def Leaf.startForwarded (par : Bool) (c : Nat) (l : Leaf) : Leaf :=
  match tget l.ul.fwd c with
  | [] => l
  | f :: rest =>
    let l := { l with ul := { l.ul with fwd := tput l.ul.fwd c rest
                                        vtime := if c < 2 then l.ul.vtime else f.tag } }
    let l := if c = 0 then { l with pins := { l.pins with ulRxReady := true } } else l
    let x := if f.cell.mark then { f.cell with resid := f.cell.resid + BitVec.ofNat 32 (l.time.clk - f.clk) } else f.cell
    (l.addMod GlR.UL_FWD_FWD 1).emitPar par (l.dstOf l.fleet) x

/-- The next cell starts, if one is eligible (R169); an eligible head that the ceiling holds sets CEIL_WAIT. `par`: a byte
of the cell fails its parity (R390). -/
def Leaf.startCell (par : Bool) (l : Leaf) : Leaf :=
  let l := iter Leaf.checkFrame ((tget l.ul.queues 2).length + 1) l.refill
  let l := [2, 3, 4].foldl Leaf.tagHead l
  match l.choose with
  | some c => (if c.fwd then l.startForwarded par c.cls else l.startOwn par c.cls).idleTags
  | none =>
    let waits := [1, 2, 3, 4].any (fun c => match l.head c with
      | some x => l.bucketOk c x && !l.ceilOk c x
      | none => false)
    if waits then l.setEvent GlR.UL_STAT_CEIL_WAIT 312 else l

/-! ## The forwarding store (R172) -/

/-- Slots of a class. -/
def fwdSlots (c : Nat) : Nat := ([16, 16, 48, 24, 24] : List Nat).getD c 0

/-- A forwarded cell dropped: the rest of its message goes with it. -/
def Leaf.fwdDropped (x : Cell) (l : Leaf) : Leaf :=
  { (l.addMod GlR.UL_FWD_DROP 1).setEvent GlR.UL_STAT_FDROP 313 with
    ul := { ((l.addMod GlR.UL_FWD_DROP 1).setEvent GlR.UL_STAT_FDROP 313).ul with
      fwdDrop := if x.eom then l.ul.fwdDrop else (x.fleet, x.cls) :: l.ul.fwdDrop } }

/-- Whether a cell belongs to a message of which a cell was dropped. -/
def Leaf.fwdBroken (l : Leaf) (x : Cell) : Bool := !x.som && l.ul.fwdDrop.any (fun d => d == (x.fleet, x.cls))

/-- A sub-master is known by what only a master sends: CUT and member reports (R141). -/
def Leaf.noteSub (x : Cell) (l : Leaf) : Leaf :=
  if x.som && (x.ty == 6 || (x.ty == 7 && x.payload.getD 0 0 == 2)) && x.fleet != l.fleet then
    let n := if x.ty == 7 then bits (x.payload.getD 1 0).toNat 3 0 else 0
    let fs := (List.range n).map (fun i => leAt x.payload (4 + 16 * i) 4)
    let l := { l with chain := { l.chain with
      sub := some x.fleet, subCount := (x.fleet.toNat :: fs).foldl (fun t f => tput t f 1) l.chain.subCount } }
    (l.setFld GlR.CH_STAT_SUB 1).setFld GlR.CH_STAT_MEMBERS l.memberCount
  else l

/-- A cell for the tray enters the store. -/
def Leaf.storeForwarded (x : Cell) (l : Leaf) : Leaf :=
  let c := x.cls.toNat
  let wake := (tget l.ul.fwd c).isEmpty
  let s := if wake then l.ul.vtime else tget l.ul.fwdFin c
  let l := l.noteSub x
  let l := { l with ul := { l.ul with
    arrivals := l.ul.arrivals + 1
    fwdDrop := if x.som then l.ul.fwdDrop.filter (fun d => d != (x.fleet, x.cls)) else l.ul.fwdDrop
    fwdFin := if c < 2 then l.ul.fwdFin else tput l.ul.fwdFin c (s + (l.counted x : Rat) / (l.weight c : Rat))
    fwd := tput l.ul.fwd c (tget l.ul.fwd c ++ [{ cell := x, tag := s, came := l.ul.arrivals, clk := l.time.clk }]) } }
  if c = 0 ∧ 16 ≤ (tget l.ul.fwd 0).length then
    { l with pins := { l.pins with ulRxReady := false } }.setEvent GlR.UL_STAT_RXHOLD 315
  else l

/-- A cell for the tray at a chain master: checked (R161), a second copy of an alarm discarded (R136), stored or
dropped. -/
def Leaf.forward (x : Cell) (l : Leaf) : Leaf :=
  let c := x.cls.toNat
  if !l.isMaster || !l.pins.ulRxReady || 5 ≤ c then l
  else if !cellGood x then
    { l with ul := { l.ul with rxBad := l.ul.rxBad + 1, fwdDrop := (x.fleet, x.cls) :: l.ul.fwdDrop } }
  else if l.fwdBroken x then l
  else if c = 0 then
    if x.ty = 2 then
      let q := BitVec.ofNat 16 (leAt x.payload 2 2)
      if l.alarmSeen x.fleet q then l else (l.noteAlarm x.fleet q).storeForwarded x
    else l.storeForwarded x
  else if fwdSlots c ≤ (tget l.ul.fwd c).length then l.fwdDropped x
  else l.storeForwarded x

/-! ## Cells for this leaf -/

/-- The message that an unbroken run of cells spells. -/
def joinCells (cs : List Cell) : Option Message :=
  match cs with
  | [] => none
  | x :: _ => some { fleet := x.fleet, cls := x.cls, ty := x.ty, ink := x.ink, mark := x.mark
                     body := (cs.map (·.payload)).flatten }

/-- A good cell joins its class's run, or breaks it (R161); a message is complete at EOM. -/
def Leaf.assemble (x : Cell) (l : Leaf) : Leaf :=
  let c := x.cls.toNat
  let run := tget l.ul.asm c
  let fits := match run.getLast? with
    | some y => y.mseq == x.mseq && x.cidx.toNat == y.cidx.toNat + 1
    | none => false
  let put : List Cell → Leaf := fun r => { l with ul := { l.ul with asm := tput l.ul.asm c r } }
  if x.som || fits then
    let r := if x.som then [x] else run ++ [x]
    if x.eom then { put [] with ready := l.ready ++ (joinCells r).toList } else put r
  else put []

/-- A member's table entry takes the ownership that an ASSIGN carries (R336). -/
def Leaf.memberOwner (rcpt : Word) (tag : BitVec 24) (l : Leaf) : Leaf :=
  { l with chain := { l.chain with members := l.chain.members.map (fun p =>
      if rcpt = 0xFFFFFFFF ∨ p.2.report.fleet = rcpt then (p.1, { p.2 with tag := tag, owned := tag != 0 }) else p) } }

/-- A master passes a downstream cell on to the members it addresses (R48, Table 7.1), and takes the ownership from an
ASSIGN. -/
def Leaf.passDown (x : Cell) (l : Leaf) : Leaf :=
  let rcpt := (l.chain.members.map Prod.snd).filter (fun m => x.fleet == 0xFFFFFFFF || m.report.fleet == x.fleet)
  let l := rcpt.foldl (fun l m => l.emit (m.report.pos.setWidth 7) x) l
  if x.ty = 8 ∧ x.som ∧ x.payload.getD 0 0 = 5 then
    l.memberOwner (BitVec.ofNat 32 (leAt x.payload 12 4)) (BitVec.ofNat 24 (leAt x.payload 1 3))
  else l

/-- A cell on `ul_rx` that the tray addressed to this leaf, to another through it, or to all (R161). -/
def Leaf.receive (x : Cell) (l : Leaf) : Leaf :=
  if !l.pins.ulRxReady then l
  else if !cellGood x then
    { l with ul := { l.ul with rxBad := l.ul.rxBad + 1, asm := tput l.ul.asm x.cls.toNat [] } }
  else
    let l := if l.isMaster && x.fleet != l.fleet then l.passDown x else l
    if x.fleet = l.fleet ∨ x.fleet = 0xFFFFFFFF then l.assemble x else l

/-! ## Register writes -/

/-- A write of `GL_UL_SHP[c]`: RATE unless zero, BURST, full tokens (R168, Table 7.9). -/
def Leaf.shpWrite (c data : Nat) (l : Leaf) : Leaf :=
  let l := l.refill
  let rate := if bits data 31 16 = 0 then l.rate c else bits data 31 16
  let l := l.setReg (0x3010 + 4 * c) (BitVec.ofNat 32 (rate * 2 ^ 16 + bits data 15 0))
  { l with ul := { l.ul with short := tput l.ul.short c 0 } }

/-- A write of OVH: above 32 ignored; else every bucket and the ceiling are full (R168, Table 7.8). -/
def Leaf.ovhWrite (data : Nat) (l : Leaf) : Leaf :=
  if 32 < bits data 5 0 then l
  else
    let l := l.refill.setFld GlR.UL_CTL_OVH (bits data 5 0)
    { l with ul := { l.ul with short := [], ceilShort := 0 } }

/-! ## Commands -/

/-- UPLINK_CELL_START (R103, R165 to R170, R390). -/
def execUplinkCellStart (par : Bool) (s : State) : Host.Outcome State Fault Refusal := .next (s.onLeaf (Leaf.startCell par))

/-- UL_SHP_WRITE (R168): class 1 to 4 in the operand 0 to 3. -/
def execUlShpWrite (c : BitVec 2) (p : Port) (data : Word) (s : State) : Host.Outcome State Fault Refusal :=
  .next (s.onLeaf (Leaf.guarded p (0x3014 + 4 * c.toNat) true (Leaf.shpWrite (c.toNat + 1) data.toNat)))

/-- UL_OVH_WRITE (R168). -/
def execUlOvhWrite (p : Port) (data : Word) (s : State) : Host.Outcome State Fault Refusal :=
  .next (s.onLeaf (Leaf.guarded p 0x3000 true (Leaf.ovhWrite data.toNat)))

/-- FORWARD_CELL (R136, R141, R172). -/
def execForwardCell (c : Cell) (s : State) : Host.Outcome State Fault Refusal := .next (s.onLeaf (Leaf.forward c))

/-- UPLINK_CELL_RX (R48, R161). -/
def execUplinkCellRx (c : Cell) (s : State) : Host.Outcome State Fault Refusal := .next (s.onLeaf (Leaf.receive c))

end Sys2Proof.Machine
end

