-- ==== Sys2Proof/Machine/LeafPort.lean ====
section
/-!
DEFINITION. Sys2Proof/Machine/LeafPort.lean: the leaf's register port: what every register shows and what a write of it
does (R11 to R17, R44, R55, R71, R84, R345, R346, R377 to R381, Tables 19.1 and those it names).
-/

namespace Sys2Proof.Machine

/-! ## What a register shows -/

/-- The four bytes of a word of the IRQ block with those dropped whose source fails a test. -/
def keepBytes (f : Nat → Bool) (n w : Nat) : Nat :=
  (List.range 4).foldl (fun a j => if f (4 * n + j) then a + bits w (8 * j + 7) (8 * j) * 2 ^ (8 * j) else a) 0

/-- Whether an access may see or write what belongs to an interrupt source (R379). -/
def Leaf.seesSource (l : Leaf) (ns : Bool) (src : Nat) : Bool := !ns || !l.blockSecure (srcBlock src)

/-- `GL_IRQ_PEND[n]`. -/
def Leaf.pendWord (l : Leaf) (ns : Bool) (n : Nat) : Nat :=
  (List.range 32).foldl (fun a i =>
    if decide (0 < tget l.irq.cnt (32 * n + i)) && l.seesSource ns (32 * n + i) then a + 2 ^ i else a) 0

/-- `GL_IRQ_CNT[n]`. -/
def Leaf.cntWord (l : Leaf) (n : Nat) : Nat :=
  (List.range 4).foldl (fun a j => a + tget l.irq.cnt (4 * n + j) * 2 ^ (8 * j)) 0

/-- `GL_IRQ_TSTAT[k]` but for BADEOI. -/
def Leaf.tstatWord (l : Leaf) (k : Nat) : Nat :=
  let t := tget l.irq.targets k
  let top := match t.stack with
    | (_, p) :: _ => p
    | [] => 0
  top * 2 ^ 29 + t.stack.length * 2 ^ 25 + b2n t.nasvc.isSome * 2 ^ 24 + b2n (l.inHoldoff k) * 2 ^ 23 +
  b2n (bit l.pins.irqIdle.toNat k) * 2 ^ 22

/-- The 48-bit value of slot `n` of group `g` in the view selected (Tables 3.6, 3.8). -/
def Leaf.slotValue (l : Leaf) (g n : Nat) : Nat :=
  let set := tget l.cap.core (g / 16)
  let key := 9 * (g % 16) + n
  let v := l.fld (GlR.CG_CTL_VIEW.at (0x50 * g))
  if v = 0 then (tget set.cnt key).toNat
  else if v = 1 then (tget set.startL key).toNat
  else if v = 2 then (tget set.endL key).toNat
  else if v = 3 then setCounter l.cap.snap g n
  else if v = 5 then setCounter l.cap.sample g n
  else if v = 4 ∧ l.flag (GlR.CG_CTL_CMD_EN.at (0x50 * g)) then
    let x := tget set.streams (l.fld (GlR.CG_CTL_CMD.at (0x50 * g)))
    if n = 0 then x.starts.toNat
    else if n = 1 then x.ends.toNat
    else if n = 2 then x.orphans.toNat
    else if n = 3 then x.overruns.toNat
    else if n = 4 then b2n x.isOpen * 2 ^ 31 + b2n x.pairOk * 2 ^ 30 + x.openId.toNat
    else if n = 5 then x.lastId.toNat
    else 0
  else 0

/-- A word of the COUNTERS block (Tables 3.4 to 3.7). -/
def Leaf.cgWord (l : Leaf) (off : Nat) : Nat :=
  let g := (off - 0x4000) / 0x50
  let d := (off - 0x4000) % 0x50
  if d < 0x48 then
    let v := l.slotValue g (d / 8)
    if d % 8 = 0 then v % 2 ^ 32 else (l.reg off).toNat + v / 2 ^ 32
  else if d = 0x48 then (l.reg off).toNat
  else (l.reg off).toNat + (l.cap.snapEpoch.toNat % 2 ^ 16) * 2 ^ 16

/-- A slice entry as a read shows it (Table 4.6, RDACT). -/
def Leaf.sliceShown (l : Leaf) (c : Nat) : Nat :=
  l.slice (if l.flag GlR.QL_CTL_RDACT then l.actBank else !l.actBank) c

/-- `GL_QL_BUDGET` (Table 4.10). -/
def Leaf.budgetWord (l : Leaf) : Nat :=
  budgetLimit (l.fld GlR.QL_CTL_PEND_PN) * 2 ^ 16 + budgetSum (l.slices (!l.actBank)) % 2 ^ 16

/-- `GL_QL_BUF` (Table 4.11). -/
def Leaf.bufWord (l : Leaf) : Nat :=
  (8192 - l.bufUsed) * 2 ^ 16 + ((tget l.ul.queues 2).filter (fun q => q.fseq.isSome)).length

/-- `GL_IW_OLDEST[r]`: the oldest SEQ held, 0 with none. -/
def Leaf.iwOldest (l : Leaf) (r : Nat) : Nat := ((tget l.iw.recs r).held.head?.map (·.seq)).getD 0

/-- A unit's word with AGE and, when not fitted, STATE 0b11 (Table 8.16). -/
def Leaf.unitWord (l : Leaf) (u : Nat) : Nat :=
  let w := (l.reg (0xD040 + 4 * u)).toNat
  let w := if l.fitted u then w else setBits w 31 30 3
  setBits w 10 0 (if l.isDue u then min 0x7FF ((l.time.clk - tget l.test.since u) / 3600000000000) else 0)

/-- The word at an offset, as fields read in the secure world before any clearing. -/
def Leaf.view (l : Leaf) (ns : Bool) (off : Nat) : Nat :=
  let w := (l.reg off).toNat
  if off = 0x0008 then setBits w 2 2 (b2n (!l.pins.hostIsoN))
  else if off = 0x0010 then
    l.hard.hostlink.toNat * 2 ^ 24 + l.hard.irqTgt.toNat * 2 ^ 21 + b2n l.hard.tmMode * 2 ^ 20 + l.hard.tmFixed.toNat
  else if off = 0x0014 then
    l.hard.bankEn.toNat * 2 ^ 16 + l.hard.tapEn.toNat * 2 ^ 12 + b2n l.hard.testEn * 2 ^ 11 + b2n l.hard.hbEn * 2 ^ 10
  else if off = 0x0018 ∨ off = 0x001C then
    (List.range 8).foldl (fun a j => a + (l.hard.cmdBank.getD (8 * ((off - 0x18) / 4) + j) 0).toNat * 2 ^ (4 * j)) 0
  else if off = 0x0020 then l.hard.vpEn.toNat % 2 ^ 32
  else if off = 0x0024 then l.hard.vpEn.toNat / 2 ^ 32
  else if 0x0800 ≤ off ∧ off < 0x0840 then l.pendWord ns ((off - 0x800) / 4)
  else if 0x0840 ≤ off ∧ off < 0x0A40 then keepBytes (l.seesSource ns) ((off - 0x840) / 4) (l.cntWord ((off - 0x840) / 4))
  else if 0x0A40 ≤ off ∧ off < 0x0C40 then keepBytes (l.seesSource ns) ((off - 0xA40) / 4) w
  else if 0x0C40 ≤ off ∧ off < 0x0C60 then if l.seesSource ns 448 then w else 0
  else if 0x0D00 ≤ off ∧ off < 0x0E00 ∧ off % 0x20 = 0xC then l.tstatWord ((off - 0xD00) / 0x20) + bits w 15 8 * 2 ^ 8
  else if off = 0x100C ∨ off = 0x1010 then l.time.ns % 2 ^ 32
  else if off = 0x1014 then l.time.ns / 2 ^ 32
  else if off = 0x3028 then l.ceilCap * 2 ^ 16 + l.ceilShown
  else if 0x4000 ≤ off ∧ off < 0x9000 then l.cgWord off
  else if off = 0x9010 then l.budgetWord
  else if off = 0x9014 then l.bufWord
  else if 0x9400 ≤ off ∧ off < 0x9800 then l.sliceShown ((off - 0x9400) / 4)
  else if off = 0xB008 then
    w + b2n (!l.iw.dumps.isEmpty) * 2 ^ 29 + (l.iw.dumps.length - 1) * 2 ^ 26
  else if 0xB010 ≤ off ∧ off < 0xB030 then
    let r := (off - 0xB010) / 8
    if (off - 0xB010) % 8 = 0 then l.iwOldest r else seqNext (tget l.iw.recs r).last
  else if 0xB100 ≤ off ∧ off < 0xB200 then leAt l.iw.window (off - 0xB100) 4
  else if off = 0xC018 then l.ptStat
  else if off = 0xC01C then l.ptLeft
  else if 0xC400 ≤ off ∧ off < 0xC800 then leAt l.peatView (off - 0xC400) 4
  else if 0xD040 ≤ off ∧ off < 0xD080 then l.unitWord ((off - 0xD040) / 4)
  else if off = 0xD104 then setBits w 30 30 (b2n (!l.hbRuns))
  else w

/-! ## Values that span two registers (R11) -/

/-- Whether an offset is the lower register of a value that spans two. -/
def glLow (off : Nat) : Bool :=
  decide (off = 0x1010 ∨ off = 0x2018 ∨ off = 0xA008 ∨ off = 0xC010) ||
  decide (0x4000 ≤ off ∧ off < 0x9000 ∧ (off - 0x4000) % 0x50 < 0x48 ∧ (off - 0x4000) % 8 = 0) ||
  decide (0xA040 ≤ off ∧ off < 0xA080 ∧ off % 8 = 0)

/-- Bits of the higher register that carry the value. -/
def glHighBits (off : Nat) : Nat := if 0x4000 ≤ off ∧ off < 0x9000 then 16 else 32

/-- Key of a capture: the requester, which the sideband and WRITE records share, and the higher offset. -/
def capKey (p : Port) (off : Nat) : Nat := (p.src.toNat + 16 * b2n p.side) * 2 ^ 26 + off

/-- A register read that has been admitted: the word shown in `rdata`, a capture taken or used, RC fields cleared. -/
def Leaf.readAdmitted (p : Port) (off : Nat) (l : Leaf) : Leaf :=
  match findRow glRows off with
  | none => l
  | some r =>
    let shown := r.show p.ns (l.view p.ns off)
    let n := glHighBits off
    let key := capKey p off
    let shown := match l.caps.find? (fun c => c.1 == key) with
      | some (_, v) => setBits shown (n - 1) 0 v.toNat
      | none => shown
    let caps := l.caps.filter (fun c => c.1 != key)
    let up := capKey p (off + 4)
    let caps := if glLow off then
        (up, BitVec.ofNat 32 (bits (l.view p.ns (off + 4)) (glHighBits off - 1) 0)) :: caps.filter (fun c => c.1 != up)
      else caps
    { l.setReg off (BitVec.ofNat 32 (r.afterRead (l.reg off).toNat)) with
      caps := caps, rdata := BitVec.ofNat 32 shown }

/-! ## The program window (R378, R424) -/

/-- Region of a program page (Table 16.5). -/
def pageRegion (page : Nat) : Nat := if page < 16 then 0 else if page < 40 then 1 else 2

/-- Whether a window access reaches a page of a secure region that it may not (R378). -/
def Leaf.windowHidden (l : Leaf) (p : Port) : Bool := p.ns && l.regionSecure (pageRegion (l.fld GlR.QL_PAGE_PAGE))

/-! ## Reads -/

/-- A non-secure access to a register with an SRW field counts as a violation (R17, R377). -/
def Leaf.srwNote (p : Port) (off : Nat) (l : Leaf) : Leaf :=
  if p.ns && ((findRow glRows off).map RegRow.hasSrw).getD false then l.violate (glBlock off) else l

/-- A read of the register port (R11 to R17, R44). -/
def Leaf.portRead (p : Port) (off : Nat) (l : Leaf) : Leaf :=
  Leaf.guarded p off false (fun l => Leaf.srwNote p off (
    if 0xE000 ≤ off then
      if l.windowHidden p then l.violate 7 else { l with rdata := l.windowRead ((off - 0xE000) / 4) }
    else if 0x0D00 ≤ off ∧ off < 0x0E00 ∧ off % 0x20 = 0 then l.claim ((off - 0xD00) / 0x20)
    else l.readAdmitted p off)) { l with rdata := 0 }

/-! ## Writes -/

/-- A write that only sets stored fields. -/
def Leaf.plainWrite (p : Port) (off : Nat) (data : Word) (l : Leaf) : Leaf :=
  match findRow glRows off with
  | none => l
  | some r => l.setReg off (BitVec.ofNat 32 (r.write p.ns (l.reg off).toNat data.toNat))

/-- A write of the routing mask or priority of sources (R379): bytes of secure sources are dropped for the non-secure
world, one violation for the access. -/
def Leaf.sourceWrite (p : Port) (off first step : Nat) (data : Word) (l : Leaf) : Leaf :=
  let old := (l.reg off).toNat
  let seen := (List.range 4).map (fun j => l.seesSource p.ns (first + step * j))
  let w := (List.range 4).foldl (fun w j =>
    if seen.getD j true then setBits w (8 * j + 7) (8 * j) (bits data.toNat (8 * j + 7) (8 * j)) else w) old
  let l := l.setReg off (BitVec.ofNat 32 w)
  if seen.all id then l else l.violate 2

/-- A write of `GL_IW_CTL` (R345, R346). -/
def Leaf.iwWrite (p : Port) (data : Nat) (l : Leaf) : Leaf :=
  let l := l.iwCtlWrite data
  let l := if bit data 30 then l.cursorNext p else l
  if bit data 31 then l.askDump (l.fld GlR.IW_CTL_REC) (l.fld GlR.IW_CTL_DTAG) 2 else l

/-- The register of the PEAT block that an offset writes, if a write of it is persistent. -/
def peatAt (off : Nat) : Option PeatReg :=
  if off = 0xC000 then some .fleet else if off = 0xC004 then some .oos else if off = 0xC00C then some .trim
  else if off = 0xC014 then some .seed else none

/-- The effect of a write that has been admitted, by its register. -/
def Leaf.writeAdmitted (p : Port) (off : Nat) (data : Word) (l : Leaf) : Leaf :=
  let n := data.toNat
  if 0xE000 ≤ off then
    if l.windowHidden p then l.violate 7 else l.windowWrite ((off - 0xE000) / 4) data
  else if 0x0A40 ≤ off ∧ off < 0x0C40 then l.sourceWrite p off (off - 0xA40) 1 data
  else if 0x0C40 ≤ off ∧ off < 0x0C60 then l.sourceWrite p off (448 + 2 * (off - 0xC40)) 2 (data &&& 0x77777777)
  else if 0x0D00 ≤ off ∧ off < 0x0E00 ∧ off % 0x20 = 4 then l.eoi ((off - 0xD00) / 0x20) (bits n 8 0)
  else if off = 0x1008 then l.hbAround (Leaf.khzWrite (bits n 17 0))
  else if off = 0x2000 then l.chCtlWrite n
  else if off = 0x2014 then l.inkCtlWrite n
  else if off = 0x3000 then l.ovhWrite n
  else if 0x3014 ≤ off ∧ off < 0x3024 then l.shpWrite ((off - 0x3010) / 4) n
  else if 0x4000 ≤ off ∧ off < 0x9000 then
    let g := (off - 0x4000) / 0x50
    let d := (off - 0x4000) % 0x50
    if d < 0x48 then (if d % 8 = 4 then l.cgHiWrite g (d / 8) data else l)
    else if d = 0x48 then l.cgCtlWrite g data
    else l.plainWrite p off data
  else if off = 0x900C then l.armCfgWrite n
  else if 0x9024 ≤ off ∧ off ≤ 0x9030 then l.lmRegWrite ((off - 0x9024) / 4) data
  else if 0x9400 ≤ off ∧ off < 0x9800 then l.sliceWrite ((off - 0x9400) / 4) data
  else if off = 0xA008 ∨ off = 0xA00C ∨ (0xA040 ≤ off ∧ off < 0xA080) then
    if p.ns then l else l.keyWrite off data
  else if off = 0xB000 then l.iwWrite p n
  else if off = 0xB004 then l.cursorTo p n
  else if off = 0xD100 then l.hbAround (Leaf.plainWrite p off data)
  else match peatAt off with
    | some r => l.peatPortWrite r data []
    | none => l.plainWrite p off data

/-- A write to the register port (R11 to R17, R44). -/
def Leaf.portWrite (p : Port) (off : Nat) (data : Word) (l : Leaf) : Leaf :=
  Leaf.guarded p off true (fun l => Leaf.srwNote p off (l.writeAdmitted p off data)) l

/-- How a WRITE record of the tray reaches a register (R326, R377): a whole word, in the secure world. -/
def Port.record : Port := { ns := false, src := 0, size := 2, side := true }

/-- IW_DUMP (R346): a write of `GL_IW_CTL` with DUMP set. -/
def execIwDump (p : Port) (data : Word) (s : State) : Host.Outcome State Fault Refusal :=
  .next (s.onLeaf (Leaf.guarded p 0xB000 true (Leaf.iwWrite p (data ||| 0x80000000).toNat)))

/-- PROGRAM_WINDOW_WRITE: word `w` of the window at 0xE000 (R94, R378, R424). -/
def execProgramWindowWrite (w : BitVec 11) (p : Port) (data : Word) (s : State) : Host.Outcome State Fault Refusal :=
  .next (s.onLeaf (Leaf.portWrite p (0xE000 + 4 * w.toNat) data))

/-- LM_DIR_WRITE: a write through the program window while a directory page is selected (R287). -/
def execLmDirWrite (w : BitVec 11) (p : Port) (data : Word) (s : State) : Host.Outcome State Fault Refusal :=
  .next (s.onLeaf (Leaf.portWrite p (0xE000 + 4 * w.toNat) data))

end Sys2Proof.Machine
end

