-- ==== Sys2Proof/Machine/LeafCtl.lean ====
section
/-!
DEFINITION. Sys2Proof/Machine/LeafCtl.lean: the leaf's side of the Control conversation (R324 to R331, R336), leases,
test grants, fences, liveness queries, and history dumps (R346).
-/

namespace Sys2Proof.Machine

/-! ## Acting once on a message (R324) -/

/-- Whether an entry of the conversation is the message's. -/
def Acted.isOf (a : Acted) (h : CtlHead) (op : Nat) : Bool :=
  a.sender == h.sender && a.cseq == h.cseq && a.op == op

/-- A configuration message leaves the messages that have arrived whole. -/
def Leaf.takeReady (op : Nat) (l : Leaf) : Leaf :=
  let is : Message → Bool := fun m => m.ty == 8 && m.body.getD 0 0 == BitVec.ofNat 8 op
  { l with ready := l.ready.takeWhile (fun m => !is m) ++ (l.ready.dropWhile (fun m => !is m)).drop 1 }

/-- A message is acted on once; a further copy is acknowledged as the first was (R324). The newest 256 messages are
known (assumption log 12). -/
def Leaf.once (h : CtlHead) (op : Nat) (f : Leaf → Leaf) (l : Leaf) : Leaf :=
  let l := l.takeReady op
  match l.ctl.acted.find? (fun a => a.isOf h op) with
  | some a =>
    (match a.answer with
      | some (st, d) => l.sendAck h.cseq.toNat st op d a.cfg.toNat
      | none => l)
  | none =>
    f { l with ctl := { l.ctl with acted :=
      ({ sender := h.sender, cseq := h.cseq, op := op, cfg := h.cfg, answer := none } :: l.ctl.acted).take 256 } }

/-- The message's answer. -/
def Leaf.reply (h : CtlHead) (op status detail : Nat) (l : Leaf) : Leaf :=
  l.answer h.sender h.cseq op status detail h.cfg

/-- Whether a message that names a fleet ID or all members names this leaf. -/
def Leaf.named (l : Leaf) (rcpt : Word) : Bool := rcpt == 0xFFFFFFFF || rcpt == l.fleet

/-! ## WRITE and ARM (R326, R327) -/

/-- Whether a leaf offset lies in IDENT, SEC or PEAT. -/
def recordBarred (off : Nat) : Bool := decide (off < 0x800 ∨ 0xC000 ≤ off ∧ off < 0xD000)

/-- A run of words written by a function of their index. -/
def Leaf.putRun (f : Nat → Word → Leaf → Leaf) : Nat → List Word → Leaf → Leaf
  | _, [], l => l
  | i, w :: ws, l => Leaf.putRun f (i + 1) ws (f i w l)

/-- The records of a WRITE in order (Table 14.7): the offset of the first one that may not be applied, or none. -/
def Leaf.applyRecs : List ImgRec → Leaf → Option Nat × Leaf
  | [], l => (none, l)
  | .write off ws :: rs, l =>
    match (List.range ws.length).find? (fun i => recordBarred (off.toNat + 4 * i)) with
    | some i => (some (off.toNat + 4 * i), l)
    | none => Leaf.applyRecs rs (Leaf.putRun (fun i w l => l.portWrite Port.record (off.toNat + 4 * i) w) 0 ws l)
  | .page pg off ws :: rs, l =>
    Leaf.applyRecs rs (Leaf.putRun (fun i w l =>
      if off.toNat + i < 2048 then l.pageWrite pg.toNat (off.toNat + i) w else l) 0 ws l)

/-- CTL_WRITE (R326): BADWRITE at a record that addresses IDENT, SEC or PEAT. -/
def execCtlWrite (h : CtlHead) (recs : List ImgRec) (s : State) : Host.Outcome State Fault Refusal :=
  .next (s.onLeaf (Leaf.once h 1 fun l =>
    match l.applyRecs recs with
    | (some off, l) => l.reply h 1 2 off
    | (none, l) => l.reply h 1 0 0))

/-- The active bank copied into the inactive one (Table 14.3, COPY): slice table and programs. -/
def Leaf.copyBank (l : Leaf) : Leaf :=
  let l := l.disarm
  let src := bankPage l.actBank * 2048
  let dst := bankPage (!l.actBank) * 2048
  let inBank : Nat → Nat → Bool := fun b k => decide (b ≤ k ∧ k < b + 8 * 2048)
  let kept := l.quill.pages.filter (fun p => !inBank dst p.1)
  let pages := (l.quill.pages.filter (fun p => inBank src p.1)).foldl
    (fun t p => tput t (p.1 - src + dst) p.2) kept
  { l with quill := { l.quill with pages := pages
                                   sliceA := if l.actBank then l.quill.sliceB else l.quill.sliceA
                                   sliceB := if l.actBank then l.quill.sliceB else l.quill.sliceA } }

/-- CTL_ARM (R95, R327): the check runs, and its end is the answer (ARM_CHECK_DONE). -/
def execCtlArm (h : CtlHead) (ep : Word) (pcode : BitVec 3) (copy far : Bool) (s : State) :
    Host.Outcome State Fault Refusal :=
  .next (s.onLeaf (Leaf.once h 2 fun l =>
    let l := onlyIf copy Leaf.copyBank l
    let e := if far then l.epoch + 0x40000000 else ep
    let l := ((l.setReg 0x9008 e).setFld GlR.QL_ARM_CFG_CFG_EP h.cfg.toNat).setFld GlR.QL_CTL_PEND_PN pcode.toNat
    l.startArm { epoch := e, cfg := h.cfg, pn := pcode } (some { cseq := h.cseq, sender := h.sender, cfg := h.cfg })))

/-! ## INK, LEASE, KEEPALIVE -/

/-- INK at the leaf (R145): a master relays it to its chain, another leaf takes it. -/
def Leaf.ctlInk (h : CtlHead) (m : InkMsg) (l : Leaf) : Leaf :=
  l.once h 3 fun l => (if l.isMaster then l.issueInk m else l.takeInk m).reply h 3 0 0

/-- LEASE at the leaf (R154, R319): a grant to a chain master. -/
def Leaf.ctlLease (h : CtlHead) (grant : Bool) (base count : Word) (l : Leaf) : Leaf :=
  l.once h 4 fun l =>
    let l := if grant && l.isMaster then
        { ((l.setReg 0x2020 base).setFld GlR.CH_INK_CTL_LEASE_LEFT (min 255 count.toNat)) with
          ctl := { l.ctl with asked := [] } }
      else l
    l.reply h 4 0 0

/-- KEEPALIVE at the leaf (R325): never acknowledged. A chain master answers with its own, by which the tray knows that
it still runs (DEDUCED from R335: the registered master sends keepalives). -/
def Leaf.ctlKeepalive (h : CtlHead) (l : Leaf) : Leaf :=
  let l := l.takeReady 8
  let l := { l with ctl := { l.ctl with tray := some h.sender }, chain := { l.chain with registered := l.isMaster } }
  if l.isMaster then
    l.sendCfg 0 8 0 0 l.epoch.toNat l.chain.cfg.toNat []
  else l

/-! ## Ownership (R331, R336) -/

/-- An ASSIGN that names this leaf: the tag, PHASE and PCODE; a new tag ends the fence of the old one (R331). -/
def Leaf.assign (tag : BitVec 24) (phase : Bool) (pcode : BitVec 3) (l : Leaf) : Leaf :=
  let moved := l.jobTag != tag.toNat
  let l := (((l.setFld GlR.CH_JOB_JOB_TAG tag.toNat).setFld GlR.CH_JOB_TD 0).setFld GlR.CH_JOB_PHASE (b2n phase)).setFld
    GlR.CH_JOB_PCODE pcode.toNat
  if moved then { l with ctl := { l.ctl with fenced := false, fencePend := none } } else l

/-- CTL_ASSIGN (R336). -/
def execCtlAssign (h : CtlHead) (rcpt : Word) (phase : Bool) (pcode : BitVec 3) (s : State) :
    Host.Outcome State Fault Refusal :=
  .next (s.onLeaf (Leaf.once h 5 fun l =>
    let l := if l.isMaster then l.memberOwner rcpt h.tag else l
    (if l.named rcpt then l.assign h.tag phase pcode else l).reply h 5 0 0))

/-- CTL_TEARDOWN (R331): at its Inkline, at once when that epoch is already in force; a leaf of another tag answers
NOTOWNER. -/
def execCtlTeardown (h : CtlHead) (rcpt epoch : Word) (s : State) : Host.Outcome State Fault Refusal :=
  .next (s.onLeaf (Leaf.once h 6 fun l =>
    if !l.named rcpt then l.reply h 6 0 0
    else if l.jobTag != h.tag.toNat then l.reply h 6 8 0
    else
      let l := { l with ctl := { l.ctl with teardown := some { epoch := epoch, cseq := h.cseq, sender := h.sender } } }
      if laterInk epoch l.epoch then l else l.tearDown l.epoch))

/-- CTL_SUBMASTER (R141): a master becomes a sub-master of the registered one and says so in STATE. -/
def execCtlSubmaster (h : CtlHead) (master : Word) (s : State) : Host.Outcome State Fault Refusal :=
  .next (s.onLeaf (Leaf.once h 7 fun l =>
    let l := if l.isMaster && master != l.fleet then
        let l := { l with chain := { l.chain with subOf := some master, registered := false } }.setFld GlR.CH_STAT_SUB 1
        l.sendUp l.mkState
      else l
    l.reply h 7 0 0))

/-- CTL_TGRANT (R200): a pending grant for an Inkline, or ignored; DETAIL is 1 for one ignored (DESIGN CHOICE, assumption
log 24). -/
def execCtlTgrant (h : CtlHead) (epoch : Word) (unit : BitVec 4) (all : Bool) (window : BitVec 24) (s : State) :
    Host.Outcome State Fault Refusal :=
  .next (s.onLeaf (Leaf.once h 0xF fun l =>
    let r := l.takeGrant epoch unit.toNat all window.toNat
    r.2.reply h 0xF 0 (b2n (!r.1))))

/-- An acknowledgement at the leaf (R324): the repeats of its message stop. -/
def Leaf.ctlAck (m : AckMsg) (l : Leaf) : Leaf :=
  let is : Message → Bool := fun x => x.ty == 9
  { l with ready := l.ready.takeWhile (fun x => !is x) ++ (l.ready.dropWhile (fun x => !is x)).drop 1
           ctl := { l.ctl with asked := l.ctl.asked.filter (fun a => a.1 != m.cseq) } }

/-- A repeat of a message of the leaf that nothing has acknowledged (R324). -/
def Leaf.ctlRepeat (cseq : BitVec 16) (l : Leaf) : Leaf :=
  match l.ctl.asked.find? (fun a => a.1 == cseq) with
  | none => l
  | some (_, m) => l.pushMsg m none

/-- FENCE_NOTICE_RX (R310): at once when EFF_EP is 0 or in force, else at its Inkline. -/
def execFenceNoticeRx (fence : Bool) (effEp : Word) (s : State) : Host.Outcome State Fault Refusal :=
  .next (s.onLeaf fun l =>
    { l with ctl := if effEp = 0 ∨ !laterInk effEp l.epoch then { l.ctl with fenced := fence, fencePend := none }
                    else { l.ctl with fencePend := some (effEp, fence) } })

/-- MEMBER_PROBE_RX (R309): a chain master answers with the member's state, its own included. -/
def execMemberProbeRx (fleet : Word) (s : State) : Host.Outcome State Fault Refusal :=
  .next (s.onLeaf fun l =>
    if !l.isMaster then l
    else if fleet = l.fleet then l.register
    else match l.chain.members.find? (fun m => m.2.report.fleet == fleet) with
      | some m => l.relayMember m.2
      | none => l)

/-! ## History dumps (R346) -/

/-- Records for one message: taken in order while they fit in `room` bytes; a missing or uncorrectable one counts as
lost. Answers bytes, the number of records, what is left, the lost. -/
def Leaf.dumpTake (l : Leaf) (r : Nat) : List Nat → Nat → List Byte × Nat × List Nat × Nat
  | [], _ => ([], 0, [], 0)
  | q :: qs, room =>
    match (tget l.iw.recs r).find q with
    | none => let (b, n, rest, k) := l.dumpTake r qs room; (b, n, rest, k + 1)
    | some x =>
      if l.inkBad r q then
        let (b, n, rest, k) := l.dumpTake r qs room
        (b, n, rest, k + 1)
      else if room < inkLen x then ([], 0, q :: qs, 0)
      else
        let (b, n, rest, k) := l.dumpTake r qs (room - inkLen x)
        (inkBytes false r x ++ b, n + 1, rest, k)

/-- The next message of the running dump (Table 15.4): whole records, at most 16 cells of 240 bytes. -/
def Leaf.dumpMessage (l : Leaf) : Leaf :=
  match l.iw.dumps with
  | [] => l
  | d :: rest =>
    let (bs, n, left, k) := l.dumpTake d.recNo d.seqs (3840 - 16)
    let lost := d.lost + k
    let last := left.isEmpty
    let first := match d.seqs.find? (fun q => ((tget l.iw.recs d.recNo).find q).isSome && !l.inkBad d.recNo q) with
      | some q => if n = 0 then 0 else q
      | none => 0
    let head := leB 2 d.id.toNat ++ leB 1 (d.recNo + d.reason.toNat * 16) ++ leB 1 (b2n last) ++ leB 1 0 ++
      leB 3 d.tag.toNat ++ leB 2 n ++ leB 2 (if last then min 0xFFFF lost else 0) ++ leB 4 first
    let l := l.pushOwn 4 0x0C (head ++ bs)
    if last then Leaf.beginDump ({ l with iw := { l.iw with dumps := rest } }.event 317)
    else { l with iw := { l.iw with dumps := { d with seqs := left, lost := lost } :: rest } }

/-- HISTORY_DUMP_MESSAGE (R346): nothing without a running dump. -/
def execHistoryDumpMessage (s : State) : Host.Outcome State Fault Refusal := .next (s.onLeaf Leaf.dumpMessage)

end Sys2Proof.Machine
end

