-- ==== Sys2Proof/Machine/LeafReset.lean ====
section
/-!
DEFINITION. Sys2Proof/Machine/LeafReset.lean: resets of the leaf (R55, R56, R62, R288, R342), isolation of its host
inputs (R51), and patrol scrub with the symbol code (R387 to R392).
-/

namespace Sys2Proof.Machine

/-! ## Resets -/

/-- A power-on reset: what is hardened, wired or blown stays, with what has already left (R56, R86). -/
def Leaf.powerOn (l : Leaf) : Leaf :=
  { Leaf.reset with hard := l.hard, pins := { l.pins with porN := false, ulRxReady := true }, peat := l.peat, out := l.out }

/-- Health states of the units from the Peat log (R207): two bits a unit. -/
def Leaf.loadHealth (l : Leaf) : Leaf :=
  (List.range 16).foldl (fun l u =>
    l.setUnit GlR.TS_UNIT_STATE u (bits (l.reg 0xC008).toNat (2 * u + 1) (2 * u))) l

/-- Steps 3 to 8 of Table 2.11: the Peat log is scanned, READY sets, the Reed ports train, the leaf registers. -/
def Leaf.startUp (cause : Nat) (l : Leaf) : Leaf :=
  let l := l.peatScan.loadHealth
  let l := ((l.setFld GlR.IDENT_STATUS_RESET_CAUSE cause).setFld GlR.IDENT_STATUS_HOST_ISO (b2n (!l.pins.hostIsoN))).setFld
    GlR.IDENT_STATUS_READY 1
  ((l.trainPort false).trainPort true).register

/-- LEAF_POWER_ON_RESET (R56). -/
def execLeafPowerOnReset (s : State) : Host.Outcome State Fault Refusal := .next (s.onLeaf Leaf.powerOn)

/-- SUPPLY_MONITOR_RESET (R62): the leaf stays in reset until it powers up again (DEDUCED, assumption log 13). -/
def execSupplyMonitorReset (s : State) : Host.Outcome State Fault Refusal := .next (s.onLeaf Leaf.powerOn)

/-- LEAF_POWER_UP (R55, Table 2.11): nothing unless the leaf is held in a power-on reset. -/
def execLeafPowerUp (s : State) : Host.Outcome State Fault Refusal :=
  .next (s.onLeaf fun l =>
    if l.pins.porN then l else Leaf.startUp 1 { l with pins := { l.pins with porN := true } })

/-- Whether a page keeps its words over a warm reset (R104, R288): all but the local model's directory. -/
def keptPage (k : Nat) : Bool := !decide (2048 * 40 ≤ k ∧ k < 2048 * 48)

/-- Whether an array keeps its contents over a warm reset. -/
def keptArray : LeafArray → Bool
  | .prog _ _ | .model _ _ | .inkwell _ _ => true
  | _ => false

/-- A recorder in which recovery finds a torn record (R342). -/
def Leaf.foundTorn (l : Leaf) : Leaf := l.setEvent GlR.IW_STAT_TORN 316

/-- A warm reset (R56): pages, recorders and the Peat log stay; `torn` names the recorders in which a record was being
appended. -/
def Leaf.warmReset (cause : Nat) (torn : List (BitVec 2)) (l : Leaf) : Leaf :=
  let l' : Leaf := { Leaf.reset with
    hard := l.hard, pins := { l.pins with ulRxReady := true }, peat := l.peat, out := l.out
    quill := { (default : Quill) with pages := l.quill.pages.filter (fun p => keptPage p.1) }
    iw := { (default : Inkwell) with recs := l.iw.recs }
    ecc := { Leaf.reset.ecc with bad := l.ecc.bad.filter (fun b => keptArray b.1)
                                 alarmed := l.ecc.alarmed.filter keptArray } }
  Leaf.startUp (if cause = 3 then 3 else 2) (torn.foldl (fun l _ => l.foundTorn) l')

/-- WARM_RESET (R56): `gl_por_n` low overrides it. -/
def execWarmReset (cause : BitVec 4) (torn : List (BitVec 2)) (s : State) : Host.Outcome State Fault Refusal :=
  .next (s.onLeaf fun l => if l.pins.porN then l.warmReset cause.toNat torn else l)

/-- HOST_ISO_CHANGE (R51): the new level of `host_iso_n`; a chain master gives up its role when it falls. -/
def execHostIsoChange (level : Bool) (s : State) : Host.Outcome State Fault Refusal :=
  .next (s.onLeaf fun l =>
    let fell := l.pins.hostIsoN && !level
    let l := Leaf.hbAround (fun l =>
      { l with pins := { l.pins with hostIsoN := level } }.setFld GlR.IDENT_STATUS_HOST_ISO (b2n (!level))) l
    if fell then l.abdicate else l)

/-! ## The symbol code (R387) -/

/-- A product in GF(2^8) with x^8 + x^4 + x^3 + x^2 + 1, `n` bits of the second factor. -/
def symMulN : Nat → Nat → Nat → Nat
  | 0, _, _ => 0
  | n + 1, a, b =>
    let a2 := if bit a 7 then ((a <<< 1) ^^^ 0x11D) % 256 else a <<< 1
    (if bit b 0 then a else 0) ^^^ symMulN n a2 (b / 2)

/-- A product in the field. -/
def symMul (a b : Nat) : Nat := symMulN 8 a b

/-- α to the power `n`, α = 2. -/
def symPow (n : Nat) : Nat := iter (symMul 2) n 1

/-- Syndrome `j` of the 41 symbols, the highest power first (Horner). -/
def syndrome (j : Nat) (sym : List Nat) : Nat := sym.foldl (fun a x => symMul a (symPow j) ^^^ x) 0

/-- The 41 symbols of a code word: the five address bytes, last first, at powers 40 to 36, then d0 to c3 at powers 35
to 0 (UNVERIFIED order, assumption log 14). -/
def symbols (addr : Nat) (raw : List Byte) : List Nat :=
  ((leB 5 addr).map BitVec.toNat).reverse ++ (slice raw 0 36).map BitVec.toNat

/-- What a decoder makes of a stored word. -/
inductive Decoded where
  | clean
  | corrected (index : Nat) (data : List Byte)
  | uncorrectable
deriving DecidableEq, Repr

/-- The decoder (R387): any one stored symbol in error is corrected; every other pattern with non-zero syndromes is
uncorrectable. -/
def symDecode (addr : Nat) (raw : List Byte) : Decoded :=
  let xs := symbols addr raw
  let s0 := syndrome 0 xs
  let s1 := syndrome 1 xs
  let s2 := syndrome 2 xs
  let s3 := syndrome 3 xs
  if s0 = 0 ∧ s1 = 0 ∧ s2 = 0 ∧ s3 = 0 then .clean
  else match (List.range 36).find? (fun e =>
      s0 != 0 && symMul s0 (symPow e) == s1 && symMul s1 (symPow e) == s2 && symMul s2 (symPow e) == s3) with
    | some e =>
      let i := 35 - e
      let ys := slice raw 0 36
      .corrected i ((ys.take i ++ [ys.getD i 0 ^^^ BitVec.ofNat 8 s0] ++ ys.drop (i + 1)).take 32)
    | none => .uncorrectable

/-! ## Patrol scrub -/

/-- Number by which a scrub record names a leaf array (DESIGN CHOICE, assumption log 14). -/
def arrayNum : LeafArray → Nat
  | .prog _ _ => 0
  | .sample _ => 1
  | .frame _ _ => 2
  | .model _ _ => 3
  | .tap _ => 4
  | .inkwell _ _ => 5
  | .other => 6

/-- The word is known uncorrectable at an address, or known good. -/
def Leaf.markBad (a : LeafArray) (addr : Option (BitVec 16)) (l : Leaf) : Leaf :=
  { l with ecc := { l.ecc with
      bad := l.ecc.bad.filter (fun b => !decide (b.1 = a)) ++ (addr.map (fun x => (a, x))).toList } }

/-- Scrub moves to the next code word; the end of a pass counts, and a new period takes effect (R391, R392). -/
def Leaf.scrubNext (l : Leaf) : Leaf :=
  if l.ecc.ptr = 65535 then
    ({ l with ecc := { l.ecc with ptr := 0, period := l.fld GlR.EC_SCRUB_PERIOD_H } }).addMod GlR.EC_SCRUB_PASSES 1
  else { l with ecc := { l.ecc with ptr := l.ecc.ptr + 1 } }

/-- A scrub read of the leaf's next word, whose 36 stored bytes the operand gives (R388, R389, R391). `par`: a byte of the
corrected word fails its parity as it is written back, so that the word is stored uncorrectable (R390). -/
def Leaf.scrub (a : LeafArray) (raw : List Byte) (par : Bool) (l : Leaf) : Leaf :=
  let w := l.ecc.ptr
  let l := match symDecode w raw with
    | .clean => l.markBad a none
    | .corrected _ _ =>
      if par then ((l.markBad a (some (BitVec.ofNat 16 w))).addSat GlR.EC_STAT_CE 1).parity w (arrayNum a) 1
      else (l.markBad a none).addSat GlR.EC_STAT_CE 1
    | .uncorrectable =>
      (l.markBad a (some (BitVec.ofNat 16 w))).uncorr a 0x0104 0 (leB 4 w ++ leB 1 (arrayNum a) ++ leB 1 1)
  l.scrubNext

end Sys2Proof.Machine
end

