-- ==== Sys2Proof/Machine/PzAccess.lean ====
section
/-!
DEFINITION. Sys2Proof/Machine/PzAccess.lean: who may reach a BAR0 register of Polornaz (R12, R13, R17, R382, R383, R400,
R401, R403), as it is judged before the register's own rules.
-/

namespace Sys2Proof.Machine

/-- Offset in the non-secure view of a BAR0 address (R382). -/
def barOff (addr : BitVec 26) : Nat := addr.toNat % 2 ^ 25

/-- Whether an access is secure (R382): over I3C, or through the secure view while it has not been switched off. -/
def Pz.secure (z : Pz) (p : Port) (addr : BitVec 26) : Bool :=
  p.side || (addr.getLsbD 25 && !z.flag PzR.SEC_VIEW_ALIAS_OFF)

/-- Whether an offset lies in a mailbox slot and in no other register. Slot 15 lies at 0x70000, where Table 13.8 to 13.13
have registers; those keep their offsets (assumption log 19). -/
def mbOff (off : Nat) : Bool := decide (0x61000 ≤ off ∧ off < 0x71000) && (findRow pzRows off).isNone

/-- Whether an offset holds a register (R13). -/
def pzAssigned (off : Nat) : Bool := (findRow pzRows off).isSome || mbOff off

/-- Whether a BAR0 block is secure (R383). -/
def Pz.blockSecure (z : Pz) (b : Nat) : Bool := bit (z.reg 0xD0000).toNat b

/-- A violation counted against a block, 15 for BAR2 (R17, R383). -/
def Pz.violate (b : Nat) (z : Pz) : Pz := z.addSat (PzR.SEC_VIOL_COUNT.at (4 * b)) 1

/-- Whether BAR0 answers the access: over PCIe the endpoint must be up (R400, R401, Table 18.5), over I3C the keepers have
booted (R403). -/
def Pz.answers (z : Pz) (p : Port) : Bool :=
  if p.side then decide (3 ≤ z.step) && z.pins.porN
  else z.pins.ready && z.pins.perstN && z.pins.pcieUp && !z.pins.d3hot && z.dieOk 15

/-- The rules that come before a register's own. -/
def Pz.verdict (z : Pz) (p : Port) (addr : BitVec 26) : Verdict :=
  let off := barOff addr
  if !z.answers p ∨ p.size ≠ 2 ∨ off % 4 ≠ 0 ∨ !pzAssigned off then .silent
  else if !z.secure p addr && z.blockSecure (off / 65536) then .violation (off / 65536)
  else .pass

/-- The effect of a register access that the verdict lets through; a non-secure access to a register with an SRW field
counts as a violation besides (R17). -/
def Pz.guarded (p : Port) (addr : BitVec 26) (f : Pz → Pz) (z : Pz) : Pz :=
  match z.verdict p addr with
  | .pass =>
    let srw := ((findRow pzRows (barOff addr)).map RegRow.hasSrw).getD false
    let z' := f z
    if srw && !z.secure p addr then z'.violate (barOff addr / 65536) else z'
  | .silent => z
  | .violation b => z.violate b

/-- The BAR0 address by which a row reaches the register that it names: `ns` tells the view over PCIe. -/
def viewAddr (p : Port) (off : Nat) : BitVec 26 := BitVec.ofNat 26 (off + if p.ns then 0 else 2 ^ 25)

/-- A write that only sets stored fields. -/
def Pz.plainWrite (ns : Bool) (off : Nat) (data : Word) (z : Pz) : Pz :=
  match findRow pzRows off with
  | none => z
  | some r => z.setReg off (BitVec.ofNat 32 (r.write ns (z.reg off).toNat data.toNat))

end Sys2Proof.Machine
end

