-- ==== Sys2Proof/Machine/PzPeat.lean ====
section
/-!
DEFINITION. Sys2Proof/Machine/PzPeat.lean: the Peat store of Polornaz (R352 to R354), the leaf table with its resets and
out-of-service marks (Table 15.7, R355), and keeper state (R356, R357).
-/

namespace Sys2Proof.Machine

/-! ## Pages (R352 to R354) -/

/-- Whether a keeper is in service. -/
def Pz.keeperOk (z : Pz) (k : Nat) : Bool := bit (z.fld PzR.PKG_STAT_KEEPER_OK) k

/-- The copy of a page that is read: keeper 0's, or keeper 1's with keeper 0 out. -/
def Pz.peatCopy (z : Pz) (page : Nat) : PPage :=
  if z.keeperOk 0 then tget z.peat.k0 page else if z.keeperOk 1 then tget z.peat.k1 page else default

/-- A data word of a page; a page that holds no valid data reads zero (R354). -/
def Pz.peatWord (z : Pz) (page w : Nat) : DWord :=
  let c := z.peatCopy page
  if c.torn then 0 else tget c.words w

/-- The WEAR at which a page is worn (R353). -/
def wornAt : Nat := 1000000

/-- A copy with words written: WEAR and GEN rise and the CRC passes. -/
def PPage.put (ws : List (Nat × DWord)) (c : PPage) : PPage :=
  { words := ws.foldl (fun t w => tput t w.1 w.2) (if c.torn then [] else c.words)
    wear := c.wear + 1, gen := c.gen + 1, torn := false }

/-- A PEAT_FAIL record (R352, R353): the store address and LAST_RES. -/
def Pz.peatFailed (addr res : Nat) (z : Pz) : Pz :=
  (z.setFld PzR.PS_STAT_LAST_RES res).record 0 0x0502 0 0 (leB 4 addr ++ leB 4 res)

/-- A write of words of one page (R352, R353); `v0` and `v1` say whether each keeper verifies it. The answer is LAST_RES. -/
def Pz.peatStore (page : Nat) (ws : List (Nat × DWord)) (v0 v1 : Bool) (z : Pz) : Nat × Pz :=
  let addr := 4096 * page + 8 * ((ws.head?.map (·.1)).getD 0)
  if wornAt ≤ (z.peatCopy page).wear then (1, z.peatFailed addr 1)
  else
    let a := z.keeperOk 0 && v0
    let b := z.keeperOk 1 && v1
    if !a && !b then (2, z.peatFailed addr 2)
    else
      let k0 := if a then tmod z.peat.k0 page (PPage.put ws) else z.peat.k0
      let k1 := if b then tmod z.peat.k1 page (PPage.put ws) else z.peat.k1
      let lost := (z.keeperOk 0 && !a) || (z.keeperOk 1 && !b)
      let z := { z with peat := { z.peat with k0 := k0, k1 := k1 } }
      let z := (z.setFld PzR.PS_STAT_LAST_RES 0).setFld PzR.PKG_STAT_KEEPER_OK (b2n a + 2 * b2n b)
      (0, if lost then z.raise 3 else z)

/-- A write that both keepers verify. -/
def Pz.peatPut (page : Nat) (ws : List (Nat × DWord)) (z : Pz) : Pz := (z.peatStore page ws true true).2

/-- Bits `hi` to `lo` of a double word replaced. -/
def dset (w : DWord) (hi lo v : Nat) : DWord := BitVec.ofNat 64 (setBits w.toNat hi lo v)

/-- Pages whose WEAR has reached the limit, for `PZ_PS_STAT.WORNPG`. -/
def Pz.wornPages (z : Pz) : Nat := ((List.range 1024).filter (fun p => decide (wornAt ≤ (z.peatCopy p).wear))).length

/-- Reconciliation at power-up (R354): the copy that passes, the higher GEN of two, over the other keeper; a page whose
copies both fail holds no valid data, is named in a DEVICE record and told to the operator. -/
def Pz.reconcile (z : Pz) : Pz :=
  let pages := ((z.peat.k0.map Prod.fst) ++ (z.peat.k1.map Prod.fst)).eraseDups
  pages.foldl (fun z p =>
    let a := tget z.peat.k0 p
    let b := tget z.peat.k1 p
    let c := if a.torn then b else if b.torn then a else if a.gen < b.gen then b else a
    let z := { z with peat := { z.peat with k0 := tput z.peat.k0 p c, k1 := tput z.peat.k1 p c } }
    if c.torn then (z.record 0 0x0502 0 0 (leB 4 (4096 * p) ++ leB 4 2)).device true Config.pageKind 0 0 0 0 (leB 4 p) else z) z

/-! ## The leaf table (Table 15.7, R355) -/

/-- Leaf slots of the table: 63 in each of pages 18 to 26. -/
def leafSlots : Nat := 567

/-- Word `k` of leaf slot `i`. -/
def Pz.leafWord (z : Pz) (i k : Nat) : DWord := z.peatWord (18 + i / 63) (8 * (i % 63) + k)

/-- The slot of a leaf. -/
def Pz.leafSlot (z : Pz) (fleet : Word) : Option Nat :=
  (List.range leafSlots).find? (fun i => (z.leafWord i 0).setWidth 32 == fleet && fleet != 0)

/-- The slot of a leaf, or the lowest free one (DESIGN CHOICE, assumption log 18). -/
def Pz.leafSlotNew (z : Pz) (fleet : Word) : Option Nat :=
  match z.leafSlot fleet with
  | some i => some i
  | none => (List.range leafSlots).find? (fun i => (z.leafWord i 0).setWidth 32 == 0)

/-- Words of a leaf slot written. -/
def Pz.leafPut (i : Nat) (ws : List (Nat × DWord)) (z : Pz) : Pz :=
  z.peatPut (18 + i / 63) (ws.map (fun w => (8 * (i % 63) + w.1, w.2)))

/-- Whether the tray holds a leaf as out of service. -/
def Pz.leafOos (z : Pz) (fleet : Word) : Bool := match z.leafSlot fleet with
  | some i => bit (z.leafWord i 0).toNat 63
  | none => false

/-- A counted reset (R355): RESETS and RT rise; N of them within WIN mark the leaf out of service. -/
def Pz.countReset (fleet : Word) (z : Pz) : Pz :=
  match z.leafSlotNew fleet with
  | none => z
  | some i =>
    let w := (z.leafWord i 0).toNat
    let n := let n := z.fld PzR.PS_TALLY_N
             if 2 ≤ n ∧ n ≤ 4 then n else 3
    let before := (z.leafWord i (n - 1)).toNat
    let marks := before != 0 && decide (z.now ≤ before + max 1 (z.fld PzR.PS_TALLY_WIN) * 1000000000)
    let w := setBits (setBits w 31 0 fleet.toNat) 47 32 (min 65535 (bits w 47 32 + 1))
    let w := if marks then setBits w 63 63 1 else w
    let z := z.leafPut i [(0, BitVec.ofNat 64 w), (1, BitVec.ofNat 64 z.now), (2, z.leafWord i 1), (3, z.leafWord i 2)]
    if marks then
      let tag := ((z.route fleet).map (·.tag)).getD 0
      ((z.setRoute fleet (fun r => { r with oos := true })).refused 5 tag fleet 0)
    else z

/-- The mark and the tally of a leaf cleared (R355). -/
def Pz.clearOos (fleet : Word) (z : Pz) : Pz :=
  let z := match z.leafSlot fleet with
    | none => z
    | some i => z.leafPut i [(0, dset (z.leafWord i 0) 63 63 0), (1, 0), (2, 0), (3, 0)]
  if (z.route fleet).isSome then z.setRoute fleet (fun r => { r with oos := false }) else z

/-- Health of a unit as the leaf table holds it: STATE, COND and the cell. -/
def Pz.leafUnit (z : Pz) (fleet : Word) (u : Nat) : Nat := match z.leafSlot fleet with
  | some i => bits (z.leafWord i (4 + u / 4)).toNat (16 * (u % 4) + 15) (16 * (u % 4))
  | none => 0

/-- Health of a unit written to the leaf table. -/
def Pz.leafUnitPut (fleet : Word) (u v : Nat) (z : Pz) : Pz := match z.leafSlotNew fleet with
  | none => z
  | some i =>
    let w0 := dset (z.leafWord i 0) 31 0 fleet.toNat
    let k := 4 + u / 4
    z.leafPut i [(0, w0), (k, dset (z.leafWord i k) (16 * (u % 4) + 15) (16 * (u % 4)) v)]

/-- PS_OOSCLR (R355): a write of the leaf's fleet ID. -/
def execPsOosclr (p : Port) (data : Word) (s : State) : Host.Outcome State Fault Refusal :=
  .next (s.onPz (Pz.guarded p (viewAddr p 0x90018) (Pz.clearOos data)))

/-! ## Keeper state (R356, R357) -/

/-- The keeper state in force. -/
def Pz.kState (z : Pz) : Option KState :=
  let k := z.fld PzR.PS_STAT_KSLOT
  if k = 0 then none else tget z.peat.slots (k - 1)

/-- A job as keeper state holds it (R356). -/
def Job.kept (j : Job) : Job :=
  { (default : Job) with tag := j.tag, cfg := j.cfg, commit := j.commit, phase := j.phase, pcode := j.pcode, level := j.level
                         switches := j.switches.take 4, before := j.before, homed := true }

/-- What a save stores (R357): a root keeps the reserve already stored until its allocation passes it. -/
def Pz.kNow (z : Pz) (seq : Nat) : KState :=
  let old := z.kState
  let cfg := match old with
    | some k => if laterCfg z.ctl.nextCfg k.nextCfg then z.ctl.nextCfg + 1024 else k.nextCfg
    | none => z.ctl.nextCfg + 1024
  let org := match old with
    | some k => if laterInk z.ctl.origin k.origin then z.ctl.origin + 0x100000 else k.origin
    | none => z.ctl.origin + 0x100000
  { seq := seq, time := z.now
    nextCfg := if z.role = 2 then cfg else z.ctl.nextCfg
    origin := if z.role = 2 then org else z.ctl.origin
    granted := z.ctl.granted
    jobs := ((z.ctl.jobs.filter (fun j => j.2.homed && !j.2.gone)).take 256).map (fun (j : Nat × Job) => (j.1, j.2.kept))
    adj := [(tget z.time.doms 0).adj, (tget z.time.doms 1).adj] }

/-- A save of keeper state (R357) into the slot that does not hold the newer valid state; each of its eight pages wears. -/
def Pz.saveNow (z : Pz) : Pz :=
  let k := if z.fld PzR.PS_STAT_KSLOT = 1 then 1 else 0
  let seq := ((z.kState.map (·.seq)).getD 0) + 1
  let st := z.kNow seq
  let r := (List.range 8).foldl (fun (acc : Nat × Pz) i =>
    if acc.1 = 0 then acc.2.peatStore (27 + 8 * k + i) [] true true else acc) (0, z)
  if r.1 ≠ 0 then { r.2 with peat := { r.2.peat with slots := tput r.2.peat.slots k none } }
  else
    let z := { r.2 with peat := { r.2.peat with
      slots := tput r.2.peat.slots k (some st), saved := some r.2.now, due := false } }
    ((z.setFld PzR.PS_STAT_KSLOT (k + 1)).setReg 0x9000C (BitVec.ofNat 32 seq)).setReg 0x90010
      (BitVec.ofNat 32 (seq / 2 ^ 32))

/-- SAVEMIN in ns. -/
def Pz.saveMin (z : Pz) : Nat := 1000000000 * max 1 (z.fld PzR.PS_CTL_SAVEMIN)

/-- A save that is subject to SAVEMIN (R357): now, or when SAVEMIN expires. -/
def Pz.saveSoon (z : Pz) : Pz := match z.peat.saved with
  | some t => if z.now < t + z.saveMin then { z with peat := { z.peat with due := true } } else z.saveNow
  | none => z.saveNow

/-- The save that a root's allocation makes when it passes the saved values (R357). -/
def Pz.saveReserve (z : Pz) : Pz :=
  if z.role ≠ 2 then z
  else match z.kState with
    | none => z.saveNow
    | some k => if laterCfg z.ctl.nextCfg k.nextCfg || laterInk z.ctl.origin k.origin then z.saveNow else z

/-- SAVEMIN_EXPIRY (R357): tray time comes to the end of SAVEMIN with a save due. -/
def Pz.saveMinEnd (z : Pz) : Pz := match z.peat.saved with
  | some t => if z.peat.due then (z.advanceTo (t + z.saveMin)).saveNow else z
  | none => z

/-- SAVEMIN_EXPIRY. -/
def execSaveminExpiry (s : State) : Host.Outcome State Fault Refusal := .next (s.onPz Pz.saveMinEnd)

/-- A write of `PZ_PS_CTL`: SAVEMIN, and a save on SAVE. -/
def Pz.psCtlWrite (data : Word) (z : Pz) : Pz :=
  let z := z.setFld PzR.PS_CTL_SAVEMIN (bits data.toNat 15 0)
  if bit data.toNat 31 then z.saveNow else z

/-- PS_SAVE (R357). -/
def execPsSave (p : Port) (data : Word) (s : State) : Host.Outcome State Fault Refusal :=
  .next (s.onPz (Pz.guarded p (viewAddr p 0x90008) (Pz.psCtlWrite (data ||| 0x80000000))))

/-- The slot with the higher SEQ. -/
def Pz.kBest (z : Pz) : Nat :=
  match tget z.peat.slots 0, tget z.peat.slots 1 with
  | none, none => 0
  | some _, none => 1
  | none, some _ => 2
  | some a, some b => if a.seq < b.seq then 2 else 1

/-- Restoring keeper state at power-up and warm reset (R357). -/
def Pz.restoreKeeper (z : Pz) : Pz :=
  let k := z.kBest
  let z := z.setFld PzR.PS_STAT_KSLOT k
  match z.kState with
  | none => { z with ctl := { z.ctl with based := false } }
  | some s =>
    let z := (z.setReg 0x9000C (BitVec.ofNat 32 s.seq)).setReg 0x90010 (BitVec.ofNat 32 (s.seq / 2 ^ 32))
    let doms := (List.range 2).foldl (fun (t : Tbl Servo) d => tmod t d (fun v => { v with adj := s.adj.getD d 0 })) z.time.doms
    { z with ctl := { z.ctl with nextCfg := s.nextCfg, origin := s.origin, granted := s.granted, jobs := s.jobs, based := true }
             time := { z.time with doms := doms } }

/-! ## Register writes of the Peat store -/

/-- A persistent register written (R16, R352): the fleet ID and the root's epoch bases, in page 0. The bases take effect
while the root waits for them (R357). -/
def Pz.psWrite (off : Nat) (data : Word) (v0 v1 : Bool) (z : Pz) : Pz :=
  if off = 0x90000 then
    let r := z.peatStore 0 [(0, data.setWidth 64)] v0 v1
    if r.1 ≠ 0 then r.2 else r.2.setReg 0x90000 data
  else if off = 0x90024 then
    let r := z.peatStore 0 [(1, dset (z.peatWord 0 1) 31 0 data.toNat)] v0 v1
    if r.1 ≠ 0 then r.2
    else
      let z := r.2.setReg 0x90024 data
      if z.ctl.based then z else { z with ctl := { z.ctl with origin := data } }
  else if off = 0x90028 then
    let r := z.peatStore 0 [(1, dset (z.peatWord 0 1) 47 32 (data.toNat % 65536))] v0 v1
    if r.1 ≠ 0 then r.2
    else
      let z := r.2.setReg 0x90028 (data &&& 0xFFFF)
      if z.ctl.based then z else { z with ctl := { z.ctl with nextCfg := data.setWidth 16, based := true } }
  else z

/-- Registers of the Peat store as they are loaded at power-up. -/
def Pz.loadPeat (z : Pz) : Pz :=
  ((z.setReg 0x90000 ((z.peatWord 0 0).setWidth 32)).setReg 0x90024 ((z.peatWord 0 1).setWidth 32)).setReg 0x90028
    (BitVec.ofNat 32 (bits (z.peatWord 0 1).toNat 47 32))

end Sys2Proof.Machine
end

