-- ==== Sys2Proof/Machine/PzTree.lean ====
section
/-!
DEFINITION. Sys2Proof/Machine/PzTree.lean: tree ensembles: results of launches (R273 to R278), checking, placing, loading,
replacing, staging and unloading models (R279 to R285).
-/

namespace Sys2Proof.Machine

/-! ## Traversal and results (R273 to R276) -/

/-- What a tree gives a launch: a leaf with whether a NaN key was met, or an uncorrectable node. -/
inductive Walked where
  | leaf (score : Word) (cls : Nat) (nan : Bool)
  | bad (node : Nat)
deriving DecidableEq, Repr

/-- A traversal (R273) from node `i` of a tree at `addr`, at most `d` visits. -/
def walkTree (mem : Tbl Byte) (bad : Nat → Bool) (feats : List Word) (addr : Nat) : Nat → Nat → Bool → Walked
  | 0, i, _ => .bad i
  | d + 1, i, nan =>
    if bad ((addr + 8 * i) / 32) then .bad i
    else
      let n := memLoad mem (addr + 8 * i) 8
      if ndLeaf n then .leaf (ndScore n) (ndClass n) nan
      else
        let k := feats.getD (ndFeat n) nanKey
        let right := if k = nanKey then ndNan n else decide (ndThresh n ≤ k.toNat)
        walkTree mem bad feats addr d (if right then i + ndOff n else i + 1) (nan || k == nanKey)

/-- What the trees of a launch add up to: exact class sums in units of 2^-149, contributions, omissions, NaN seen, and the
trees found uncorrectable with their nodes. -/
structure TreeSum where
  sums : List Int
  hits : Nat
  omits : Nat
  nan  : Bool
  bad  : List (Tree × Nat)
deriving DecidableEq, Repr

/-- One tree added: a tree that is omitted or cut off does not contribute (R276). -/
def Pz.addTree (z : Pz) (feats : List Word) (cutOff : List Nat) (s : TreeSum) (t : Tree) : TreeSum :=
  if t.omitted || cutOff.any (· == t.die) then { s with omits := s.omits + 1 }
  else match walkTree z.mem (fun w => z.hl.bad.any (· == w)) feats t.addr 33 0 false with
    | .bad i => { s with omits := s.omits + 1, bad := s.bad ++ [(t, i)] }
    | .leaf sc c nan =>
      { s with sums := s.sums.set c (s.sums.getD c 0 + f32Units sc), hits := s.hits + 1, nan := s.nan || nan }

/-- The class with the largest rounded sum, lowest on a tie. -/
def bestClass (ss : List Word) : Nat :=
  (List.range ss.length).foldl (fun b c => if (keyF32 (ss.getD b 0)).ult (keyF32 (ss.getD c 0)) then c else b) 0

/-- The largest sum among the classes other than `b`; +0 for one class. -/
def runnerUp (ss : List Word) (b : Nat) : Word :=
  match (List.range ss.length).filter (· != b) with
  | [] => 0
  | c :: cs => cs.foldl (fun w d => if (keyF32 w).ult (keyF32 (ss.getD d 0)) then ss.getD d 0 else w) (ss.getD c 0)

/-- The 16-byte result item (R274, Table 12.5). -/
def resultItem (l : Launch) (s : TreeSum) : List Byte :=
  let ss := (List.range l.nclass).map (fun c => f32OfUnits (s.sums.getD c 0 + if c = 0 then f32Units l.base else 0))
  let none := s.hits = 0
  let b := if none then 0 else bestClass ss
  let score : Word := if none then 0 else ss.getD b 0
  let second : Word := if none then 0 else runnerUp ss b
  leB 4 score.toNat ++ leB 4 (b * 2 ^ 16 + l.tag.toNat) ++ leB 4 second.toNat ++
  leB 4 (b2n l.mixed * 2 ^ 31 + b2n (l.repl && !l.mixed) * 2 ^ 30 + b2n s.nan * 2 ^ 29 + b2n (decide (0 < s.omits)) * 2 ^ 28)

/-- A tree found uncorrectable (R276): a record, the mark, and one advisory to the operator. -/
def Pz.markOmitted (model : Word) (p : Tree × Nat) (z : Pz) : Pz :=
  let t := p.1
  let known := (z.modelOf model).any (fun m => (m.trees ++ m.old).any (fun u => u.addr == t.addr && u.omitted))
  let mark : Tree → Tree := fun u => if u.addr = t.addr ∧ u.die = t.die then { u with omitted := true } else u
  let z := z.uncorrAt ((t.addr + 8 * p.2) / 32)
  let z := z.record 0 0x0901 (t.die * 256) 0 (leB 4 model.toNat ++ leB 4 t.idx ++ leB 4 p.2)
  let z := { z with
    models := z.models.map (fun (q : Nat × Model) => (q.1, { q.2 with trees := q.2.trees.map mark, old := q.2.old.map mark }))
    launches := z.launches.map (fun l => { l with trees := l.trees.map mark }) }
  if known then z else z.device true 0xD1 0 0 z.ctl.epoch model (leB 4 t.idx ++ leB 4 p.2)

/-- TREE_RESULT (R274 to R278): a launch of the slot completes, without the dies that the mesh cannot reach; none while
the governor admits nothing. -/
def Pz.treeResult (st p : Nat) (tag : BitVec 16) (z : Pz) : Pz :=
  let cutOff := (List.range 16).filter (fun d => !(z.meshOpen (st / 4) d && z.meshOpen d (st / 4)))
  let is : Launch → Bool := fun l => l.station.toNat == st && l.slot.toNat == p && l.tag == tag
  match z.launches.find? is with
  | none => z
  | some l =>
    if z.fld PzR.GOV_STAT_LEVEL = 0 then z
    else
      let s := l.trees.foldl (z.addTree l.feats cutOff)
        { sums := List.replicate 16 0, hits := 0, omits := 0, nan := false, bad := [] }
      let z := { z with launches := z.launches.filter (fun x => !is x) }
      let z := (z.addMod PzR.SG_LAUNCH_COUNT 1).addMod PzR.SG_OMIT_COUNT s.omits
      let z := s.bad.foldl (fun z b => Pz.markOmitted l.model b z) z
      let z := z.setSlot st p (fun q => { q with out := q.out.filter (· != tag) })
      match (z.slot st p).active.bind (·.lowest 5) with
      | none => z
      | some (d, _) => z.putItem st p d { bytes := resultItem l s, came := z.now, ask := none }

/-- TREE_RESULT. -/
def execTreeResult (st : BitVec 6) (slot : BitVec 4) (tag : BitVec 16) (s : State) : Host.Outcome State Fault Refusal :=
  .next (s.onPz (Pz.treeResult st.toNat slot.toNat tag))

/-! ## Model images (Table 12.8, R272, R280) -/

/-- The header of an image at a DRAM address. -/
structure ModelHead where
  format : Nat
  d      : Nat
  nclass : Nat
  id     : Word
  ntrees : Nat
  diemask : Nat
  nf     : Nat
  base   : Word
  nnodes : Nat
  crc    : Nat
deriving DecidableEq, Repr

/-- The header read. -/
def Pz.modelHead (z : Pz) (a : Nat) : ModelHead :=
  let f : Nat → Nat → Nat := fun off n => memLoad z.mem (a + off) n
  let m := f 0xE 2
  { format := f 3 1, d := f 2 1, nclass := f 0 2, id := BitVec.ofNat 32 (f 4 4), ntrees := f 8 4 % 2 ^ 17
    diemask := if m = 0 then 0xFFFF else m, nf := f 0xC 2 % 2 ^ 13, base := BitVec.ofNat 32 (f 0x10 4), nnodes := f 0x18 8
    crc := f 0x20 4 }

/-- Offset of the nodes in an image: 8-aligned after the tree table. -/
def nodesOff (ntrees : Nat) : Nat := (0x40 + 4 * ntrees + 7) / 8 * 8

/-- CRC-32C of an image with its CRC word as zero. -/
def Pz.imageCrc (z : Pz) (a len : Nat) : Nat :=
  crc32c (memBytes z.mem a 0x20 ++ leB 4 0 ++ memBytes z.mem (a + 0x24) (len - 0x24))

/-- The walk of R272 over a tree of `size` nodes from node `i`, `d` levels left: the index after the subtree with its
depth, or a node and a detail of R280. -/
def treeCheck (node : Nat → Nat) (size nf nclass : Nat) : Nat → Nat → Except (Nat × Nat) (Nat × Nat)
  | 0, i => .error (i, 1)
  | d + 1, i =>
    if size ≤ i then .error (i, 7)
    else
      let n := node i
      if ndLeaf n then
        if bits n 15 3 ≠ 0 ∨ bits n 1 0 ≠ 0 then .error (i, 6)
        else if nclass ≤ ndClass n then .error (i, 4)
        else if f32IsNaN (ndScore n) || f32IsInf (ndScore n) then .error (i, 5)
        else .ok (i + 1, 1)
      else if bit n 0 then .error (i, 6)
      else if nf ≤ ndFeat n then .error (i, 3)
      else match treeCheck node size nf nclass d (i + 1) with
        | .error e => .error e
        | .ok (r, dl) =>
          if i + ndOff n ≠ r then .error (i, 2)
          else match treeCheck node size nf nclass d r with
            | .error e => .error e
            | .ok (r', dr) => .ok (r', 1 + max dl dr)

/-- The trees of an image in order: index, first node's offset, nodes. -/
def treeRuns (count : Nat → Nat) : Nat → Nat → Nat → List (Nat × Nat × Nat)
  | 0, _, _ => []
  | n + 1, i, at0 => (i, at0, count i) :: treeRuns count n (i + 1) (at0 + count i)

/-- The trees of an image, checked: not yet placed, `addr` being the place in the image; or the failing tree with its node
and detail. -/
def Pz.imageTrees (z : Pz) (a : Nat) (h : ModelHead) : Except (Nat × Nat × Nat) (List Tree) :=
  let base := a + nodesOff h.ntrees
  let runs := treeRuns (fun i => memLoad z.mem (a + 0x40 + 4 * i) 4) h.ntrees 0 0
  runs.foldl (fun acc r =>
    match acc with
    | .error e => .error e
    | .ok ts =>
      match treeCheck (fun i => memLoad z.mem (base + 8 * (r.2.1 + i)) 8) r.2.2 h.nf h.nclass h.d 0 with
      | .error e => .error (r.1, e.1, e.2)
      | .ok (e, dep) =>
        if e ≠ r.2.2 then .error (r.1, e, 7)
        else .ok (ts ++ [{ idx := r.1, die := 0, addr := base + 8 * r.2.1, len := r.2.2, depth := dep, omitted := false }]))
    (.ok [])

/-! ## Placement (R279) -/

/-- Ranges of a die that are not free: trees, and regions granted to programs (R231, assumption log 18). -/
def Pz.usedRanges (z : Pz) (trees : List Tree) (d : Nat) : List (Nat × Nat) :=
  let grants := z.slots.flatMap (fun s => (s.2.active.toList ++ s.2.shadow.toList).flatMap (·.regions)) ++
    z.ctxs.flatMap (fun c => c.2.toList.flatMap (·.image.regions))
  ((trees.filter (fun t => t.die == d)).map (fun t => (t.addr, 8 * t.len))) ++ grants.map (fun r => (r.base, r.size))

/-- First address of a die's free SRAM that holds `n` bytes clear of the used ranges (assumption log 18: lowest). -/
def fitAt (used : List (Nat × Nat)) (d n : Nat) : Option Nat :=
  let lo := dieBase d + 100 * 1048576
  let cands := lo :: used.map (fun u => (u.1 + u.2 + 7) / 8 * 8)
  let ok := cands.filter (fun a => decide (lo ≤ a ∧ a + n ≤ dieBase d + dieSize d) && !used.any (fun u => meets a n u.1 u.2))
  match ok with
  | [] => none
  | a :: as => some (as.foldl min a)

/-- Expected visits of a die: the depths of the trees on it. -/
def dieVisits (ts : List Tree) (d : Nat) : Nat := (ts.filter (fun t => t.die == d)).foldl (fun n t => n + t.depth) 0

/-- Dies that may hold trees: in service and in the mask. -/
def Pz.eligible (z : Pz) (mask : Nat) : List Nat := (List.range 16).filter (fun d => z.dieOk d && bit mask d)

/-- The trees placed in order (R279): on the eligible die with the fewest visits that can hold it, lower die on a tie. The
answer keeps each tree's address in the image beside its place. -/
def Pz.place (z : Pz) (dies : List Nat) : List Tree → List Tree → List (Tree × Nat) → Option (List (Tree × Nat))
  | _, [], done => some done
  | held, t :: ts, done =>
    let best := dies.foldl (fun (b : Option (Nat × Nat)) d =>
      match fitAt (z.usedRanges held d) d (8 * t.len) with
      | none => b
      | some a =>
        match b with
        | none => some (d, a)
        | some (d0, a0) => if dieVisits held d < dieVisits held d0 then some (d, a) else some (d0, a0)) none
    match best with
    | none => none
    | some (d, a) =>
      let t' := { t with die := d, addr := a }
      z.place dies (held ++ [t']) ts (done ++ [(t', t.addr)])

/-! ## Loading (R280 to R283) -/

/-- Result bytes of a LOAD's reply (R280). -/
def loadReply (mode dies tree node detail : Nat) : List Byte :=
  leB 4 (mode + dies * 2 ^ 16) ++ leB 4 tree ++ leB 8 node ++ leB 1 detail

/-- Whether an ID is that of a model loading, staging, or being replaced (R283). -/
def Pz.modelBusy (z : Pz) (id : Word) : Bool :=
  z.models.any (fun m => (m.2.id == id && decide (m.2.st ≠ .active)) || (m.2.oldId == id && decide (m.2.st ≠ .active)))

/-- Whether an ID is loaded (R282). -/
def Pz.isLoaded (z : Pz) (id : Word) : Bool := (z.modelOf id).isSome

/-- A model changed. -/
def Pz.setModel (id : Word) (f : Model → Model) (z : Pz) : Pz := { z with models := tmod z.models id.toNat f }

/-- The first three checks of a LOAD, and R283: a status, or none. -/
def Pz.loadStatus (z : Pz) (id rep : Word) (a len : Nat) : Option Nat :=
  let h := z.modelHead a
  if !inDram a || a % 4096 != 0 || decide (dramBase + z.dramSize < a + len) || len != nodesOff h.ntrees + 8 * h.nnodes then
    some 6
  else if z.imageCrc a len ≠ h.crc then some 1
  else if id = 0 ∨ id = 0xFFFFFFFF ∨ id ≠ h.id ∨ z.isLoaded id then some 9
  else if z.modelBusy id then some 0xA
  else if rep ≠ 0 ∧ !z.isLoaded rep then some 9
  else if rep ≠ 0 ∧ z.modelBusy rep then some 0xA
  else none

/-- A LOAD begins (R280, R281): its first checks; then the image is read and checked until MODEL_LOAD_DONE, and the reply
waits. -/
def Pz.modelLoad (m : MbMsg) (z : Pz) : Pz :=
  let f : Nat → Nat → Nat := leAt m.payload
  let id : Word := BitVec.ofNat 32 (f 4 4)
  let rep : Word := BitVec.ofNat 32 (f 8 4)
  match z.loadStatus id rep (f 0x10 8) (f 0x18 8) with
  | some st => z.finish m st (loadReply 0 0 0 0 0)
  | none =>
    let h := z.modelHead (f 0x10 8)
    z.setModel id (fun _ => { id := id, depth := h.d, nclass := h.nclass, nf := h.nf, base := h.base
                              cfg := BitVec.ofNat 16 (f 0xC 2), st := .checking, trees := [], todo := [], old := []
                              oldId := rep, unload := none, repl := false, late := false, image := f 0x10 8
                              bytes := 0, done := f 1 1, eighths := 0, finish := [], ask := some m })

/-- Handles bound to one ID name another from now on (R282, R284). -/
def Pz.rebind (old new : Word) (z : Pz) : Pz :=
  let sw : Image → Image := fun i => { i with models := i.models.map (fun w => if w = old then new else w) }
  { z with
    slots := z.slots.map (fun (s : Nat × PSlot) => (s.1, { s.2 with active := s.2.active.map sw, shadow := s.2.shadow.map sw }))
    ctxs := z.ctxs.map (fun (c : Nat × Option Ctx) => (c.1, c.2.map (fun x => { x with image := sw x.image }))) }

/-- A model forgotten. -/
def Pz.dropModel (id : Word) (z : Pz) : Pz := { z with models := tblDel z.models id.toNat }

/-- A STAGING advisory (R284). -/
def Pz.stagingAdv (m : Model) (z : Pz) : Pz :=
  z.device true 0xC9 0 0 z.ctl.epoch m.id (leB 4 m.oldId.toNat ++ leB 4 m.id.toNat ++ leB 4 m.eighths ++
    leB 4 (m.trees.filter (·.omitted)).length ++
    (List.range 16).flatMap (fun d => leB 8 (if m.eighths = 8 then tget m.finish d else 0)))

/-- The STAGED advisory that a job's home owes, once nothing of its config epoch is staging and the cut of its commit has
closed, so that COMMITTED comes first (R329). -/
def Pz.tellStaged (tag : BitVec 24) (z : Pz) : Pz :=
  match z.job tag with
  | none => z
  | some j =>
    if j.tell && !j.staging && !z.ctl.cuts.any (fun c => c.tag == tag && c.kind.commit) then
      (z.setJob tag (fun q => { q with tell := false })).jobAdv 4 0 tag j.cfg 0 0 0 0 []
    else z

/-- Whether a model or a local model of a config epoch is not complete (R284, R329). -/
def Pz.stagingOf (z : Pz) (cfg : BitVec 16) : Bool :=
  z.models.any (fun m => m.2.cfg == cfg && (decide (m.2.st = .staging) || m.2.late)) ||
  z.ctl.sent.any (fun s => s.op == 1 && s.cfg == cfg && !s.miss)

/-- The staging of a config epoch may be complete: its jobs no longer stage. -/
def Pz.checkStaged (cfg : BitVec 16) (z : Pz) : Pz :=
  if z.stagingOf cfg then z
  else z.ctl.jobs.foldl (fun z j =>
    if j.2.staging && j.2.cfg == cfg then (z.setJob j.2.tag (fun q => { q with staging := false })).tellStaged j.2.tag else z) z

/-- Old trees on a die retired: they leave the active set; launches under way keep them. -/
def retireDie (d : Nat) (m : Model) : Model := { m with old := m.old.filter (fun t => t.die != d) }

/-- A staged replacement whose dies have all finished (R284). -/
def Pz.stageEnd (id : Word) (z : Pz) : Pz :=
  match z.modelOf id with
  | none => z
  | some m =>
    if m.todo.isEmpty && decide (m.st = .staging) then
      let m' := { m with st := .active, old := [], repl := true, eighths := 8 }
      Pz.checkStaged m.cfg (({ z with models := tput z.models id.toNat { m' with oldId := 0, finish := [] } }).stagingAdv m')
    else z

/-- The commit of one model's load (R282 to R284). -/
def Pz.commitModel (id : Word) (z : Pz) : Pz :=
  let m := tget z.models id.toNat
  match m.st with
  | .checking => z.setModel id (fun m => { m with late := true })
  | .shadow =>
    let z := if m.oldId = 0 then z else (z.dropModel m.oldId).rebind m.oldId id
    z.setModel id (fun m => { m with st := .active, trees := m.todo, todo := [], repl := m.oldId != 0, oldId := 0, late := false })
  | .planned =>
    let olds := ((z.modelOf m.oldId).map (·.trees)).getD []
    let z := (z.dropModel m.oldId).rebind m.oldId id
    let used := m.todo.map (·.die)
    let fin := ((List.range 16).filter (fun d => !used.any (· == d) && olds.any (fun t => t.die == d))).foldl
      (fun (t : Tbl Nat) d => tput t d z.now) []
    let m' := { m with st := .staging, old := olds.filter (fun t => used.any (· == t.die)), done := 0, eighths := 0
                       finish := fin, late := false }
    (({ z with models := tput z.models id.toNat m' }).stagingAdv m').stageEnd id
  | .active | .staging => z

/-- The commits and unloads of a config epoch (R282, R285). -/
def Pz.commitModels (cfg : BitVec 16) (z : Pz) : Pz :=
  let z := (z.models.filter (fun m => m.2.unload == some cfg)).foldl (fun z m => z.dropModel m.2.id) z
  (z.models.filter (fun m => m.2.cfg == cfg)).foldl (fun z m => z.commitModel m.2.id) z

/-- Trees copied from the image into SRAM: those with an uncorrectable word are omitted (R281). -/
def Pz.copyTrees (ps : List (Tree × Nat)) (z : Pz) : List Tree × Pz :=
  ps.foldl (fun (acc : List Tree × Pz) p =>
    let n := 8 * p.1.len
    match acc.2.badIn p.2 n with
    | some w => (acc.1 ++ [{ p.1 with omitted := true }], acc.2.uncorrMem w false)
    | none =>
      let z := acc.2.drainAhead p.1.addr n
      (acc.1 ++ [p.1], { z with mem := memCopy z.mem p.2 p.1.addr n })) ([], z)

/-- Dies that hold trees of a list, as a mask. -/
def diesMask (ts : List Tree) : Nat := (List.range 16).foldl (fun n d => n + b2n (ts.any (fun t => t.die == d)) * 2 ^ d) 0

/-- Whether a model's header is in range, and the totals (R280, check 4). -/
def Pz.headOk (z : Pz) (h : ModelHead) : Bool :=
  let others := (z.models.map Prod.snd).filter (fun m => m.st != .checking)
  h.format == 1 && decide (1 ≤ h.d ∧ h.d ≤ 32) && decide (1 ≤ h.nclass ∧ h.nclass ≤ 16) && decide (1 ≤ h.nf ∧ h.nf ≤ 4096) &&
  decide (1 ≤ h.ntrees ∧ h.ntrees ≤ 65536) && !(f32IsNaN h.base || f32IsInf h.base) && decide (others.length < 256) &&
  decide (others.foldl (fun n m => n + m.trees.length + m.todo.length) 0 + h.ntrees ≤ 1048576)

/-- A load that is refused at the end of its checks: nothing changes but its reply. -/
def Pz.loadFails (m : Model) (status tree node detail : Nat) (z : Pz) : Pz :=
  let z := z.dropModel m.id
  match m.ask with
  | some q => z.finish q status (loadReply 0 0 tree node detail)
  | none => z

/-- A load that succeeds: shadow or planned, its reply, and its commit when the Inkline has passed (R283). -/
def Pz.loadDone (m : Model) (mode : Nat) (z : Pz) : Pz :=
  let late := m.late
  let z := { z with models := tput z.models m.id.toNat { m with late := false, ask := none } }
  let z := match m.ask with
    | some q => z.finish q 0 (loadReply mode (diesMask m.todo) 0 0 0)
    | none => z
  if late then (z.commitModel m.id).checkStaged m.cfg else z

/-- MODEL_LOAD_DONE (R280 to R284): the rest of the checks, the placement, and the shadow copy. `done` held the MODE. -/
def Pz.modelDone (id : Word) (z : Pz) : Pz :=
  let m := tget z.models id.toNat
  if m.id ≠ id ∨ id = 0 ∨ m.st ≠ .checking then z
  else
    let h := z.modelHead m.image
    if !z.headOk h then z.loadFails m 0xE 0 0 0
    else match z.imageTrees m.image h with
      | .error (t, n, d) => z.loadFails m 0xD t n d
      | .ok ts =>
        let bytes := ts.foldl (fun n t => n + 8 * t.len) 0
        let dies := z.eligible h.diemask
        match z.place dies z.trees ts [] with
        | some ps =>
          let r := z.copyTrees ps
          r.2.loadDone { m with st := .shadow, todo := r.1, bytes := bytes } 1
        | none =>
          let olds := ((z.modelOf m.oldId).map (·.trees)).getD []
          let rest := z.trees.filter (fun t => !olds.any (fun o => o.addr == t.addr))
          if m.oldId = 0 ∨ m.done = 1 then z.loadFails m 7 0 0 0
          else match z.place dies rest ts [] with
            | none => z.loadFails m 7 0 0 0
            | some ps => z.loadDone { m with st := .planned, bytes := bytes
                                             todo := ps.map (fun p => { p.1 with addr := p.2 }) } 2

/-! ## Unloading (R285) -/

/-- An UNLOAD is scheduled for the commit of its config epoch, or refused. -/
def Pz.modelUnload (m : MbMsg) (z : Pz) : Pz :=
  let id : Word := BitVec.ofNat 32 (leAt m.payload 4 4)
  if z.modelBusy id then z.finish m 0xA []
  else if !z.isLoaded id then z.finish m 9 []
  else (z.setModel id (fun q => { q with unload := some (BitVec.ofNat 16 (leAt m.payload 0xC 2)) })).finish m 0 []

/-! ## Staging (R284) -/

/-- The longest prefix of the trees meant for a die that fits in its free SRAM, with places. -/
def Pz.stagePrefix (z : Pz) (d : Nat) : List Tree → List Tree → List (Tree × Nat)
  | _, [] => []
  | held, t :: ts =>
    match fitAt (z.usedRanges held d) d (8 * t.len) with
    | none => []
    | some a =>
      let t' := { t with addr := a }
      (t', t.addr) :: z.stagePrefix d (held ++ [t']) ts

/-- Old trees of a die retired one by one until a tree of `todo` fits or none is left; `n` at most. -/
def Pz.retireUntil (id : Word) (d : Nat) (todo : List Tree) : Nat → Pz → Pz
  | 0, z => z
  | n + 1, z =>
    let m := tget z.models id.toNat
    if !(z.stagePrefix d z.trees todo).isEmpty then z
    else match m.old.find? (fun t => t.die == d) with
      | none => z
      | some t => Pz.retireUntil id d todo n
          (z.setModel id (fun m => { m with old := m.old.filter (fun u => u.addr != t.addr) }))

/-- Advisories after each eighth of the bytes; the last one is the completion's. -/
def Pz.eighthAdvs (id : Word) (z : Pz) : Pz :=
  let m := tget z.models id.toNat
  let now := min 7 (if m.bytes = 0 then 0 else 8 * m.done / m.bytes)
  iter (fun z =>
    let m := tget z.models id.toNat
    let m' := { m with eighths := m.eighths + 1 }
    ({ z with models := tput z.models id.toNat m' }).stagingAdv m') (now - m.eighths) z

/-- STAGE_REGION_DONE (R284): the next region of a die is copied and added to its active set; with nothing left, the die's
old trees retire and it has finished. -/
def Pz.stageRegion (id : Word) (d : Nat) (z : Pz) : Pz :=
  let m0 := tget z.models id.toNat
  let mine := m0.todo.filter (fun t => t.die == d)
  if m0.id ≠ id ∨ m0.st ≠ .staging ∨ mine.isEmpty then z
  else
    let z := Pz.retireUntil id d mine (m0.old.length + 1) z
    let r := z.stagePrefix d z.trees mine
    if r.isEmpty then z
    else
      let cp := z.copyTrees r
      let bytes := r.foldl (fun n p => n + 8 * p.1.len) 0
      let z := cp.2.setModel id (fun m => { m with
        trees := m.trees ++ cp.1, done := m.done + bytes
        todo := m.todo.filter (fun t => !r.any (fun p => p.1.idx == t.idx)) })
      let z := if r.length < mine.length then z
        else z.setModel id (fun m => { retireDie d m with finish := tput m.finish d z.now })
      (z.eighthAdvs id).stageEnd id

/-- STAGE_REGION_DONE. -/
def execStageRegionDone (model : Word) (die : BitVec 4) (s : State) : Host.Outcome State Fault Refusal :=
  .next (s.onPz (Pz.stageRegion model die.toNat))

end Sys2Proof.Machine
end

