-- ==== Sys2Proof/Machine/PzBlotter.lean ====
section
/-!
DEFINITION. Sys2Proof/Machine/PzBlotter.lean: the Blotter: compare groups and their instances (R192, R193), votes (R194,
Table 8.6), checks of reductions (R195), deduplication hints (R197), test rounds (R202), health of units (R205 to R207).
-/

namespace Sys2Proof.Machine

/-! ## Digest records (Table 8.3) -/

/-- A digest record's body as the Blotter takes it. -/
def digRec (fleet : Word) (b : List Byte) : DigRec :=
  let f : Nat → Nat → Nat := leAt b
  let w := f 4 4
  let x := f 0x5C 4
  { fleet := fleet, role := bit w 12, unit := BitVec.ofNat 4 (bits x 23 20), exact := BitVec.ofNat 64 (f 0x10 8)
    count := f 0x20 5, nans := f 0x28 5, infs := f 0x30 5, kmin := BitVec.ofNat 32 (f 0x38 4), kmax := BitVec.ofNat 32 (f 0x3C 4)
    sum := f 0x40 12, sumsq := f 0x4C 12, clamped := bit w 4, incomplete := bit w 7, nokey := bit w 0, keygen := bit w 1
    e := BitVec.ofNat 8 (bits w 23 16), seedsel := BitVec.ofNat 3 (bits x 12 10)
    tbin := if bit x 8 then some (BitVec.ofNat 3 (bits x 19 17)) else none
    lsig := BitVec.ofNat 4 (bits x 16 13)
    sketch := (List.range 16).map (fun j => BitVec.ofNat 64 (f (0x60 + 8 * j) 8)) }

/-- The cell of a record, if its temperature is valid (R206). -/
def DigRec.cell (r : DigRec) : Option (BitVec 3 × BitVec 4) := r.tbin.map (fun t => (t, r.lsig))

/-! ## Health of units (R205 to R207) -/

/-- Key of a unit. -/
def unitKey (fleet : Word) (u : Nat) : Nat := 16 * (fleet.toNat % 2 ^ 20) + u

/-- Events up to and including the third charged mismatch, newest first. -/
def lastThree : List HEvent → Nat → List HEvent
  | _, 0 => []
  | [], _ => []
  | e :: es, n + 1 => e :: lastThree es (if e.clean then n + 1 else n)

/-- Whether the last three charged mismatches make a conditional suspect (R206): one cell, and four clean rounds outside it
since the first of the three. -/
def condCell (es : List HEvent) : Option (BitVec 3 × BitVec 4) :=
  let xs := lastThree es 3
  let bad := xs.filter (fun e => !e.clean)
  match bad.head?.bind (·.cell) with
  | none => none
  | some c =>
    let out := (xs.filter (fun e => e.clean && e.cell.isSome && !decide (e.cell = some c))).length
    if bad.length = 3 ∧ bad.all (fun e => decide (e.cell = some c)) ∧ 4 ≤ out then some c else none

/-- A charged mismatch (Table 8.8, R206). A mismatch that has no cell lies outside the conditional cell. -/
def Health.charge (cell : Option (BitVec 3 × BitVec 4)) (h : Health) : Health :=
  let es := lastThree ({ clean := false, cell := cell } :: h.events) 3
  let st : BitVec 2 := if h.st = 0 then 1 else 2
  let keep := h.cond && decide (cell = some h.cell)
  match condCell es with
  | some c => { st := 2, cond := true, cell := c, clean := 0, inCell := 0, events := es }
  | none => { st := st, cond := keep, cell := if keep then h.cell else default, clean := 0, inCell := 0, events := es }

/-- A clean round (Table 8.8). -/
def Health.pass (cell : Option (BitVec 3 × BitVec 4)) (h : Health) : Health :=
  let n := h.clean + 1
  let k := h.inCell + b2n (h.cond && decide (cell = some h.cell))
  let h := { h with clean := n, inCell := k, events := lastThree ({ clean := true, cell := cell } :: h.events) 3 }
  if h.st ≠ 0 ∧ 8 ≤ n ∧ (!h.cond ∨ 2 ≤ k) then { h with st := 0, cond := false, cell := default } else h

/-- A unit's entry of Table 15.7. -/
def Health.word (h : Health) : Nat :=
  h.st.toNat + b2n h.cond * 4 + h.cell.1.toNat * 8 + h.cell.2.toNat * 64

/-- A unit's health, from a round's outcome or a vote: stored, told to the leaf, and sent as a verdict when the state has
changed. `group` and `occ` are what Table 13.7 names for the cause. -/
def Pz.unitSet (fleet : Word) (u cause group occ round : Nat) (fate : RoundFate) (f : Health → Health) (z : Pz) : Pz :=
  let h := tget z.blot.units (unitKey fleet u)
  let h' := f h
  let z := { z with blot := { z.blot with units := tput z.blot.units (unitKey fleet u) h' } }
  let changed := h.st != h'.st || h.cond != h'.cond || decide (h.cell ≠ h'.cell)
  let z := if changed && z.role == 0 then z.leafUnitPut fleet u h'.word else z
  let z := match z.route fleet with
    | none => z
    | some r => z.emit (.health r.port.toNat fleet
        { unit := BitVec.ofNat 4 u, state := h'.st, cond := h'.cond, ctbin := h'.cell.1, csig := h'.cell.2
          clean := BitVec.ofNat 4 (min 15 h'.clean), round := BitVec.ofNat 16 round, fate := fate })
  if changed then
    let tag := ((z.route fleet).map (·.tag)).getD 0
    z.device false 0xC1 tag fleet z.ctl.epoch 0
      (leB 4 (u + h.st.toNat * 2 ^ 4 + h'.st.toNat * 2 ^ 6 + b2n h'.cond * 2 ^ 8 + h'.cell.1.toNat * 2 ^ 9 +
        h'.cell.2.toNat * 2 ^ 12 + cause * 2 ^ 16) ++ leB 4 (group + occ * 2 ^ 16))
  else z

/-! ## Instances (R192, R193) -/

/-- A declared group: every member carried. -/
def Group.declared (g : Group) : Bool := decide (0 < g.r ∧ g.members.length = g.r + g.nres)

/-- Key of a group. -/
def groupKey (tag : BitVec 24) (group : BitVec 16) : Nat := 2 ^ 16 * tag.toNat + group.toNat

/-- The base die whose slice holds a group (R192, assumption log 8): one of the dies in service. -/
def Pz.blotterDie (z : Pz) (tag : BitVec 24) (group : BitVec 16) : Nat :=
  let ds := (List.range 16).filter z.dieOk
  ds.getD (Config.blotterHash tag.toNat group.toNat % ds.length) 0

/-- The record of a member in an instance. -/
def Instance.recOf (i : Instance) (m : GMember) : Option DigRec :=
  i.recs.find? (fun r => r.fleet == m.fleet && r.unit == m.unit && r.role == m.role)

/-- A 64-byte bitmap over member indices. -/
def bitmap (f : Nat → Bool) : List Byte :=
  leB 64 ((List.range 510).foldl (fun n i => n + b2n (f i) * 2 ^ i) 0)

/-! ## The vote (R194) -/

/-- What a vote over some members found: per member index, in A and outside A; whether the tap is faulty. -/
structure Vote where
  inA   : List Nat
  out   : List Nat
  fault : Bool
deriving DecidableEq, Repr

/-- The KEYGEN that most of the records carry; none when neither does (DEDUCED). -/
def mostGen (rs : List DigRec) : Option Bool :=
  let a := (rs.filter (·.keygen)).length
  let b := rs.length - a
  if b < a then some true else if a < b then some false else none

/-- The vote among members, given by index with their records: the largest set of equal EXACT, of equals the one with the
lowest member (DESIGN CHOICE, assumption log 20). -/
def vote (ms : List (Nat × DigRec)) : Vote :=
  let gen := mostGen (ms.map (·.2))
  let el := ms.filter (fun m => !m.2.incomplete && !m.2.nokey && decide (some m.2.keygen = gen))
  let cls : DWord → List (Nat × DigRec) := fun x => el.filter (fun m => m.2.exact == x)
  let best := el.foldl (fun (b : List (Nat × DigRec)) m =>
    if b.length < (cls m.2.exact).length then cls m.2.exact else b) []
  let fault := match best.head? with
    | none => false
    | some r => best.any (fun m => m.2.count != r.2.count || m.2.sum != r.2.sum || m.2.kmin != r.2.kmin || m.2.kmax != r.2.kmax)
  { inA := best.map (·.1), out := (el.filter (fun m => !best.any (fun b => b.1 == m.1))).map (·.1), fault := fault }

/-- Outcome of a replica vote among `n` members (Table 8.6). -/
def Vote.outcome (v : Vote) (n : Nat) : Nat :=
  if v.fault then 7
  else if v.out.isEmpty then (if v.inA.length = n then 0 else 1)
  else if n < 2 * v.inA.length then 2 else 3

/-! ## Reductions (R195) -/

/-- Why a reduction is not checked: a reason of Table 13.7, the first that applies in its order; 0 for none. -/
def reduceReason (ms : List GMember) (cs : List (Option DigRec)) (res : Option DigRec) : Nat :=
  let have' := cs.filterMap id
  let all := have' ++ res.toList
  let same := match all.head? with
    | none => true
    | some r => all.all (fun x => x.e == r.e && x.seedsel == r.seedsel && x.count == r.count && x.keygen == r.keygen)
  if !same then 1
  else if all.any (fun x => decide (0 < x.nans ∨ 0 < x.infs)) then 2
  else if all.any (·.clamped) then 3
  else if have'.length < ms.length ∨ have'.any (·.incomplete) then 4
  else if res.isNone then 5
  else 0

/-- The largest difference and how many exceed t, over the 16 projections. -/
def reduceDiff (cs : List DigRec) (res : DigRec) (t : Nat) : Nat × Nat :=
  let ds := (List.range 16).map (fun j =>
    mag64 (res.sketch.getD j 0 - cs.foldl (fun a c => a + c.sketch.getD j 0) 0).toNat)
  (ds.foldl max 0, (ds.filter (fun d => decide (t < d))).length)

/-! ## Closing an instance -/

/-- The COMPARE verdict and its Inkwell record (Tables 13.7 and 15.2). -/
def Pz.compareVerdict (g : Group) (i : Instance) (outcome reason : Nat) (v : Vote) (miss : List Nat) (dmax exceed t : Nat)
    (z : Pz) : Pz :=
  let fields := leB 1 outcome ++ leB 1 reason ++ leB 1 i.occ.toNat ++ leB 1 0 ++ leB 2 g.group.toNat ++
    leB 1 v.inA.length ++ leB 1 g.r ++ leB 8 dmax ++ leB 8 t ++ leB 4 exceed ++ leB 4 0 ++
    bitmap (fun n => v.inA.any (· == n)) ++ bitmap (fun n => v.out.any (· == n)) ++ bitmap (fun n => miss.any (· == n))
  (z.record 4 Config.compareCode (i.die * 256) g.tag.toNat fields).device false 0xC2 g.tag 0 i.epoch 0 fields

/-- A DEDUP advisory (R197): at most 252 fleet IDs, what a record of 17 units holds. -/
def Pz.dedup (g : Group) (i : Instance) (exact : DWord) (fleets : List Word) (z : Pz) : Pz :=
  let fs := fleets.take 252
  z.device true 0xCA g.tag 0 i.epoch 0 (leB 2 g.group.toNat ++ leB 1 i.occ.toNat ++ leB 1 fs.length ++ leB 4 0 ++
    leB 8 exact.toNat ++ fs.flatMap (fun w => leB 4 w.toNat))

/-- The minority members of a vote are charged (R194). -/
def Pz.chargeOut (g : Group) (i : Instance) (v : Vote) (z : Pz) : Pz :=
  v.out.foldl (fun z n =>
    match (g.members[n]?).bind i.recOf with
    | none => z
    | some r => z.unitSet r.fleet r.unit.toNat 0 g.group.toNat i.occ.toNat 0 .none (Health.charge r.cell)) z

/-- An instance is judged (R194, R195, R197). -/
def Pz.judge (g : Group) (i : Instance) (z : Pz) : Pz :=
  let ix := List.range g.members.length
  let recAt : Nat → Option DigRec := fun n => (g.members[n]?).bind i.recOf
  let roleAt : Nat → Bool := fun n => ((g.members[n]?).map (·.role)).getD false
  let voters := if g.reduce then ix.filter roleAt else ix
  let v := vote (voters.filterMap (fun n => (recAt n).map (fun r => (n, r))))
  let major := decide (voters.length < 2 * v.inA.length)
  let z := if !v.fault && major then z.chargeOut g i v else z
  let first := (v.inA.head?).bind recAt
  let miss := ix.filter (fun n => (voters.any (· == n) && !v.inA.any (· == n) && !v.out.any (· == n)) || (recAt n).isNone)
  let z := if g.reduce then
      let cIdx := ix.filter (fun n => !roleAt n)
      let cs := cIdx.map recAt
      let res := if major then first else none
      let reason := reduceReason (cIdx.filterMap (fun n => g.members[n]?)) cs res
      if v.fault then z.compareVerdict g i 7 0 v miss 0 0 0
      else match res with
        | some r =>
          if reason ≠ 0 then z.compareVerdict g i 6 reason v miss 0 0 0
          else
            let have' := cs.filterMap id
            let t := tolerance r.count (have'.foldl (fun n c => n + c.sumsq) 0) g.r g.depth g.accf (if g.ktol = 0 then 8 else g.ktol)
            let d := reduceDiff have' r t
            z.compareVerdict g i (if 0 < d.2 then 5 else 4) 0 v miss d.1 d.2 t
        | none => z.compareVerdict g i 6 reason v miss 0 0 0
    else z.compareVerdict g i (v.outcome g.r) 0 v miss 0 0 0
  match first with
  | some r => if 2 ≤ v.inA.length then z.dedup g i r.exact (v.inA.filterMap (fun n => (recAt n).map (·.fleet))) else z
  | none => z

/-- An instance closes (R193): it is judged and remembered as closed. -/
def Pz.closeInst (g : Group) (i : Instance) (z : Pz) : Pz :=
  let is : Instance → Bool := fun x => x.tag == i.tag && x.group == i.group && x.epoch == i.epoch && x.occ == i.occ
  Pz.judge g i { z with blot := { z.blot with opens := z.blot.opens.filter (fun x => !is x)
                                              closed := (i.tag, i.group, i.epoch, i.occ) :: z.blot.closed } }

/-- A record of a declared group (R192, R193). -/
def Pz.joinGroup (g : Group) (epoch : Word) (occ : Byte) (r : DigRec) (z : Pz) : Pz :=
  let is : Instance → Bool := fun x => x.tag == g.tag && x.group == g.group && x.epoch == epoch && x.occ == occ
  let bump (z : Pz) (f : Blotter → Blotter) : Pz := { z with blot := f z.blot }
  if !g.members.any (fun m => m.fleet == r.fleet && m.unit == r.unit && m.role == r.role) then
    bump z (fun b => { b with stray := b.stray + 1 })
  else if z.blot.closed.any (fun c => decide (c = (g.tag, g.group, epoch, occ))) then bump z (fun b => { b with late := b.late + 1 })
  else
    let die := z.blotterDie g.tag g.group
    let old := z.blot.opens.find? is
    if old.isNone && decide (65536 ≤ (z.blot.opens.filter (fun x => x.die == die)).length) then
      (bump z (fun b => { b with ovr := b.ovr + 1 })).device true 0xCE g.tag 0 epoch 0 (leB 4 (g.group.toNat + die * 2 ^ 16))
    else
      let i := old.getD { tag := g.tag, group := g.group, epoch := epoch, occ := occ, die := die, opened := z.now, recs := [] }
      if i.recs.any (fun x => x.fleet == r.fleet && x.unit == r.unit && x.role == r.role) then
        bump z (fun b => { b with late := b.late + 1 })
      else
        let i := { i with recs := i.recs ++ [r] }
        if i.recs.length = g.members.length then z.closeInst g i
        else bump z (fun b => { b with opens := b.opens.filter (fun x => !is x) ++ [i] })

/-! ## Test rounds (R202) -/

/-- The Inkwell record of a test instance (assumption log 15). -/
def Pz.testRecord (fleet : Word) (round : Nat) (units : List Nat) (fate : Nat) (z : Pz) : Pz :=
  z.record 4 Config.compareCode (z.blotterDie 0 (BitVec.ofNat 16 round) * 256) 0
    (leB 4 fleet.toNat ++ leB 4 round ++ leB 4 fate ++ units.flatMap (leB 4))

/-- A round's outcome for one unit. -/
def Pz.roundFate (round : Nat) (fate : RoundFate) (r : DigRec) (z : Pz) : Pz :=
  z.unitSet r.fleet r.unit.toNat 1 round 0 round fate
    (match fate with
      | .clean => Health.pass r.cell
      | .charged => Health.charge r.cell
      | _ => id)

/-- A test instance decided: units charged, units clean, or in dispute. -/
def Pz.roundEnd (i : Instance) (fate : RoundFate) (rs : List DigRec) (z : Pz) : Pz :=
  let code := match fate with
    | .clean => 0
    | .charged => 1
    | _ => 2
  let z := rs.foldl (fun z r => z.roundFate i.group.toNat fate r) z
  z.testRecord ((i.recs.head?.map (·.fleet)).getD 0) i.group.toNat (rs.map (·.unit.toNat)) code

/-- Which of three is charged: the one that differs from the other two; the first two when all differ. -/
def oddOne (a b c : DigRec) : List DigRec :=
  if a.exact = b.exact then (if c.exact = a.exact then [] else [c])
  else if a.exact = c.exact then [b]
  else if b.exact = c.exact then [a]
  else [a, b]

/-- A test record (R202). `occ` 1 marks an instance whose first run differed: its three results decide. -/
def Pz.joinTest (tag : BitVec 24) (epoch : Word) (group : BitVec 16) (r : DigRec) (z : Pz) : Pz :=
  if r.incomplete || r.nokey then z
  else
    let is : Instance → Bool := fun x => x.group == group && x.recs.any (fun y => y.fleet == r.fleet)
    let old := z.blot.tests.find? is
    let rest := z.blot.tests.filter (fun x => !is x)
    let i := old.getD { tag := tag, group := group, epoch := epoch, occ := 0, die := 0, opened := z.now, recs := [] }
    let put (x : Instance) (z : Pz) : Pz := { z with blot := { z.blot with tests := rest ++ [x] } }
    let drop (z : Pz) : Pz := { z with blot := { z.blot with tests := rest } }
    if i.occ = 0 then
      match i.recs with
      | [] => put { i with recs := [r] } z
      | a :: _ =>
        if a.unit = r.unit then z
        else if a.exact = r.exact then (drop z).roundEnd { i with recs := [a] } .clean [a, r]
        else (put { i with occ := 1, opened := z.now, recs := [a, r] } z).roundEnd i .disputed [a, r]
    else
      let again := i.recs.drop 2
      if again.any (fun x => x.unit == r.unit) then z
      else match again with
        | [a, b] =>
          let pair := [a, b, r].filter (fun x => (i.recs.take 2).any (fun y => y.unit == x.unit))
          let third := [a, b, r].filter (fun x => !(i.recs.take 2).any (fun y => y.unit == x.unit))
          match pair ++ third with
          | [x, y, w] => (drop z).roundEnd i .charged (oddOne x y w)
          | _ => drop z
        | _ => put { i with recs := i.recs ++ [r] } z

/-! ## Rows -/

/-- Whether a digest record's Blotter home lies above this device (R192). -/
def Pz.blotterUp (z : Pz) (tag : BitVec 24) (group : BitVec 16) : Bool :=
  let g := tget z.blot.groups (groupKey tag group)
  decide (z.role < max (z.attach tag) (if g.declared then g.home.toNat else 0))

/-- A digest record at this device (R192): test results to their round; a record whose group is declared here to its
instance; below the home upward on Trace; any other is counted and discarded. -/
def Pz.blotterRecord (fleet : Word) (tag : BitVec 24) (epoch : Word) (body : List Byte) (z : Pz) : Pz :=
  let r := digRec fleet body
  let group : BitVec 16 := BitVec.ofNat 16 (leAt body 2 2)
  if bit (leAt body 4 4) 3 then z.joinTest tag epoch group r
  else
    let g := tget z.blot.groups (groupKey tag group)
    if g.declared && decide (g.home.toNat ≤ z.role) then z.joinGroup g epoch (BitVec.ofNat 8 (bits (leAt body 4 4) 31 24)) r
    else if z.blotterUp tag group then
      Pz.sendUp { fleet := fleet, cls := 3, ty := 0x0B, ink := epoch, mark := false
                  body := traceHead 0xD1 1 body.length fleet.toNat tag.toNat 0 0 z.now ++ body } z
    else { z with blot := { z.blot with stray := z.blot.stray + 1 } }

/-- BLOTTER_RECORD. -/
def execBlotterRecord (fleet : Word) (tag : BitVec 24) (epoch : Word) (body : List Byte) (s : State) :
    Host.Outcome State Fault Refusal :=
  .next (s.onPz (Pz.blotterRecord fleet tag epoch body))

/-- TIMEOUT of a group in ns (Table 8.5). -/
def Group.limit (g : Group) : Nat := 1000000 * (if g.timeout = 0 then 10 else g.timeout)

/-- BLOTTER_TIMEOUT (R193): an instance closes at TIMEOUT after its first record; a repeated test round in which no third
unit ran charges both, and one with a single result stays undecided (R202, assumption log 20). -/
def Pz.blotterTimeout (tag : BitVec 24) (group : BitVec 16) (epoch : Word) (occ : Byte) (z : Pz) : Pz :=
  let is : Instance → Bool := fun x => x.tag == tag && x.group == group && x.epoch == epoch && x.occ == occ
  match z.blot.opens.find? is with
  | some i =>
    let g := tget z.blot.groups (groupKey tag group)
    (z.advanceTo (i.opened + g.limit)).closeInst g i
  | none =>
    match z.blot.tests.find? is with
    | none => z
    | some i =>
      let z := z.advanceTo (i.opened + 10000000)
      let z := { z with blot := { z.blot with tests := z.blot.tests.filter (fun x => !is x) } }
      if i.occ = 1 ∧ 2 ≤ (i.recs.drop 2).length then z.roundEnd i .charged (i.recs.take 2) else z

/-- BLOTTER_TIMEOUT. -/
def execBlotterTimeout (tag : BitVec 24) (group : BitVec 16) (epoch : Word) (occ : Byte) (s : State) :
    Host.Outcome State Fault Refusal :=
  .next (s.onPz (Pz.blotterTimeout tag group epoch occ))

/-! ## Declarations (Table 8.5, R192) -/

/-- A GROUP_DECL (R192): recorded, or refused with BINDING; a declaration for another level with BADDEST. -/
def Pz.groupDecl (m : MbMsg) (z : Pz) : Pz :=
  let f : Nat → Nat → Nat := leAt m.payload
  let w4 := f 4 4
  let w8 := f 8 4
  let wc := f 0xC 4
  let kind := f 0 1
  let tag : BitVec 24 := BitVec.ofNat 24 (f 1 3)
  let group : BitVec 16 := BitVec.ofNat 16 (bits w4 31 16)
  let r := bits w4 15 8
  let nres := bits w4 7 0
  let first := bits wc 24 16
  let nmem := bits wc 8 0
  let total := r + nres
  let ms : List GMember := (List.range nmem).map (fun i =>
    let x := f (0x10 + 8 * i) 8
    { fleet := BitVec.ofNat 32 x, unit := BitVec.ofNat 4 (bits x 35 32), role := bit x 36 })
  let head := slice m.payload 0 0xC
  let key := groupKey tag group
  let old := tget z.blot.groups key
  let shape := (kind == 1 || kind == 2) && decide (2 ≤ r) && (if kind = 1 then nres == 0 else decide (1 ≤ nres)) &&
    decide (1 ≤ nmem ∧ nmem ≤ 508) && decide (16 + 8 * nmem ≤ m.payload.length) && decide (1 ≤ bits w8 31 24)
  if bits wc 31 30 ≠ z.role then z.finish m 3 []
  else if !shape ∨ (m.tag ≠ 0 ∧ m.tag ≠ tag) then z.finish m 9 []
  else if first = 0 then
    if total < nmem then z.finish m 9 []
    else
      let g : Group := { tag := tag, group := group, reduce := kind == 2, r := r, nres := nres, depth := bits w8 31 24
                         accf := bits w8 23 21, ktol := bits w8 15 8, timeout := bits w8 7 0
                         home := BitVec.ofNat 2 (bits wc 31 30), head := head, members := ms }
      Pz.finish m 0 [] { z with blot := { z.blot with groups := tput z.blot.groups key g } }
  else if old.head ≠ head ∨ first ≠ old.members.length ∨ total < first + nmem then z.finish m 9 []
  else
    let g := { old with members := old.members ++ ms }
    Pz.finish m 0 [] { z with blot := { z.blot with groups := tput z.blot.groups key g } }

end Sys2Proof.Machine
end

