-- ==== Sys2Proof/Machine/PzLive.lean ====
section
/-!
DEFINITION. Sys2Proof/Machine/PzLive.lean: liveness of leaves (R307 to R309, Table 13.3), fences (R310) and disagreements
(R311).
-/

namespace Sys2Proof.Machine

/-- LIVE codes (Table 9.7). -/
def lvLive : BitVec 2 := 0
/-- Late. -/
def lvLate : BitVec 2 := 1
/-- Mute. -/
def lvMute : BitVec 2 := 2
/-- Fenced. -/
def lvFenced : BitVec 2 := 3

/-- The state of the rows of Table 13.3: LIVE, or EVAL while fenced. -/
def Route.state (r : Route) : BitVec 2 := if r.live = lvFenced then r.eval else r.live

/-- Whether frames are expected from the leaf (R307). -/
def Route.expected (r : Route) : Bool := r.tag != 0 && !r.torn && !r.stopped && !r.idle

/-- Period of a job in ns; 200 µs for a leaf without one (R307). -/
def Pz.periodOf (z : Pz) (tag : BitVec 24) : Nat := match z.job tag with
  | some j => 50000 * 2 ^ j.pcode.toNat
  | none => 200000

/-- LATE_T in ns (R307). -/
def Pz.lateT (z : Pz) (r : Route) : Nat :=
  max (max 1 (z.fld PzR.VD_LIVE_LATE_N) * z.periodOf r.tag) (1000000 * z.fld PzR.VD_LIVE_LATE_MS)

/-- MUTE_T in ns. -/
def Pz.muteT (z : Pz) : Nat := 1000000 * max 1 (z.fld PzR.VD_LIVE_MUTE_MS)

/-- PROBE_MS in ns. -/
def Pz.probeT (z : Pz) : Nat := 1000000 * max 1 (z.fld PzR.VD_LIVE_PROBE_MS)

/-- Registered chain master of a port; 0 for none. -/
def Pz.masterOf (z : Pz) (port : Nat) : Word := ((tblLookup z.ctl.chains port).map (·.master)).getD 0

/-- A disagreement exists while a leaf is Mute, not fenced and owned (R311): it begins or ends with what a change of the
entry makes of that; `fresh` restarts one under a new tag. -/
def Route.disagree (now : Nat) (fresh : Bool) (r : Route) : Route :=
  if r.live = lvMute ∧ r.tag ≠ 0 then
    (if r.disagAt.isSome && !fresh then r else { r with disagAt := some now, seconds := 0 })
  else { r with disagAt := none, seconds := 0 }

/-- The LIVENESS verdict and its record (Tables 13.7 and 15.3). -/
def Pz.livenessVerdict (fleet : Word) (old : BitVec 2) (z : Pz) : Pz :=
  match z.route fleet with
  | none => z
  | some r =>
    let fields := leB 4 (r.live.toNat + old.toNat * 2 ^ 2 + r.state.toNat * 2 ^ 4 + b2n r.stopped * 2 ^ 6 +
        r.pos.toNat * 2 ^ 16 + r.port.toNat * 2 ^ 22) ++ leB 4 (z.masterOf r.port.toNat).toNat ++ leB 8 r.lastInst ++
      leB 8 r.lastArr ++ leB 8 r.evidAt
    (z.record 3 0x0A01 0 r.tag.toNat fields).device false 0xC0 r.tag fleet r.inkEp 0 fields

/-- A row of Table 13.3 fires: the state becomes `st`; a verdict on a change of LIVE (R308). -/
def Pz.toLive (fleet : Word) (st : BitVec 2) (z : Pz) : Pz :=
  match z.route fleet with
  | none => z
  | some r =>
    if r.state = st then z
    else
      let now := z.now
      let z := z.setRoute fleet (fun r =>
        let r := if r.live = lvFenced then { r with eval := st } else { r with live := st }
        let r := if st = lvMute then { r with muteAt := now } else r
        let r := if r.live = lvLate then { r with probeAt := now } else r
        r.disagree now false)
      if r.live = lvFenced then z else z.livenessVerdict fleet r.live

/-- A frame of a leaf; `newer` when its instant is later than LAST_INST. -/
def Pz.liveFrame (fleet : Word) (newer : Bool) (z : Pz) : Pz :=
  match z.route fleet with
  | none => z
  | some r =>
    let now := z.now
    let z := z.setRoute fleet (fun r => { r with frameAt := now, evidAt := now })
    if newer then (if r.state = lvLive then z else z.toLive fleet lvLive)
    else if r.state = lvMute then z.toLive fleet lvLate else z

/-- A member report of a leaf. -/
def Pz.liveReport (fleet : Word) (z : Pz) : Pz :=
  match z.route fleet with
  | none => z
  | some r =>
    let now := z.now
    let z := z.setRoute fleet (fun r => { r with reportAt := now, evidAt := now })
    if r.state = lvMute then z.toLive fleet lvLate
    else if r.state = lvLate ∧ !r.expected then z.toLive fleet lvLive else z

/-- Any other evidence of a leaf (R307). -/
def Pz.liveOther (fleet : Word) (z : Pz) : Pz :=
  match z.route fleet with
  | none => z
  | some r =>
    let now := z.now
    let z := z.setRoute fleet (fun r => { r with evidAt := now })
    if r.state = lvMute then z.toLive fleet lvLate else z

/-- The timed rows of Table 13.3 for one entry. -/
def Pz.evalRoute (z : Pz) (fleet : Word) : Pz :=
  match z.route fleet with
  | none => z
  | some r =>
    if r.state = lvLive then
      if (if r.expected then r.frameAt else r.reportAt) + z.lateT r ≤ z.now then z.toLive fleet lvLate else z
    else if r.state = lvLate ∧ r.evidAt + z.muteT ≤ z.now then z.toLive fleet lvMute
    else z

/-- LIVENESS_EVAL (R308): the device's next evaluation, at the next multiple of 250 µs (assumption log 4). -/
def Pz.livenessEval (z : Pz) : Pz :=
  let z := z.advanceTo ((z.now / 250000 + 1) * 250000)
  ((z.routes.filter (fun p => p.2.valid)).map (fun p => p.2.fleet)).foldl Pz.evalRoute z

/-- LIVENESS_EVAL. -/
def execLivenessEval (s : State) : Host.Outcome State Fault Refusal := .next (s.onPz Pz.livenessEval)

/-- LIVENESS_PROBE (R309): the next query of a leaf that is Late or Mute, through its chain master. -/
def Pz.livenessProbe (fleet : Word) (z : Pz) : Pz :=
  match z.route fleet with
  | none => z
  | some r =>
    if r.live ≠ lvLate ∧ r.live ≠ lvMute then z
    else
      let z := z.advanceTo (r.probeAt + z.probeT)
      let now := z.now
      (z.setRoute fleet (fun r => { r with probeAt := now, probes := r.probes + 1 })).emit (.probe r.port.toNat fleet)

/-- LIVENESS_PROBE. -/
def execLivenessProbe (fleet : Word) (s : State) : Host.Outcome State Fault Refusal :=
  .next (s.onPz (Pz.livenessProbe fleet))

/-- DISAGREE_TICK (R311): the next whole second of a disagreement. -/
def Pz.disagreeTick (fleet : Word) (z : Pz) : Pz :=
  match z.route fleet with
  | none => z
  | some r =>
    match r.disagAt with
    | none => z
    | some t =>
      let z := z.advanceTo (t + (r.seconds + 1) * 1000000000)
      let z := z.setRoute fleet (fun r => { r with seconds := r.seconds + 1 })
      let fields := leB 4 (r.seconds + 1) ++ leB 4 (z.masterOf r.port.toNat).toNat ++ leB 8 r.muteAt ++ leB 8 r.evidAt ++
        leB 8 r.probes.toNat
      (z.record 3 0x0A02 0 r.tag.toNat fields).device true 0xC8 r.tag fleet r.inkEp 0 fields

/-- DISAGREE_TICK. -/
def execDisagreeTick (fleet : Word) (s : State) : Host.Outcome State Fault Refusal :=
  .next (s.onPz (Pz.disagreeTick fleet))

/-- A FENCE or UNFENCE takes effect (R308, R310); one already in effect changes nothing. -/
def Pz.applyFence (fleet : Word) (on : Bool) (z : Pz) : Pz :=
  match z.route fleet with
  | none => z
  | some r =>
    let now := z.now
    if on == (r.live == lvFenced) then z.setRoute fleet (fun r => { r with fence := none })
    else
      let z := z.setRoute fleet (fun r =>
        let r := if on then { r with eval := r.live, live := lvFenced, fence := none }
          else { r with live := r.eval, fence := none }
        r.disagree now true)
      z.livenessVerdict fleet r.live

/-- A fence notice for one leaf (R310): at once, or kept for the Inkline EFF_EP; relayed to the leaf. -/
def Pz.fenceLeaf (fleet : Word) (on : Bool) (eff : Word) (z : Pz) : Pz :=
  match z.route fleet with
  | none => z
  | some r =>
    let z := z.emit (.fence r.port.toNat fleet on eff)
    if eff = 0 ∨ !laterInk eff z.ctl.epoch then z.applyFence fleet on
    else z.setRoute fleet (fun r => { r with fence := some (eff, on) })

/-- The fences of a job's leaves whose Inkline has applied to its chains (R310). -/
def Pz.dueFences (tag : BitVec 24) (epoch : Word) (z : Pz) : Pz :=
  (z.routes.filter (fun p => p.2.valid && p.2.tag == tag)).foldl (fun z p =>
    match p.2.fence with
    | some (e, on) => if laterInk e epoch then z else z.applyFence p.2.fleet on
    | none => z) z

end Sys2Proof.Machine
end

