-- ==== Sys2Proof/Machine/PzCtl.lean ====
section
/-!
DEFINITION. Sys2Proof/Machine/PzCtl.lean: the Control conversation of Polornaz (R323 to R326), leases and epochs (R318 to
R320), Inklines on their way down (R321), leaf images and arming (R326 to R328), and moves of ownership (R331, R336).
-/

namespace Sys2Proof.Machine

/-! ## Who is there -/

/-- The parent's fleet ID; 0 while unknown. -/
def Pz.parent (z : Pz) : Word := z.reg 0x80008

/-- Registered leaves whose entries pass a test. -/
def Pz.leavesWith (z : Pz) (ok : Route → Bool) : List Word :=
  (z.routes.filter (fun p => p.2.valid && !p.2.refused && ok p.2)).map (fun p => p.2.fleet)

/-- Leaves that a job owns. -/
def Pz.jobLeaves (z : Pz) (tag : BitVec 24) : List Word := z.leavesWith (fun r => r.tag == tag)

/-- Ports whose chains hold a leaf of the job. -/
def Pz.jobPorts (z : Pz) (tag : BitVec 24) : List Nat :=
  (List.range 16).filter (fun p => !(z.leavesWith (fun r => r.tag == tag && r.port.toNat == p)).isEmpty)

/-- Children that are not silent, with their ports. -/
def Pz.liveKids (z : Pz) : List (Word × Nat) :=
  (z.ctl.kids.filter (fun k => !k.2.silent)).map (fun k => (BitVec.ofNat 32 k.1, k.2.port))

/-- A child's entry made or changed. -/
def Pz.putKid (kid : Word) (f : Child → Child) (z : Pz) : Pz :=
  { z with ctl := { z.ctl with kids := tblIns z.ctl.kids kid.toNat (f (tget z.ctl.kids kid.toNat)) } }

/-- The Control handler hears from a device (R325, R335): a child, a chain master, another leaf, or else its parent, whose
fleet ID it learns so (DEDUCED, assumption log 25). -/
def Pz.heard (sender : Word) (z : Pz) : Pz :=
  let now := z.now
  if (tblLookup z.ctl.kids sender.toNat).isSome then
    z.putKid sender (fun k => { k with heard := now, silent := false })
  else if (z.route sender).isSome then
    Pz.liveOther sender { z with ctl := { z.ctl with
      chains := z.ctl.chains.map (fun (c : Nat × ChainReg) => if c.2.master = sender then (c.1, { c.2 with heard := now }) else c) } }
  else if z.role = 2 then z
  else { z with ctl := { z.ctl with parentAt := now } }.setReg 0x80008 sender

/-! ## Sending and answering (R323, R324) -/

/-- A configuration message sent on a port towards `to`; all but KEEPALIVE are kept until `leaves` have answered. -/
def Pz.sendAsk (ask : Option MbMsg) (rcpt : Word) (port op : Nat) (tag : BitVec 24) (cfg : BitVec 16) (arg0 arg1 : Nat)
    (body : List Byte) (leaves : List Word) (z : Pz) : Pz :=
  let q := tget z.ctl.cseqs port + 1
  let m0 := z.mkMsg 1 8 (cfgBody tag.toNat op q.toNat cfg.toNat z.fleet.toNat arg0 arg1 body)
  let m : Message := if port < 16 then { m0 with fleet := rcpt } else m0
  let z := Pz.send port m { z with ctl := { z.ctl with cseqs := tput z.ctl.cseqs port q } }
  if op = 8 then z
  else
    let s : Sent := { rcpt := rcpt, port := port, op := BitVec.ofNat 8 op, cseq := q, tag := tag, cfg := cfg, msg := m, sends := 1
                      first := z.now, miss := false, leaves := leaves, ask := ask }
    { z with ctl := { z.ctl with sent := z.ctl.sent ++ [s] } }

/-- A configuration message for one receiver. -/
def Pz.sendCfg (rcpt : Word) (port op : Nat) (tag : BitVec 24) (cfg : BitVec 16) (arg0 arg1 : Nat) (body : List Byte)
    (z : Pz) : Pz :=
  z.sendAsk none rcpt port op tag cfg arg0 arg1 body [rcpt]

/-- A configuration message to the parent, while there is a way to it. -/
def Pz.askParent (op : Nat) (tag : BitVec 24) (cfg : BitVec 16) (arg0 arg1 : Nat) (body : List Byte) (z : Pz) : Pz :=
  if z.role = 2 then z else match z.upPort with
    | some p => z.sendCfg z.parent p op tag cfg arg0 arg1 body
    | none => z

/-- A configuration message to a registered leaf. -/
def Pz.sendLeaf (fleet : Word) (op : Nat) (tag : BitVec 24) (cfg : BitVec 16) (arg0 arg1 : Nat) (body : List Byte)
    (z : Pz) : Pz :=
  match z.route fleet with
  | none => z
  | some r => z.sendCfg fleet r.port.toNat op tag cfg arg0 arg1 body

/-- The first whole Control message that a test admits leaves those that wait. -/
def Pz.dropReady (ok : Message → Bool) (z : Pz) : Pz :=
  match z.ing.ready.find? (fun m => ok m.2) with
  | none => z
  | some m => { z with ing := { z.ing with ready := z.ing.ready.erase m } }

/-- Whether a message is the configuration message of a header and OP. -/
def isCfg (h : CtlHead) (op : Nat) (m : Message) : Bool :=
  m.ty == 8 && leAt m.body 0 1 == op && leAt m.body 6 2 == h.cseq.toNat && leAt m.body 8 4 == h.sender.toNat

/-- Whether a message has been acted on. -/
def Pz.known (z : Pz) (h : CtlHead) (op : Nat) : Bool := z.ctl.acted.any (fun a => a.isOf h op)

/-- A message is acted on once; a further copy gets the acknowledgement that the first one got, once there is one. -/
def Pz.once (h : CtlHead) (op : Nat) (f : Pz → Pz) (z : Pz) : Pz :=
  let z := (z.dropReady (isCfg h op)).heard h.sender
  if z.known h op then
    match z.ctl.answers.find? (fun a => a.1 == h.sender && a.2.1 == h.cseq) with
    | some a => z.sendTo h.sender (z.mkMsg 1 9 a.2.2)
    | none => z
  else
    f { z with ctl := { z.ctl with acted :=
      ({ sender := h.sender, cseq := h.cseq, op := op, cfg := h.cfg, answer := none } :: z.ctl.acted).take 256 } }

/-- The acknowledgement OK of a message. -/
def Pz.ackOk (h : CtlHead) (op : Nat) (z : Pz) : Pz := z.answer h.sender h.cseq op 0 0 h.cfg 0 0 []

/-- A message sent is no longer repeated. -/
def Pz.dropSent (s : Sent) (z : Pz) : Pz := { z with ctl := { z.ctl with sent := z.ctl.sent.erase s } }

/-- Every message of an operation for a tag and receiver is given up. -/
def Pz.giveUp (ok : Sent → Bool) (z : Pz) : Pz := { z with ctl := { z.ctl with sent := z.ctl.sent.filter (fun s => !ok s) } }

/-! ## Leases (R319, Table 14.1) -/

/-- The lease registers follow. -/
def Pz.showLease (z : Pz) : Pz :=
  (z.setReg 0x8000C (if z.role = 2 then z.ctl.origin else z.ctl.next)).setReg 0x80010
    (BitVec.ofNat 32 (min 65535 z.ctl.granted.length * 65536 + min 65535 z.ctl.left))

/-- Size of the lease that a device of a role holds. -/
def leaseSize (role : Nat) : Nat := if role = 1 then 4096 else 256

/-- Epochs that a device still holds. -/
def Pz.leaseTotal (z : Pz) : Nat := z.ctl.spare.foldl (fun n s => n + s.2) z.ctl.left

/-- A new lease is requested when fewer than a quarter of the epochs remain. -/
def Pz.wantLease (z : Pz) : Pz :=
  let n := leaseSize z.role
  if z.role = 2 ∨ n ≤ 4 * z.leaseTotal ∨ z.parent = 0 ∨ z.ctl.sent.any (fun s => s.op == 4 && s.rcpt == z.parent) then z
  else z.askParent 4 0 0 0 n []

/-- A range granted ahead becomes the current one when that is used up. -/
def Pz.refill (z : Pz) : Pz :=
  if z.ctl.left ≠ 0 then z else match z.ctl.spare with
    | [] => z
    | (b, n) :: t => { z with ctl := { z.ctl with next := b, left := n, spare := t } }

/-- The epoch or, when it lies in an outstanding lease, the first one after that lease. -/
def Pz.skipGranted (z : Pz) (e : Word) : Word :=
  z.ctl.granted.foldl (fun (e : Word) g => if (e - g.base).toNat < g.count then g.base + BitVec.ofNat 32 g.count else e) e

/-- The latest epoch that this device knows to be in force anywhere below it. -/
def Pz.latestBelow (z : Pz) : Word :=
  let es := z.ctl.chains.map (fun c => c.2.epoch) ++ z.ctl.kids.map (fun k => k.2.epoch)
  es.foldl (fun a b => if laterInk b a then b else a) z.ctl.epoch

/-- The root's next epoch. -/
def Pz.rootNext (z : Pz) : Word :=
  let e := z.latestBelow + 1
  z.skipGranted (if laterInk e z.ctl.origin then e else z.ctl.origin)

/-- `n` epochs in a row, if the device holds them. -/
def Pz.takeRange (n : Nat) (z : Pz) : Option (Word × Pz) :=
  if z.role = 2 then
    let e := z.rootNext
    some (e, Pz.saveReserve (Pz.showLease { z with ctl := { z.ctl with origin := e + BitVec.ofNat 32 n } }))
  else
    let z := z.refill
    if n ≤ z.ctl.left then
      let e := z.ctl.next
      some (e, (Pz.showLease { z with ctl := { z.ctl with next := e + BitVec.ofNat 32 n, left := z.ctl.left - n } }).wantLease)
    else none

/-- A lease granted to a child or, through this device, to a requester behind it; none while it holds too few epochs. -/
def Pz.grantTo (rcpt : Word) (tag : BitVec 24) (n : Nat) (z : Pz) : Option Pz :=
  match z.portTo rcpt, z.takeRange n with
  | some p, some (b, z) =>
    some ((Pz.showLease { z with ctl := { z.ctl with granted := z.ctl.granted ++ [{ rcpt := rcpt, base := b, count := n }] } }).sendCfg
      rcpt p 4 tag 0 b.toNat n [])
  | _, _ => none

/-- The device's leases are void; it asks for a new one. -/
def Pz.voidLease (z : Pz) : Pz := (Pz.showLease { z with ctl := { z.ctl with left := 0, spare := [] } }).wantLease

/-- An Inkline of an epoch applies here: ranges wholly earlier are void (R319). -/
def Pz.notePast (e : Word) (z : Pz) : Pz :=
  let past : Word → Nat → Bool := fun b n => n != 0 && laterInk e (b + BitVec.ofNat 32 (n - 1))
  (Pz.showLease { z with ctl := { z.ctl with
    left := if past z.ctl.next z.ctl.left then 0 else z.ctl.left
    spare := z.ctl.spare.filter (fun s => !past s.1 s.2)
    granted := z.ctl.granted.filter (fun g => !past g.base g.count) } }).wantLease

/-! ## Config epochs (R318) -/

/-- Whether one more config epoch would run more than 16,384 ahead of the oldest one committed. -/
def Pz.allocBlocked (z : Pz) : Bool :=
  z.ctl.jobs.any (fun j => j.2.cfg != 0 && !j.2.gone && decide (16384 < (z.ctl.nextCfg + 1 - j.2.cfg).toNat))

/-- The root's next config epoch; 0 is none. -/
def Pz.allocCfg (z : Pz) : Option (BitVec 16 × Pz) :=
  if !z.ctl.based || z.allocBlocked then none
  else
    let c : BitVec 16 := if z.ctl.nextCfg = 0 then 1 else z.ctl.nextCfg
    some (c, Pz.saveReserve { z with ctl := { z.ctl with nextCfg := if c + 1 = 0 then 1 else c + 1 } })

/-! ## Inklines on their way down (R320, R321, R330) -/

/-- The next multiple of 50 µs. -/
def up50 (t : Nat) : Nat := (t + 49999) / 50000 * 50000

/-- LEAD in ns. -/
def Pz.leadNs (z : Pz) : Nat := 1000 * max 100 (z.fld PzR.CF_CTL_LEAD)

/-- Whether two jobs share a chain here. -/
def Pz.shares (z : Pz) (a b : BitVec 24) : Bool := a == b || (z.jobPorts a).any (fun p => (z.jobPorts b).any (· == p))

/-- The time at which an Inkline may be delivered: moved to the next free multiple of 50 µs when another epoch has its time
at a common chain (R321). -/
def Pz.freeTime (z : Pz) (tag : BitVec 24) (epoch : Word) (t : Nat) : Nat :=
  iter (fun t => if z.ctl.inks.any (fun i => i.m.time.toNat == t && i.m.epoch != epoch && z.shares tag i.tag) then t + 50000
    else t) (z.ctl.inks.length + 1) t

/-- A job's Inkline delivered: by a tray to the chain masters of the job, by a higher level to its children; it waits here
too, and its cut opens (R330). -/
def Pz.deliverInk (tag : BitVec 24) (m : InkMsg) (z : Pz) : Pz :=
  let tray := z.role = 0
  let t := if tray then z.freeTime tag m.epoch m.time.toNat else m.time.toNat
  let rcpt := if tray then ((z.jobPorts tag).map (fun p => (z.masterOf p, p))).filter (fun w => w.1 != 0) else z.liveKids
  let a1 := kindNum m.kind + (if m.kind.commit then m.cfg.toNat * 65536 else 0)
  let z := rcpt.foldl (fun (z : Pz) w => z.sendCfg w.1 w.2 3 tag (if m.kind.commit then m.cfg else 0) m.epoch.toNat a1 (leB 8 t)) z
  let cut : TCut := { epoch := m.epoch, tag := tag, kind := m.kind, time := t, chains := if tray then rcpt.map (·.2) else []
                      flushes := [], early := [], ready := 0, late := 0, done := 0, timeout := 0, missing := []
                      kids := if tray then [] else rcpt.map (·.1), okN := 0, bad := [], more := 0 }
  { z with ctl := { z.ctl with
    inks := z.ctl.inks ++ [{ tag := tag, m := { m with time := BitVec.ofNat 64 t } }], cuts := z.ctl.cuts ++ [cut] } }

/-! ## CONFIG payloads (Table 14.5) -/

/-- The fields of a CONFIG payload. -/
structure CfgMsg where
  tag     : BitVec 24
  cop     : Nat
  cfg     : BitVec 16
  level   : BitVec 2
  phase   : Bool
  pcode   : BitVec 3
  time    : Nat
  kind    : Kind
  minor   : Nat
  entries : List (Word × Bool)
  llen    : Nat
  laddr   : Nat
deriving DecidableEq, Repr

/-- A CONFIG payload read. -/
def cfgMsg (b : List Byte) : CfgMsg :=
  let w := leAt b 4 4
  { tag := BitVec.ofNat 24 (leAt b 1 3), cop := leAt b 0 1, cfg := BitVec.ofNat 16 w, level := BitVec.ofNat 2 (bits w 17 16)
    phase := bit w 18, pcode := BitVec.ofNat 3 (bits w 21 19), time := leAt b 8 8
    kind := ⟨bit (leAt b 0x10 1) 0, bit (leAt b 0x10 1) 1, false⟩, minor := leAt b 0x11 1
    entries := (List.range (leAt b 0x12 2)).map (fun i => (BitVec.ofNat 32 (leAt b (0x20 + 8 * i) 4), bit (leAt b (0x24 + 8 * i) 4) 0))
    llen := leAt b 0x14 4, laddr := leAt b 0x18 8 }

/-! ## Leaf images (Table 14.7, R326 to R329) -/

/-- The records of an image's words; none when one is reserved or cut short. -/
def imgRecs : Nat → List Nat → Option (List ImgRec)
  | _, [] => some []
  | 0, _ => none
  | f + 1, w :: ws =>
    let n := if bits w 31 30 = 1 then bits w 29 16 else bits w 12 0
    if ws.length < n then none
    else
      let data : List Word := (ws.take n).map (BitVec.ofNat 32)
      let rest := imgRecs f (ws.drop n)
      if bits w 31 30 = 1 then rest.map (fun rs => ImgRec.write (BitVec.ofNat 16 w) data :: rs)
      else if bits w 31 30 = 2 then
        rest.map (fun rs => ImgRec.page (BitVec.ofNat 6 (bits w 29 24)) (BitVec.ofNat 11 (bits w 23 13)) data :: rs)
      else none

/-- The records of the image that a CONFIG payload names in this device's DRAM; none when it is refused with BADCRC. -/
def Pz.imageRecs (z : Pz) (b : List Byte) : Option (List ImgRec) :=
  let n := (cfgMsg b).llen
  let a := (cfgMsg b).laddr
  if n < 4 ∨ n % 4 ≠ 0 ∨ a % 4096 ≠ 0 ∨ !inDram a ∨ dramBase + z.dramSize < a + n then none
  else
    let bs := memBytes z.mem a n
    if leAt bs (n - 4) 4 ≠ crc32c (bs.take (n - 4)) then none
    else imgRecs n ((List.range (n / 4 - 1)).map (fun i => leAt bs (4 * i) 4))

/-- Whether a record changes a leaf's local model, and so follows the commit (R329). -/
def recLocal : ImgRec → Bool
  | .write off _ => decide (0x9024 ≤ off.toNat ∧ off.toNat ≤ 0x9030)
  | .page pg _ _ => decide (40 ≤ pg.toNat)

/-- A record as the bytes of one or more records of at most 54 words each. -/
def recPieces (r : ImgRec) : List (List Byte) :=
  let cut : List Word → List (Nat × List Word) := fun ws => (chunks 54 (ws.length / 54 + 1) ws).zipIdx.map (fun c => (54 * c.2, c.1))
  let data : List Word → List Byte := fun ws => ws.flatMap (fun w => leB 4 w.toNat)
  match r with
  | .write off ws => (cut ws).map (fun c => leB 4 (2 ^ 30 + c.2.length * 65536 + (off.toNat + 4 * c.1) % 65536) ++ data c.2)
  | .page pg off ws =>
    (cut ws).map (fun c => leB 4 (2 ^ 31 + pg.toNat * 2 ^ 24 + (off.toNat + c.1) % 2048 * 2 ^ 13 + c.2.length) ++ data c.2)

/-- The bodies of the WRITE messages that carry records, in order, each of at most 220 bytes (Table 14.2). -/
def writeBodies (rs : List ImgRec) : List (List Byte) :=
  (rs.flatMap recPieces).foldl (fun (acc : List (List Byte)) p =>
    match acc.getLast? with
    | some b => if b.length + p.length ≤ 220 then acc.dropLast ++ [b ++ p] else acc ++ [p]
    | none => [p]) []

/-- WRITE messages for leaves of one chain: to every member when the whole chain is to be loaded, else to each leaf. -/
def Pz.sendWrites (tag : BitVec 24) (cfg : BitVec 16) (bodies : List (List Byte)) (port : Nat) (ls : List Word) (z : Pz) : Pz :=
  let all := z.leavesWith (fun r => r.port.toNat == port)
  let rcpt := if 1 < ls.length ∧ all.all (fun w => ls.any (· == w)) then [((0xFFFFFFFF : Word), ls)] else ls.map (fun w => (w, [w]))
  rcpt.foldl (fun (z : Pz) t => bodies.foldl (fun (z : Pz) b => z.sendAsk none t.1 port 1 tag cfg 0 0 b t.2) z) z

/-- Records sent to leaves, chain by chain. -/
def Pz.loadLeaves (tag : BitVec 24) (cfg : BitVec 16) (rs : List ImgRec) (ls : List Word) (z : Pz) : Pz :=
  let bodies := writeBodies rs
  (List.range 16).foldl (fun (z : Pz) p =>
    z.sendWrites tag cfg bodies p (ls.filter (fun w => ((z.route w).map (fun r => r.port.toNat == p)).getD false))) z

/-- Leaves that entries stand for at this tray: one leaf, or every leaf of a master's chain. -/
def Pz.entryLeaves (z : Pz) (es : List (Word × Bool)) : List Word :=
  (es.flatMap (fun e => match z.route e.1 with
    | none => []
    | some r => if r.refused then [] else if e.2 then [e.1] else z.leavesWith (fun x => x.port == r.port))).eraseDups

/-- Whether a leaf is armed with a copy of its active bank: a CHANGE without an image, the chains a GROW finds in the job
(R332). -/
def Pz.copies (z : Pz) (p : Prep) (fleet : Word) : Bool :=
  (p.cop == 3 && (cfgMsg p.payload).llen == 0) || (p.cop == 4 && !(z.entryLeaves p.entries).any (· == fleet))

/-- The payload whose leaf image a prepare loads: a GROW uses the job's current one (R332). -/
def Prep.imageHead (p : Prep) (j : Job) : List Byte := if p.cop = 4 ∧ (cfgMsg j.head).llen ≠ 0 then j.head else p.payload

/-- A leaf is armed: far, for a pending prepare that wants it; else for the next Inkline of its chain (R328). -/
def Pz.armLeaf (tag : BitVec 24) (fleet : Word) (z : Pz) : Pz :=
  match z.job tag with
  | none => z
  | some j =>
    match j.prep.filter (fun (p : Prep) => p.want.any (· == fleet) && decide (p.st = .preparing)) with
    | some p => z.sendLeaf fleet 2 tag p.cfg 0 ((cfgMsg p.payload).pcode.toNat + b2n (z.copies p fleet) * 8 + 16) []
    | none => z.sendLeaf fleet 2 tag j.cfg (z.ctl.epoch + 1).toNat j.pcode.toNat []

/-- The records of an image before and after the commit. -/
def Pz.imageParts (z : Pz) (head : List Byte) : List ImgRec × List ImgRec :=
  ((z.imageRecs head).getD []).partition (fun r => !recLocal r)

/-- Leaves that now belong to the job begin the pending prepare: image, then ARM; without an image ARM alone. -/
def Pz.beginLeaves (tag : BitVec 24) (ls : List Word) (z : Pz) : Pz :=
  match z.job tag with
  | none => z
  | some j =>
    match j.prep with
    | none => z
    | some p =>
      let recs := (z.imageParts (p.imageHead j)).1
      let (img, bare) := ls.partition (fun w => !z.copies p w && !recs.isEmpty)
      let z := bare.foldl (fun (z : Pz) w => z.armLeaf tag w) z
      z.loadLeaves tag p.cfg recs img

/-- A leaf of a committed job that runs another configuration is brought up to date (R328). -/
def Pz.bringUp (fleet : Word) (z : Pz) : Pz :=
  match z.route fleet with
  | none => z
  | some r =>
    match z.job r.tag with
    | none => z
    | some j =>
      let recs := (z.imageRecs j.head).getD []
      if j.cfg = 0 ∨ r.teardown then z
      else if recs.isEmpty then z.armLeaf r.tag fleet
      else z.loadLeaves r.tag j.cfg recs [fleet]

/-! ## Ownership (R322, R331, R336) -/

/-- An ASSIGN to a leaf of the tag that its entry now holds. -/
def Pz.sendAssign (fleet : Word) (z : Pz) : Pz :=
  match z.route fleet with
  | none => z
  | some r =>
    let j := z.job r.tag
    let pc := match j with
      | some j => if j.cfg = 0 then (j.prep.map (fun (p : Prep) => (cfgMsg p.payload).pcode)).getD j.pcode else j.pcode
      | none => 2
    z.sendLeaf fleet 5 r.tag 0 fleet.toNat (b2n r.phase + 2 * pc.toNat) []

/-- Ownership of a leaf passes to a tag: fences and disagreements of the old tag end (R311, R331), and the leaf is told. -/
def Pz.ownLeaf (fleet : Word) (tag : BitVec 24) (z : Pz) : Pz :=
  let now := z.now
  let ph := ((z.job tag).map (·.phase)).getD false
  match z.route fleet with
  | none => z
  | some r =>
    let z := z.setRoute fleet (fun r =>
      let r := { r with tag := tag, teardown := false, torn := false, assign := none, fence := none, phase := ph }
      let r := if r.live = lvFenced then { r with live := r.eval } else r
      r.disagree now true)
    let z := if r.live = lvFenced then z.livenessVerdict fleet r.live else z
    z.sendAssign fleet

/-- A leaf whose teardown is acknowledged, or released, moves: to the tag that waits for it, or to none; what waited for it
begins. -/
def Pz.moveLeaf (fleet : Word) (z : Pz) : Pz :=
  match z.route fleet with
  | none => z
  | some r =>
    let new := r.assign.getD 0
    let z := z.ownLeaf fleet new
    match z.job new with
    | none => z
    | some j =>
      if (j.prep.map (fun (p : Prep) => p.want.any (· == fleet))).getD false then z.beginLeaves new [fleet] else z.bringUp fleet

end Sys2Proof.Machine
end

