-- ==== Sys2Proof/Machine/PzIngress.lean ====
section
/-!
DEFINITION. Sys2Proof/Machine/PzIngress.lean: cells arriving at Polornaz: checks, de-duplication, metering, colours,
queues and reassembly (R161, R164, R173 to R176, R216 to R218), and what becomes of frames (R100, R125, R220), reduction
records and alarms (R333, R376).
-/

namespace Sys2Proof.Machine

/-! ## Reassembly (R161) -/

/-- Whether a cell belongs to the same message as another. -/
def sameMsg (a b : Cell) : Bool := a.fleet == b.fleet && a.cls == b.cls && a.mseq == b.mseq

/-- The oldest whole message of a queue that a test of its last cell admits: its cells and the queue without them. -/
def takeCells (ok : Cell → Bool) (q : List IngCell) : Option (List IngCell × List IngCell) :=
  match q.find? (fun c => c.cell.eom && ok c.cell) with
  | none => none
  | some e => some (q.filter (fun c => sameMsg c.cell e.cell), q.filter (fun c => !sameMsg c.cell e.cell))

/-- The message that cells make. -/
def wholeOf (cs : List IngCell) : Message :=
  let h := (cs.head?.map (·.cell)).getD default
  { fleet := h.fleet, cls := h.cls, ty := h.ty, ink := h.ink, mark := h.mark, body := cs.flatMap (·.cell.payload) }

/-- A queue changed. -/
def Pz.setQueue (k : Nat) (q : List IngCell) (z : Pz) : Pz := { z with ing := { z.ing with queues := tput z.ing.queues k q } }

/-- The oldest whole message of a TYPE from a port's queue of a class. -/
def Pz.takeMsg (port cls ty : Nat) (z : Pz) : Option (Message × List IngCell × Pz) :=
  match takeCells (fun c => c.ty.toNat == ty) (tget z.ing.queues (8 * port + cls)) with
  | none => none
  | some (cs, q) => some (wholeOf cs, cs, z.setQueue (8 * port + cls) q)

/-- The oldest whole Control message of a port that a test admits. -/
def Pz.takeCtl (port : Nat) (ok : Message → Bool) (z : Pz) : Option (Message × Pz) :=
  match z.ing.ready.find? (fun m => m.1 == port && ok m.2) with
  | none => none
  | some m => some (m.2, { z with ing := { z.ing with ready := z.ing.ready.erase m } })

/-- Whether a Control message on an upstream port of a tray belongs to its partner: it names another device (R20, R333). -/
def Pz.forPartner (z : Pz) (port : Nat) (m : Message) : Bool := z.role == 0 && decide (16 ≤ port) && m.fleet != z.fleet

/-- An admitted Control cell joins its message; a whole message waits for the Control handler, or is relayed between a
tray's parent and its partner. -/
def Pz.admitCell (port : Nat) (c : IngCell) (z : Pz) : Pz :=
  let q := tget z.ing.asm port ++ [c]
  match takeCells (fun _ => true) q with
  | none => { z with ing := { z.ing with asm := tput z.ing.asm port q } }
  | some (cs, rest) =>
    let m := wholeOf cs
    let z := { z with ing := { z.ing with asm := tput z.ing.asm port rest } }
    if z.forPartner port m then z.send (33 - port) m
    else { z with ing := { z.ing with ready := z.ing.ready ++ [(port, m)] } }

/-! ## Metering (R173 to R175, R216) -/

/-- Metering context of a cell (R216): a leaf's chain position in tray role, 0 otherwise. -/
def Pz.context (z : Pz) (c : Cell) : Nat :=
  if z.role ≠ 0 then 0
  else match z.route c.fleet with
    | some r => r.pos.toNat
    | none => if c.ty = 7 then bits (leAt c.payload 0xC 4) 21 16 else 0

/-- The profile of a class in force: CIR, CBS, PIR, PBS (R173). -/
def Pz.profile (z : Pz) (cls : Nat) : Nat × Nat × Nat × Nat :=
  let f : Nat → Nat := fun k => (z.reg (0x50100 + 16 * cls + 4 * k)).toNat
  (f 0, f 1, max (f 0) (f 2), max (f 1) (f 3))

/-- Colours of RFC 2698. -/
inductive Colour where
  | green
  | yellow
  | red
deriving DecidableEq, Repr

/-- The marker of RFC 2698 in colour-blind mode over `n` counted bytes. -/
def Pz.meter (key cls n : Nat) (z : Pz) : Colour × Pz :=
  let (cir, cbs, pir, pbs) := z.profile cls
  let m := tget z.ing.meters key
  let dt := z.now - m.filled
  let unit := 1000000000
  let c := m.c - cir * dt
  let p := m.p - pir * dt
  let need := n * unit
  let col := if pbs * unit < p + need then Colour.red else if cbs * unit < c + need then .yellow else .green
  let m' : Meter := match col with
    | .red => { c := c, p := p, filled := z.now }
    | .yellow => { c := c, p := p + need, filled := z.now }
    | .green => { c := c + need, p := p + need, filled := z.now }
  (col, { z with ing := { z.ing with meters := tput z.ing.meters key m' } })

/-- A bucket given as what is missing with its time, after refilling at `rate` units per ns. -/
def refilled (b : Nat × Nat) (rate now : Nat) : Nat := b.1 - rate * (now - b.2)

/-- The alarm policer of a leaf (R175): whether it had a credit, one being taken. -/
def Pz.police (key : Nat) (z : Pz) : Bool × Pz :=
  let miss := refilled (tget z.ing.policer key) 2 z.now
  let ok := decide (miss + 1000000 ≤ 64000000)
  (ok, { z with ing := { z.ing with policer := tput z.ing.policer key (if ok then miss + 1000000 else miss, z.now) } })

/-! ## Drops (R174, R218) -/

/-- A dropped cell's message is over: its queued cells go and its later ones are discarded on arrival (R161). -/
def Pz.dropMsg (port : Nat) (c : Cell) (z : Pz) : Pz :=
  let k := 8 * port + c.cls.toNat
  let z := z.setQueue k ((tget z.ing.queues k).filter (fun x => !sameMsg x.cell c))
  { z with ing := { z.ing with prog := z.ing.prog.filter (fun p => !decide (p.1 = (port, c.fleet, c.cls)))
                               asm := tmod z.ing.asm port (fun q => q.filter (fun x => !sameMsg x.cell c)) } }

/-- A drop counted per leaf and class (R174); a dropped alarm is recorded (R180). -/
def Pz.countDrop (c : Cell) (z : Pz) : Pz :=
  let k := c.cls.toNat
  let z := if (z.route c.fleet).isNone then z else z.setRoute c.fleet (fun r =>
    let d := (List.range 5).map (fun i => r.drops.getD i 0)
    { r with drops := d.set k (d.getD k 0 + 1) })
  if c.ty = 2 then
    z.alarmIn { payload := c.payload, fleet := c.fleet, ink := c.ink, path := 0, tag := ((z.route c.fleet).map (·.tag)).getD 0 } 1
  else z

/-- A cell dropped. -/
def Pz.dropCell (port : Nat) (c : Cell) (z : Pz) : Pz := (z.countDrop c).dropMsg port c

/-! ## Queues (R176, R218) -/

/-- Capacity of an ingress queue in cells. -/
def queueSize (cls : Nat) : Nat := ([256, 512, 4096, 1024, 1024] : List Nat).getD cls 0

/-- A cell of class 2 to 4 enters its queue. -/
def Pz.queueCell (port : Nat) (x : IngCell) (z : Pz) : Pz :=
  let k := 8 * port + x.cell.cls.toNat
  let q := tget z.ing.queues k
  let cap := queueSize x.cell.cls.toNat
  if x.yellow && decide (3 * cap < 4 * q.length) then (z.addSat (PzR.ING_Q2_YDROP.at (16 * port)) 1).dropCell port x.cell
  else if q.length < cap then z.setQueue k (q ++ [x])
  else match q.reverse.find? (·.yellow) with
    | some y =>
      let z := (z.addSat (PzR.ING_Q2_YDROP.at (16 * port)) 1).dropCell port y.cell
      if sameMsg y.cell x.cell then z else z.setQueue k (tget z.ing.queues k ++ [x])
    | none => (z.addSat (PzR.ING_Q2_FDROP.at (16 * port)) 1).dropCell port x.cell

/-- Control admission of a port (R176): cells missing in its bucket now. -/
def Pz.admitMiss (z : Pz) (port : Nat) : Nat :=
  refilled (tget z.ing.budget port) (max 1 (z.fld PzR.ING_ADMIT_CTL_RATE)) z.now

/-- Capacity of the admission bucket. -/
def Pz.admitCap (z : Pz) : Nat := 1000000 * max 1 (z.fld PzR.ING_ADMIT_CTL_BURST)

/-- A credit taken for a Control cell. -/
def Pz.takeAdmit (port : Nat) (c : IngCell) (z : Pz) : Pz :=
  Pz.admitCell port c { z with ing := { z.ing with budget := tput z.ing.budget port (z.admitMiss port + 1000000, z.now) } }

/-- A Control cell reaches its port's admission. -/
def Pz.controlCell (port : Nat) (x : IngCell) (z : Pz) : Pz :=
  let k := 8 * port + 1
  let q := tget z.ing.queues k
  if q.isEmpty && decide (z.admitMiss port + 1000000 ≤ z.admitCap) then z.takeAdmit port x
  else if q.length < queueSize 1 then z.setQueue k (q ++ [x])
  else z.dropCell port x.cell

/-- CONTROL_ADMIT (R176): the oldest waiting Control cell, once there is a credit for it. -/
def Pz.controlAdmit (port : Nat) (z : Pz) : Pz :=
  let k := 8 * port + 1
  match tget z.ing.queues k with
  | [] => z
  | x :: rest =>
    let rate := max 1 (z.fld PzR.ING_ADMIT_CTL_RATE)
    let ovr := z.admitMiss port + 1000000 - z.admitCap
    let z := z.advanceTo (z.now + (ovr + rate - 1) / rate)
    (z.setQueue k rest).takeAdmit port x

/-- CONTROL_ADMIT. -/
def execControlAdmit (port : BitVec 4) (s : State) : Host.Outcome State Fault Refusal :=
  .next (s.onPz (Pz.controlAdmit port.toNat))

/-! ## Arrival of a cell (R173) -/

/-- An alarm's key (R173): fleet ID and ASEQ. -/
def alarmKey (c : Cell) : Word × BitVec 16 := (c.fleet, BitVec.ofNat 16 (leAt c.payload 2 2))

/-- Whether an alarm with the key came within the last 10 ms. -/
def Pz.alarmSeen (z : Pz) (c : Cell) : Bool :=
  z.ing.seen.any (fun k => decide ((k.1, k.2.1) = alarmKey c) && decide (z.now < k.2.2 + 10000000))

/-- The key remembered, and keys past 10 ms forgotten. -/
def Pz.rememberAlarm (c : Cell) (z : Pz) : Pz :=
  let k := alarmKey c
  let kept := z.ing.seen.filter (fun s => decide (z.now < s.2.2 + 10000000) && !decide ((s.1, s.2.1) = k))
  { z with ing := { z.ing with seen := (k.1, k.2, z.now) :: kept } }

/-- The key forgotten (R218). -/
def Pz.forgetAlarm (c : Cell) (z : Pz) : Pz :=
  { z with ing := { z.ing with seen := z.ing.seen.filter (fun s => !decide ((s.1, s.2.1) = alarmKey c)) } }

/-- The device that sends on a port: a child, or on U1 the partner's tray. -/
def Pz.childOn (z : Pz) (port : Nat) : Option Word :=
  (z.ctl.kids.find? (fun k => k.2.port == port)).map (fun k => BitVec.ofNat 32 k.1)

/-- An ALMACK to the child that sent an alarm record (R333). -/
def Pz.almAck (port : Nat) (fleet : Word) (aseq : BitVec 16) (z : Pz) : Pz :=
  match z.childOn port with
  | none => z
  | some k => z.sendCfg k port 0x0E 0 0 1 0 (leB 4 fleet.toNat ++ leB 4 aseq.toNat)

/-- Whether a cell continues its message, a first cell beginning one (R161). -/
def Pz.follows (z : Pz) (port : Nat) (c : Cell) : Bool :=
  if c.som then c.cidx == 0
  else z.ing.prog.any (fun p => decide (p.1 = (port, c.fleet, c.cls)) && p.2.1 == c.mseq && p.2.2 == c.cidx.toNat)

/-- The message under way after a kept cell. -/
def Pz.noteCell (port : Nat) (c : Cell) (z : Pz) : Pz :=
  let rest := z.ing.prog.filter (fun p => !decide (p.1 = (port, c.fleet, c.cls)))
  let prog := if c.eom then rest else ((port, c.fleet, c.cls), (c.mseq, c.cidx.toNat + 1)) :: rest
  { z with ing := { z.ing with prog := prog } }

/-- A metered cell meets its colour's fate (Table 7.5). -/
def Pz.fate (port key : Nat) (x : IngCell) (col : Colour) (z : Pz) : Pz :=
  let c := x.cell
  if c.cls = 0 then
    let (credit, z) := z.police key
    if col = .red ∧ !credit then (z.forgetAlarm c).dropCell port c
    else
      let q := tget z.ing.queues (8 * port)
      if q.length < queueSize 0 then z.setQueue (8 * port) (q ++ [x])
      else (if c.ty = 2 then z.forgetAlarm c else z).dropCell port c
  else if col = .red then z.dropCell port c
  else if c.cls = 1 then z.controlCell port x
  else z.queueCell port x

/-- A cell one of whose bytes fails its parity on its way into its queue (R390): it is stored uncorrectable, and its first
reader discards it and its message (Table 17.1), counts, records and alarms (R389). The model reads it at once; which word
it lay in is open (assumption log 34). -/
def Pz.poison (port : Nat) (c : Cell) (z : Pz) : Pz :=
  let d := portDie port
  let a := Config.cellWord (z.fld (PzR.EC_DIE_PAR.at (4 * d)))
  let z := ((z.parity d a 0).addSat (PzR.EC_DIE_UE.at (4 * d)) 1).setReg 0x103B0 (BitVec.ofNat 32 a)
  let z := (z.setReg 0x103B4 (BitVec.ofNat 32 (a / 2 ^ 32))).deviceAlarm 0x41 d
  (z.record 0 0x0902 (d * 256) 0 (leB 8 a ++ leB 1 d ++ leB 1 0)).dropMsg port c

/-- CELL_INGRESS (R161, R164, R173): a cell arrives on a port that is up. Ports 16 and 17 have no metering contexts and no
admission (Table 9.16, R216): their cells go straight to reassembly. `came` is the arrival in 1/16 ns of tray time, `par` tells
that a byte fails its parity on the way into the queue (R390). -/
def Pz.cellIngress (port : Nat) (c : Cell) (ethOk : Bool) (came : Nat) (par : Bool) (z : Pz) : Pz :=
  if !z.linkUp port ∨ !z.runs then z
  else if !ethOk ∨ !cellGood c ∨ 4 < c.cls.toNat ∨ !z.follows port c then
    let z := { z with ing := { z.ing with bad := tmod z.ing.bad port (· + 1) } }
    if cellGood c && ethOk then z else z.dropMsg port c
  else if c.ty = 2 ∧ z.alarmSeen c then z.almAck port c.fleet (alarmKey c).2
  else if par then z.poison port c
  else
    let z := (if c.ty = 2 then z.rememberAlarm c else z).noteCell port c
    let now := z.now
    let z := if (z.route c.fleet).isSome then z.setRoute c.fleet (fun r => { r with lastArr := now }) else z
    let plain : IngCell := { cell := c, yellow := false, came := came }
    if 16 ≤ port then
      if c.cls = 1 then z.admitCell port plain
      else z.setQueue (8 * port + c.cls.toNat) (tget z.ing.queues (8 * port + c.cls.toNat) ++ [plain])
    else
      let key := 64 * port + z.context c
      let (col, z) := z.meter (8 * key + c.cls.toNat) c.cls.toNat (cellLen c + z.fld PzR.ING_CTL_OVH)
      z.fate port key { plain with yellow := col == .yellow } col

/-- CELL_INGRESS. -/
def execCellIngress (port : BitVec 5) (c : Cell) (ethOk : Bool) (came : Nat) (par : Bool) (s : State) :
    Host.Outcome State Fault Refusal :=
  .next (s.onPz (onlyIf (decide (port.toNat < 18)) (Pz.cellIngress port.toNat c ethOk came par)))

/-! ## Frames (R100, R103, R125, R217, R220) -/

/-- An item for the streams of a kind on the leaf's home station whose tag filter is one of `tags` (R234, R260). -/
def Pz.toStation (st kind : Nat) (tags : List (BitVec 24)) (bytes : List Byte) (z : Pz) : Pz :=
  (List.range 16).foldl (fun z p =>
    match (z.slot st p).active with
    | none => z
    | some im => (List.range 16).foldl (fun z s =>
        match im.bind s with
        | some b => if b.kind.toNat = kind ∧ tags.any (· == b.tag) then z.offerItem st p s b bytes else z
        | none => z) z) z

/-- Ingress metadata (Table 11.9). -/
def ingressMeta (instant arrival pos len port : Nat) (flagged pred yellow : Bool) : List Byte :=
  leB 8 instant ++ leB 8 arrival ++
  leB 4 (b2n flagged * 2 ^ 25 + b2n pred * 2 ^ 24 + b2n yellow * 2 ^ 22 + pos * 2 ^ 16 + len) ++ leB 4 port ++
  List.replicate 40 0

/-- What the extension of a TSTAMP gives (R125). -/
structure Extended where
  ext  : Int
  err  : Bool
  pred : Bool
  keep : Bool
deriving DecidableEq, Repr

/-- The extension of R125. `start` is the start time of the frame's epoch when it is held. -/
def extend (lastInst lastFseq tstamp fseq period arrival : Nat) (start : Option Nat) : Extended :=
  let lo : Int := max (lastInst + 1) (start.getD 0)
  let hi : Int := arrival + 1000
  let wrap : Int := 2 ^ 32
  let c := hi - (hi - tstamp) % wrap
  if c < lo then { ext := c, err := true, pred := false, keep := false }
  else if c - wrap < lo then { ext := c, err := false, pred := false, keep := true }
  else
    let e : Int := lastInst + period * ((fseq + 65536 - lastFseq) % 65536)
    let low := e - 2 ^ 31 + 1
    let ext := low + (tstamp - low) % wrap
    { ext := ext, err := false, pred := true, keep := decide (lo ≤ ext) }

/-- The tags whose streams take an item of a leaf (R26, R355): its own tag's, and the operator's when out of service. -/
def Route.takers (r : Route) (tag : BitVec 24) : List (BitVec 24) := if r.oos then [tag, 0] else [tag]

/-- A frame of a registered leaf whose CHECK passes. -/
def Pz.takeFrame (r : Route) (m : Message) (cs : List IngCell) (z : Pz) : Pz :=
  let b := m.body
  let f : Nat → Nat → Nat := leAt b
  let tag : BitVec 24 := BitVec.ofNat 24 (f 0xC 3)
  let cfg : BitVec 16 := BitVec.ofNat 16 (f 0x10 2)
  let ink : Word := BitVec.ofNat 32 (f 4 4)
  let fseq := f 0x16 2
  let x := extend r.lastInst r.lastFseq.toNat (f 8 4) fseq (50000 * 2 ^ bits (f 0x18 2) 10 8) z.now
    ((z.ctl.started.find? (fun s => s.1 == ink)).map (·.2))
  let job := (z.job tag).filter (fun j => j.cfg != 0)
  let since := match job with
    | some j => !laterInk j.commit ink
    | none => false
  let stale := since && (job.map (fun j => laterCfg j.cfg cfg)).getD false
  let mixed := since && (job.map (·.staging)).getD false
  let untimed := z.flag PzR.TM_STAT_UNTIMED || x.err || x.pred
  let flags := f 0x12 2 ||| b2n untimed ||| b2n stale * 2 ||| b2n mixed * 4
  let frame := b.take 0x12 ++ leB 2 flags ++ b.drop 0x14
  let newer := x.keep && decide ((r.lastInst : Int) < x.ext)
  let z := if x.pred then z.addSat PzR.TM_STAT_EXT_PRED 1 else z
  let t4 := (cs.find? (fun c => c.cell.mark)).map (fun c => (c.came, c.cell.resid, BitVec.ofNat 16 fseq))
  let z := z.setRoute m.fleet (fun r => { r with
    cfg := cfg, inkEp := ink, frames := r.frames + 1, version := BitVec.ofNat 8 (f 0xF 1)
    extErr := if x.err then BitVec.ofNat 16 (min 65535 (r.extErr.toNat + 1)) else r.extErr
    lastInst := if x.keep then x.ext.toNat else r.lastInst
    lastFseq := if x.keep then BitVec.ofNat 16 fseq else r.lastFseq
    t4 := if t4.isSome then t4 else r.t4 })
  let z := z.liveFrame m.fleet newer
  let md := ingressMeta (unsgn 64 x.ext) z.now r.pos.toNat b.length r.port.toNat (untimed || stale || mixed) x.pred
    (cs.any (·.yellow))
  z.toStation r.home.toNat 1 (r.takers tag) (md ++ frame)

/-- Whether a frame's length and CHECK are right (R98, R103). -/
def frameOk (b : List Byte) : Bool :=
  decide (64 ≤ b.length) && b.length == 64 + 4 * leAt b 0x14 2 &&
  leAt b 0x1C 4 == crc32c (b.take 0x1C ++ leB 4 0 ++ b.drop 0x20)

/-- INGRESS_FRAME (R220): the oldest whole frame of a port. -/
def Pz.ingressFrame (port : Nat) (z : Pz) : Pz :=
  match z.takeMsg port 2 1 with
  | none => z
  | some (m, cs, z) =>
    match z.route m.fleet with
    | none => z.addSat (PzR.ING_Q3_UNKNOWN.at (16 * port)) 1
    | some r =>
      if frameOk m.body then z.takeFrame r m cs
      else
        let z := z.addSat (PzR.ING_Q3_CHKERR.at (16 * port)) 1
        z.setRoute m.fleet (fun r => { r with chkErr := BitVec.ofNat 16 (min 65535 (r.chkErr.toNat + 1)) })

/-- INGRESS_FRAME. -/
def execIngressFrame (port : BitVec 4) (s : State) : Host.Outcome State Fault Refusal :=
  .next (s.onPz (Pz.ingressFrame port.toNat))

/-! ## Reduction records (R144, R216) -/

/-- INGRESS_REDUCTION: a reduction record of a chain goes to the home station of its master, with metadata. Its instant is
extended as a TSTAMP is, without a prediction (DEDUCED, assumption log 21). -/
def Pz.ingressReduction (port : Nat) (z : Pz) : Pz :=
  match z.takeMsg port 2 5 with
  | none => z
  | some (m, cs, z) =>
    match z.route m.fleet with
    | none => z.addSat (PzR.ING_Q3_UNKNOWN.at (16 * port)) 1
    | some r =>
      let t := leAt m.body 0 4
      let hi : Int := z.now + 1000
      let ext := hi - (hi - t) % (2 ^ 32)
      let md := ingressMeta (unsgn 64 ext) z.now r.pos.toNat m.body.length r.port.toNat false false (cs.any (·.yellow))
      (z.liveOther m.fleet).toStation r.home.toNat 2 (r.takers r.tag) (md ++ m.body)

/-- INGRESS_REDUCTION. -/
def execIngressReduction (port : BitVec 4) (s : State) : Host.Outcome State Fault Refusal :=
  .next (s.onPz (Pz.ingressReduction port.toNat))

/-! ## Alarms (R217, R333, R351, R376) -/

/-- How an alarm reached the stage (Table 16.4): from a child, by chain relay, by the leaf's own uplink. -/
def Pz.alarmPath (z : Pz) (port : Nat) (payload : List Byte) : BitVec 3 :=
  if 16 ≤ port || (z.childOn port).isSome then 3 else if bit (leAt payload 13 1) 0 then 1 else 0

/-- INGRESS_ALARM: the oldest alarm of a port; a child's is acknowledged (R333), a partner's relayed to U0 besides. LEAF_OOS
marks the routing entry (R351). -/
def Pz.ingressAlarm (port : Nat) (z : Pz) : Pz :=
  match z.takeMsg port 0 2 with
  | none => z
  | some (m, _, z) =>
    let r := z.route m.fleet
    let z := z.almAck port m.fleet (BitVec.ofNat 16 (leAt m.body 2 2))
    let z := z.liveOther m.fleet
    let z := if leAt m.body 0 2 = 5 ∧ r.isSome then z.setRoute m.fleet (fun r => { r with oos := true }) else z
    z.stage { payload := slice m.body 0 16, fleet := m.fleet, ink := m.ink, path := z.alarmPath port m.body
              tag := (r.map (·.tag)).getD 0 }

/-- INGRESS_ALARM. -/
def execIngressAlarm (port : BitVec 5) (s : State) : Host.Outcome State Fault Refusal :=
  .next (s.onPz (onlyIf (decide (port.toNat < 18)) (Pz.ingressAlarm port.toNat)))

end Sys2Proof.Machine
end

