-- ==== Sys2Proof/Machine/PzSnap.lean ====
section
/-!
DEFINITION. Sys2Proof/Machine/PzSnap.lean: snapshots of a job's state and restores (R358 to R363).
-/

namespace Sys2Proof.Machine

/-- STATE of `PZ_SN_STAT`. -/
def Pz.snState (n : Nat) (z : Pz) : Pz := z.setFld PzR.SN_STAT_STATE n

/-- The ranges declared for a job, in index order, in bytes (Table 15.15). -/
def Pz.jobRanges (z : Pz) (tag : BitVec 24) : List (Nat × Nat) :=
  (List.range 64).filterMap (fun i =>
    let size := (z.reg (0xB0108 + 16 * i)).toNat % 2 ^ 20
    if size ≠ 0 ∧ (z.reg (0xB0104 + 16 * i)).toNat / 256 = tag.toNat then
      some (4096 * ((z.reg (0xB0100 + 16 * i)).toNat % 2 ^ 22), 4096 * size)
    else none)

/-- The state of the snapshot changed. -/
def Pz.setSnap (f : Snap → Snap) (z : Pz) : Pz := { z with snap := { z.snap with now := z.snap.now.map f } }

/-- Host address of the slot for a snapshot (R361): A for an even SEQ, B for an odd one. -/
def Pz.hostSlot (z : Pz) (seq : Nat) : Nat := z.hostBase (if seq % 2 = 0 then 0xB0018 else 0xB0020)

/-- The drain begins when the copy is complete and the leaf section has closed: HCRC of the slot becomes zero first. -/
def Pz.snapAdvance (z : Pz) : Pz :=
  match z.snap.now with
  | none => z
  | some sn =>
    if sn.copied && sn.closed then
      let z := z.snState 3
      if z.hostUp then z.emit (.host (z.hostSlot sn.seq + 0x2C) (leB 4 0)) else z
    else z.snState (if sn.copied then 2 else 1)

/-- A CKPT Inkline of a job takes effect (R358, R362). One that finds a snapshot or a restore in progress, or EN 0, is
skipped. -/
def Pz.snapStart (tag : BitVec 24) (m : InkMsg) (z : Pz) : Pz :=
  if z.snap.now.isSome || z.snap.running.isSome || !z.flag PzR.SN_CTL_EN then
    (z.addSat PzR.SN_STAT_SKIPPED 1).record 0 0x0D01 0 tag.toNat
      (leB 4 m.epoch.toNat ++ leB 4 tag.toNat ++ leB 4 (z.fld PzR.SN_STAT_STATE))
  else
    let rs := z.jobRanges tag
    let seq := z.snap.seq + 1
    let want := z.leavesWith (fun r => r.tag == tag && !r.teardown)
    let sn : Snap := { tag := tag, epoch := m.epoch, cfg := ((z.job tag).map (·.cfg)).getD 0, time := z.now, seq := seq
                       ranges := rs, pages := rs.flatMap (fun r => (List.range (r.2 / 4096)).map (· + r.1 / 4096)), leaves := []
                       want := want, missing := [], pushed := 0, copied := false, closed := want.isEmpty }
    Pz.snapAdvance { z with snap := { z.snap with seq := seq, now := some sn } }

/-- SNAPSHOT_COPY_DONE (R359): the background copy takes what drain-ahead has left. -/
def Pz.snapCopy (z : Pz) : Pz :=
  match z.snap.now with
  | none => z
  | some sn =>
    if sn.copied then z
    else ((sn.pages.foldl (fun z pg => Pz.copyPage pg z) z).setSnap (fun s => { s with copied := true })).snapAdvance

/-- SNAPSHOT_COPY_DONE. -/
def execSnapshotCopyDone (s : State) : Host.Outcome State Fault Refusal := .next (s.onPz Pz.snapCopy)

/-- A leaf drain for the snapshot in progress goes to the next slot of the leaf section, in order of arrival. -/
def Pz.placeDrain (fleet : Word) (body : List Byte) (z : Pz) : Pz :=
  match z.snap.now with
  | none => z
  | some sn =>
    if sn.closed || leAt body 0 4 != sn.epoch.toNat || leAt body 5 3 != sn.tag.toNat || sn.leaves.any (· == fleet) ||
        512 ≤ sn.leaves.length then z
    else
      let z := z.write (z.snapBase + 4096 + 20480 * sn.leaves.length) body
      let full := sn.want.all (fun w => w == fleet || sn.leaves.any (· == w))
      (z.setSnap (fun s => { s with leaves := s.leaves ++ [fleet], closed := full })).snapAdvance

/-- SNAPSHOT_DRAIN_RX (R360): the oldest whole snapshot drain of a port; one of another tag is discarded. -/
def Pz.snapDrainRx (port : Nat) (z : Pz) : Pz :=
  match z.takeMsg port 4 0x0D with
  | none => z
  | some (m, _, z) =>
    if (z.route m.fleet).isNone then z.addSat (PzR.ING_Q3_UNKNOWN.at (16 * port)) 1
    else (z.liveOther m.fleet).placeDrain m.fleet m.body

/-- SNAPSHOT_DRAIN_RX. -/
def execSnapshotDrainRx (port : BitVec 4) (s : State) : Host.Outcome State Fault Refusal :=
  .next (s.onPz (Pz.snapDrainRx port.toNat))

/-- LEAFWAIT_EXPIRY (R360): the leaf section closes; leaves without a drain are missing. -/
def Pz.leafwait (z : Pz) : Pz :=
  match z.snap.now with
  | none => z
  | some sn =>
    if sn.closed then z
    else
      let z := z.advanceTo (sn.time + 1000000 * max 1 (z.fld PzR.SN_CTL_LEAFWAIT))
      (z.setSnap (fun s => { s with
        closed := true, missing := s.want.filter (fun w => !s.leaves.any (· == w)) })).snapAdvance

/-- LEAFWAIT_EXPIRY. -/
def execLeafwaitExpiry (s : State) : Host.Outcome State Fault Refusal := .next (s.onPz Pz.leafwait)

/-- Bytes of an image. -/
def imageLen (rs : List (Nat × Nat)) : Nat := rs.foldl (fun n r => n + r.2) snapRanges

/-- The header of a snapshot's image without HCRC (Table 15.9). -/
def snapHeader (sn : Snap) (crc : Nat) : List Byte :=
  let head := leB 2 sn.cfg.toNat ++ leB 1 sn.ranges.length ++ leB 1 1 ++ leB 1 0 ++ leB 3 sn.tag.toNat ++ leB 8 sn.seq ++
    leB 4 sn.epoch.toNat ++ leB 2 sn.leaves.length ++ leB 2 sn.missing.length ++ leB 8 sn.time ++
    leB 8 (imageLen sn.ranges) ++ leB 4 crc ++ leB 4 0 ++ leB 4 sn.pushed
  let ranges := sn.ranges.flatMap (fun r => leB 8 r.1 ++ leB 4 r.2 ++ leB 4 (rangeOff sn.ranges r.1))
  slice head 0 0x100 ++ slice ranges 0 0x700 ++ slice (sn.missing.flatMap (fun w => leB 4 w.toNat)) 0 0x800

/-- A header with HCRC in place. -/
def sealHeader (h : List Byte) : List Byte := h.take 0x2C ++ leB 4 (crc32c h) ++ h.drop 0x30

/-- SNAPSHOT_DRAIN_DONE (R361, R362): the image in DRAM and the host slot complete, HCRC last, then the advisory. A drain
that cannot reach host memory or meets an uncorrectable word leaves no completion record. -/
def Pz.snapDone (z : Pz) : Pz :=
  match z.snap.now with
  | none => z
  | some sn =>
    if !(sn.copied && sn.closed) then z
    else
      let len := imageLen sn.ranges
      match z.badIn (z.snapBase + 4096) (len - 4096) with
      | some w => (z.uncorrMem w false).dropSnap
      | none =>
        if !z.hostUp then z.dropSnap
        else
          let h := snapHeader sn (crc32c (memBytes z.mem (z.snapBase + 4096) (len - 4096)))
          let slot := z.hostSlot sn.seq
          let body := (z.mem.filter (fun p => decide (z.snapBase + 4096 ≤ p.1 ∧ p.1 < z.snapBase + len))).map
            (fun (p : Nat × Byte) => (p.1 - z.snapBase - 4096, p.2))
          let full := sealHeader h
          let z := { z with mem := memPut (fun _ => true) z.mem z.snapBase full, snap := { z.snap with now := none } }
          let z := (z.emit (.hostCopy (slot + 4096) (len - 4096) body)).emit (.host slot (full.take 0x2C))
          let z := (z.emit (.host (slot + 0x30) (full.drop 0x30))).emit (.host (slot + 0x2C) (slice full 0x2C 4))
          let z := ((z.setReg 0xB0008 (BitVec.ofNat 32 sn.seq)).setReg 0xB000C (BitVec.ofNat 32 (sn.seq / 2 ^ 32))).setFld
            PzR.SN_STAT_LEAVES sn.leaves.length
          (z.snState 0).device true 0xD3 sn.tag 0 sn.epoch 0 (leB 8 sn.seq ++ leB 4 sn.epoch.toNat ++ leB 4 (sn.seq % 2) ++
            leB 2 sn.leaves.length ++ leB 2 sn.missing.length)

/-- SNAPSHOT_DRAIN_DONE. -/
def execSnapshotDrainDone (s : State) : Host.Outcome State Fault Refusal := .next (s.onPz Pz.snapDone)

/-! ## Restore (R363) -/

/-- The ranges that the image in DRAM lists. -/
def Pz.imageRanges (z : Pz) : List (Nat × Nat) :=
  (List.range (memLoad z.mem (z.snapBase + 2) 1)).map (fun i =>
    (memLoad z.mem (z.snapBase + 0x100 + 16 * i) 8, memLoad z.mem (z.snapBase + 0x108 + 16 * i) 4))

/-- Whether both CRCs of the image in DRAM pass. -/
def Pz.imageGood (z : Pz) : Bool :=
  let h := memBytes z.mem z.snapBase 4096
  let len := leAt h 0x20 8
  decide (4096 ≤ len ∧ len ≤ imageLen [(0, 2 ^ 31)]) && leAt h 0x2C 4 == crc32c (h.take 0x2C ++ leB 4 0 ++ h.drop 0x30) &&
    leAt h 0x28 4 == crc32c (memBytes z.mem (z.snapBase + 4096) (len - 4096))

/-- The check of a restore: RERR, 0 for none. -/
def Pz.restoreErr (z : Pz) : Nat :=
  if z.snap.now.isSome then 1
  else if !z.imageGood then 2
  else if z.imageRanges ≠ z.jobRanges (BitVec.ofNat 24 (memLoad z.mem (z.snapBase + 5) 3)) then 3
  else 0

/-- A write of `PZ_SN_RESTORE`: the config epoch, and with GO the check and the schedule. -/
def Pz.restoreWrite (data : Word) (z : Pz) : Pz :=
  let z := z.setFld PzR.SN_RESTORE_CFG_EP (data.toNat % 65536)
  if !bit data.toNat 31 then z
  else
    let e := z.restoreErr
    let z := z.setFld PzR.SN_STAT_RERR e
    if e ≠ 0 then z.pkgEvent PzR.SN_STAT_RFAIL
    else { z with snap := { z.snap with
      restore := some (data.setWidth 16, BitVec.ofNat 24 (memLoad z.mem (z.snapBase + 5) 3)) } }

/-- RESTORE_GO: the write that sets GO. -/
def execRestoreGo (p : Port) (data : Word) (s : State) : Host.Outcome State Fault Refusal :=
  .next (s.onPz (Pz.guarded p (viewAddr p 0xB002C) (Pz.restoreWrite (data ||| 0x80000000))))

/-- The commit of a config epoch starts the restore scheduled for it: the job's slots are held (R363). -/
def Pz.restoreStart (tag : BitVec 24) (cfg : BitVec 16) (z : Pz) : Pz :=
  if z.snap.restore = some (cfg, tag) then { z.snState 4 with snap := { z.snap with restore := none, running := some tag } } else z

/-- RESTORE_DONE (R363): each range is back in SRAM, and the job's slots are dispatched again. -/
def Pz.restoreDone (z : Pz) : Pz :=
  if z.snap.running.isNone then z
  else
    let rs := z.imageRanges
    let z := rs.foldl (fun z r => { z with mem := memCopy z.mem (z.snapBase + rangeOff rs r.1) r.1 r.2 }) z
    Pz.snState 0 { z with snap := { z.snap with running := none } }

/-- RESTORE_DONE. -/
def execRestoreDone (s : State) : Host.Outcome State Fault Refusal := .next (s.onPz Pz.restoreDone)

end Sys2Proof.Machine
end

