-- ==== Sys2Proof/Machine/PzMailbox.lean ====
section
/-!
DEFINITION. Sys2Proof/Machine/PzMailbox.lean: the mailbox (R242 to R244), program images (R226, R231, R234, R245), program
messages (R268), models, groups, test grants (R200) and notices (R295, R296, R310, R312) as messages; ring read pointers.
-/

namespace Sys2Proof.Machine

/-! ## Processing in order (R243) -/

/-- Whether an operation byte of a message type is one that the type has. -/
def subtypeOk (mtype op : Nat) : Bool :=
  if mtype = 2 then decide (1 ≤ op ∧ op ≤ 3)
  else if mtype = 3 then decide (1 ≤ op ∧ op ≤ 2)
  else if mtype = 5 then decide (1 ≤ op ∧ op ≤ 10)
  else if mtype = 7 then decide (1 ≤ op ∧ op ≤ 5)
  else decide (1 ≤ mtype ∧ mtype ≤ 8)

/-- OP, COP or NKIND of a message: the first payload byte. -/
def MbMsg.op (m : MbMsg) : Nat := leAt m.payload 0 1

/-- The refusals that come before a message type's own: CRC, type, world, and a message for a program that is none
(assumption log 24). -/
def Pz.mbRefusal (z : Pz) (m : MbMsg) : Option Nat :=
  if !m.crcOk then some 1
  else if !subtypeOk m.mtype.toNat m.op then some 2
  else if bit (z.reg 0x60014).toNat m.mtype.toNat && !m.secure then some 0xB
  else if m.toprog != (m.mtype == 8) then some 3
  else none

/-- Messages at the front that are refused at once; `fuel` of them at most. -/
def Pz.settle : Nat → Pz → Pz
  | 0, z => z
  | f + 1, z =>
    match z.mb.queue with
    | [] => z
    | m :: rest =>
      match z.mbRefusal m with
      | some st => Pz.settle f (Pz.finish m st [] { z with mb := { z.mb with queue := rest } })
      | none => z

/-- Refusals at the front, all of them. -/
def Pz.settled (z : Pz) : Pz := z.settle (z.mb.queue.length + 1)

/-- The message at the front, if it is of a type and operation, is processed; then refusals follow. -/
def Pz.front (mtype : Nat) (op : Nat → Bool) (f : MbMsg → Pz → Pz) (z : Pz) : Pz :=
  match z.mb.queue with
  | [] => z
  | m :: rest =>
    if m.mtype.toNat = mtype ∧ op m.op then (f m { z with mb := { z.mb with queue := rest } }).settled else z

/-- Any operation. -/
def anyOp : Nat → Bool := fun _ => true

/-- A message joins those that wait. -/
def Pz.enqueue (m : MbMsg) (z : Pz) : Pz := Pz.settled { z with mb := { z.mb with queue := z.mb.queue ++ [m] } }

/-! ## Commit (R243, Table 10.9) -/

/-- A message from its envelope words and payload. -/
def mbMsg (src : MbSrc) (secure : Bool) (w0 w1 w2 w3 : Nat) (payload : List Byte) : MbMsg :=
  { src := src, mtype := BitVec.ofNat 8 (bits w0 23 16), tag := BitVec.ofNat 24 (bits w1 31 8), secure := secure
    reply := bit w1 0, seq := BitVec.ofNat 16 (bits w2 31 16), toprog := bit w2 15, station := BitVec.ofNat 6 (bits w2 13 8)
    pslot := BitVec.ofNat 4 (bits w2 3 0), payload := payload
    crcOk := decide (bits w0 11 0 ≤ 4080) && w3 == crc32c payload }

/-- Whether a mailbox slot is secure-only. -/
def Pz.slotSecure (z : Pz) (n : Nat) : Bool := bit (z.fld PzR.MB_CTL_SECMASK) n

/-- A write to a word of a mailbox slot (R243): dropped while the device owns the slot; OWN in word 0 commits. -/
def Pz.mbWrite (n w : Nat) (data : Word) (z : Pz) : Pz :=
  let own := bit (tget z.mb.words (1024 * n)).toNat 31
  let sec := b2n (z.slotSecure n)
  if own then z.addSat PzR.MB_CTL_WRDROP 1
  else
    let d : Word := if w = 1 then BitVec.ofNat 32 (setBits data.toNat 1 1 sec) else data
    let z := { z with mb := { z.mb with words := tput z.mb.words (1024 * n + w) d } }
    if w ≠ 0 ∨ !bit data.toNat 31 then z
    else
      let g : Nat → Nat := fun k => (tget z.mb.words (1024 * n + k)).toNat
      let len := min 4080 (bits data.toNat 11 0)
      let payload := ((List.range ((len + 3) / 4)).flatMap (fun k => leB 4 (g (4 + k)))).take len
      let words := tput z.mb.words (1024 * n + 1) (BitVec.ofNat 32 (setBits (g 1) 1 1 sec))
      Pz.enqueue (mbMsg (.slot (BitVec.ofNat 4 n)) (z.slotSecure n) data.toNat (g 1) (g 2) (g 3) payload)
        { z with mb := { z.mb with words := words } }

/-- An access to a mailbox slot: a non-secure one to a secure-only slot is a violation of its block (DEDUCED from Table
10.9, assumption log 24). -/
def Pz.mbAccess (n : Nat) (secure : Bool) (f : Pz → Pz) (z : Pz) : Pz :=
  if z.slotSecure n && !secure then z.violate 6 else f z

/-- MAILBOX_COMMIT: word 0x00 of a slot written with OWN = 1. -/
def execMailboxCommit (slot : BitVec 4) (p : Port) (word0 : Word) (s : State) : Host.Outcome State Fault Refusal :=
  .next (s.onPz fun z =>
    let addr := viewAddr p 0x60000
    if !z.answers p || p.size != 2 then z
    else if !z.secure p addr && z.blockSecure 6 then z.violate 6
    else z.mbAccess slot.toNat (z.secure p addr) (Pz.mbWrite slot.toNat 0 (word0 ||| 0x80000000)))

/-! ## Ring read pointers (R243, R316, R376) -/

/-- A read pointer written: what waits for room in its ring goes on. -/
def Pz.rptrWrite (off : Nat) (data : Word) (z : Pz) : Pz :=
  let z := z.setReg off (BitVec.ofNat 32 (setBits (z.reg off).toNat 15 0 data.toNat))
  if off = 0x60010 then (z.pumpReplies (z.mb.replies.length + 1)).settled
  else if off = 0x7003C then z.pumpRecords (z.recQ.length + 1)
  else z.almPin

/-- AL_RPTR_WRITE. -/
def execAlRptrWrite (p : Port) (data : Word) (s : State) : Host.Outcome State Fault Refusal :=
  .next (s.onPz (Pz.guarded p (viewAddr p 0xC100C) (Pz.rptrWrite 0xC100C data)))

/-- VD_RPTR_WRITE. -/
def execVdRptrWrite (p : Port) (data : Word) (s : State) : Host.Outcome State Fault Refusal :=
  .next (s.onPz (Pz.guarded p (viewAddr p 0x7003C) (Pz.rptrWrite 0x7003C data)))

/-- MB_RPTR_WRITE. -/
def execMbRptrWrite (p : Port) (data : Word) (s : State) : Host.Outcome State Fault Refusal :=
  .next (s.onPz (Pz.guarded p (viewAddr p 0x60010) (Pz.rptrWrite 0x60010 data)))

/-! ## Program images (Tables 10.11 and 10.12) -/

/-- The header fields of an image that its checks need besides the image itself. -/
structure ImgHead where
  major : Nat
  minor : Nat
  leafP : Bool
  st    : Nat
  slot  : Nat
  words : Nat
deriving DecidableEq, Repr

/-- Those fields. -/
def imgHead (b : List Byte) : ImgHead :=
  let a := leAt b 0 4
  let c := leAt b 4 4
  { major := bits a 31 28, minor := bits a 27 24, leafP := bit a 23, st := bits a 19 14, slot := bits c 15 12
    words := bits c 31 16 }

/-- The image that bytes spell. -/
def imgOf (b : List Byte) (secure : Bool) : Image :=
  let t := leAt b 8 4
  let k := leAt b 0x10 4
  { arr := bit t 31, ink := bit t 30, tim := bit t 29, prio := BitVec.ofNat 2 (bits t 28 27)
    tstream := BitVec.ofNat 4 (bits t 26 23), thresh := bits t 22 12, age := bits t 11 0
    inkEpoch := BitVec.ofNat 32 (leAt b 0xC 4), kmask := BitVec.ofNat 4 (bits k 31 28), pcode := bits k 27 25
    periodic := bit k 24, budget := bits k 23 0, ttime := leAt b 0x14 8, cfg := BitVec.ofNat 16 (leAt b 0x1C 2)
    models := (List.range 8).map (fun i => BitVec.ofNat 32 (leAt b (0x20 + 4 * i) 4))
    binds := (List.range 16).map (fun i =>
      let d := leAt b (0x40 + 8 * i) 8
      { tag := BitVec.ofNat 24 (bits d 63 40), kind := BitVec.ofNat 4 (bits d 31 28), depth := bits d 27 16
        arg := BitVec.ofNat 16 (bits d 15 0) })
    regions := ((List.range 8).map (fun i => leAt b (0xC0 + 8 * i) 8)).filterMap (fun r =>
      if bits r 63 33 = 0 then none
      else some { base := 4096 * bits r 31 0, size := 4096 * bits r 63 33, write := bit r 32 })
    code := (List.range (imgHead b).words).map (fun i => BitVec.ofNat 32 (leAt b (0x100 + 4 * i) 4)), secure := secure }

/-- Bytes charged for an item of a stream kind (Table 10.3). -/
def itemSize (kind : Nat) : Nat := ([0, 1152, 1152, 16, 4096, 16, 64] : List Nat).getD kind 0

/-- Stream bytes of an image (R234). -/
def Image.streamBytes (i : Image) : Nat := i.binds.foldl (fun n b => n + b.depth * itemSize b.kind.toNat) 0

/-- Stream bytes of a die's slots if an image came into one of them; a slot counts its larger image (assumption log 24). -/
def Pz.dieStreams (z : Pz) (st slot : Nat) (new : Image) : Nat :=
  let d := st / 4
  (List.range 64).foldl (fun n k =>
    let q := 64 * d + k
    let x := tget z.slots q
    let own := (x.active.map Image.streamBytes).getD 0
    let alt := if q = 16 * st + slot then new.streamBytes else (x.shadow.map Image.streamBytes).getD 0
    n + max own alt) 0

/-- DRAM address of the prior mirror: the lowest 64 KiB (assumption log 18). -/
def mirrorAt : Nat := dramBase

/-- Whether a region may be granted (R231, R295, Table 10.12 PLACEMENT). -/
def Pz.regionOk (z : Pz) (r : Region) : Bool :=
  let last := r.base + r.size
  let dies := (List.range 16).filter (fun d => meets r.base r.size (dieBase d) (dieSize d))
  if r.base < 0x400000000 then
    decide (last ≤ 0x400000000) && dies.all z.dieOk && !dies.any (fun d => meets r.base r.size (dieBase d) (100 * 1048576)) &&
      !z.inModel r.base r.size
  else inDram r.base && decide (last ≤ dramBase + z.dramSize) && !(r.write && meets r.base r.size mirrorAt 65536)

/-- Whether a code word is reserved (R240, R241). -/
def badWord (w : Word) : Bool := match decodeJarend (.station 0 0) w with
  | none => true
  | some i => !jarUnused i

/-- Whether a model ID may be bound: loaded, or in shadow until a commit (R282). -/
def Pz.bindable (z : Pz) (id : Word) : Bool := id == 0 || z.models.any (fun m => m.2.id == id && decide (m.2.st ≠ .checking))

/-- The status of a whole program image (Table 10.12), in the table's order. -/
def Pz.progStatus (z : Pz) (b : List Byte) (i : Image) : Nat :=
  let h := imgHead b
  let bound := i.binds.filter (fun s => s.kind != 0)
  if !z.dieOk (h.st / 4) then 3
  else if h.major ≠ 1 ∨ 2 < h.minor then 4
  else if h.leafP then 5
  else if h.words = 0 ∨ 16384 < h.words ∨ b.length ≠ 0x100 + 4 * h.words ∨ bound.any (fun s => s.depth == 0) ∨
      (i.arr ∧ (i.thresh = 0 ∨ 2047 < i.thresh)) ∨ i.budget = 0 ∨ 4 < i.pcode ∨ 7 * 1048576 < z.dieStreams h.st h.slot i then 6
  else if !i.regions.all z.regionOk then 7
  else if i.code.any badWord then 8
  else if !i.models.all z.bindable || bound.any (fun s => decide (6 < s.kind.toNat)) ||
      (i.arr && (i.bind i.tstream.toNat).isNone) then 9
  else if ((z.slot h.st h.slot).shadow.map (fun s => z.ctl.inks.any (fun k => k.m.kind.commit && k.m.cfg == s.cfg))).getD false then
    0xA
  else if !i.secure && i.regions.any (fun r => z.inSecure r.base r.size) then 0xB
  else 0

/-- Where a sender's chunks gather: by mailbox slot, 16 for relayed messages (assumption log 24). -/
def MbSrc.key : MbSrc → Nat
  | .slot n => n.toNat
  | .relay .. => 16

/-- PROG_LOAD: a chunk; the image is checked when its last byte has come, and then replaces the shadow copy (R245). -/
def Pz.progLoad (m : MbMsg) (z : Pz) : Pz :=
  let off := leAt m.payload 0 4
  let total := leAt m.payload 4 4
  let held := if off = 0 then [] else tget z.mb.loads m.src.key
  let put : List Byte → Pz → Pz := fun b z => { z with mb := { z.mb with loads := tput z.mb.loads m.src.key b } }
  let b := held ++ m.payload.drop 8
  if m.payload.length < 8 ∨ off ≠ held.length ∨ total < b.length ∨ 0x100 + 65536 < total then (put [] z).finish m 6 []
  else if b.length < total then (put b z).finish m 0 []
  else
    let i := imgOf b m.secure
    let h := imgHead b
    let st := z.progStatus b i
    let z := put [] z
    (if st = 0 then z.setSlot h.st h.slot (fun x => { x with shadow := some i }) else z).finish m st []

/-- PROG_LOAD. -/
def execProgLoad (s : State) : Host.Outcome State Fault Refusal := .next (s.onPz (Pz.front 1 anyOp Pz.progLoad))

/-- A PROG_CTL message on the slot it names (Table 10.10). -/
def Pz.progCtl (f : Nat → Nat → Pz → Pz) (m : MbMsg) (z : Pz) : Pz :=
  let st := leAt m.payload 1 1
  let p := leAt m.payload 2 1
  if 63 < st ∨ 15 < p ∨ !z.dieOk (st / 4) then z.finish m 3 [] else (f st p z).finish m 0 []

/-- PROG_ENABLE (R237). -/
def execProgEnable (s : State) : Host.Outcome State Fault Refusal :=
  .next (s.onPz (Pz.front 2 (· == 1) (Pz.progCtl fun st p z => z.setSlot st p (fun x => { x with disabled := false, faults := [] }))))

/-- PROG_DISABLE. -/
def execProgDisable (s : State) : Host.Outcome State Fault Refusal :=
  .next (s.onPz (Pz.front 2 (· == 2) (Pz.progCtl fun st p z => z.setSlot st p (fun x => { x with disabled := true }))))

/-- A slot without an image: its items are discarded as at a switch (R245); an activation that runs finishes. -/
def Pz.unloadSlot (st p : Nat) (z : Pz) : Pz :=
  ((z.dropStreams st p).dropLaunches st p).setSlot st p (fun x => { (default : PSlot) with spent := x.spent, supp := x.supp })

/-- PROG_UNLOAD. -/
def execProgUnload (s : State) : Host.Outcome State Fault Refusal :=
  .next (s.onPz (Pz.front 2 (· == 3) (Pz.progCtl Pz.unloadSlot)))

/-! ## Models, groups, program messages -/

/-- MODEL_LOAD (R280). -/
def execModelLoad (s : State) : Host.Outcome State Fault Refusal := .next (s.onPz (Pz.front 3 (· == 1) Pz.modelLoad))

/-- MODEL_UNLOAD (R285). -/
def execModelUnload (s : State) : Host.Outcome State Fault Refusal := .next (s.onPz (Pz.front 3 (· == 2) Pz.modelUnload))

/-- GROUP_DECL (Table 8.5). -/
def execGroupDecl (s : State) : Host.Outcome State Fault Refusal := .next (s.onPz (Pz.front 4 anyOp Pz.groupDecl))

/-- PROG_MSG (R234, R268): the payload becomes an MBOX item; one entry stays free for device items (R302). -/
def Pz.progMsg (m : MbMsg) (z : Pz) : Pz :=
  let st := m.station.toNat
  let p := m.pslot.toNat
  let x := z.slot st p
  match x.active.bind (fun (i : Image) => i.lowest 4) with
  | none => z.finish m 3 []
  | some (d, b) =>
    if !z.dieOk (st / 4) then z.finish m 3 []
    else if b.depth ≤ (x.items d).length + 1 then z.finish m 0xC []
    else
      let z := z.putItem st p d { bytes := m.payload, came := z.now, ask := if m.reply then some m else none }
      if m.reply then z else z.finish m 0 []

/-- PROG_MSG. -/
def execProgMsg (s : State) : Host.Outcome State Fault Refusal := .next (s.onPz (Pz.front 8 anyOp Pz.progMsg))

/-! ## Test grants (R200) -/

/-- TEST_GRANT: refused, or relayed to the leaf, whose acknowledgement brings the reply. -/
def Pz.testGrant (m : MbMsg) (z : Pz) : Pz :=
  let fleet : Word := BitVec.ofNat 32 (leAt m.payload 0 4)
  let u := leAt m.payload 4 1 % 32
  let window := leAt m.payload 0xC 3
  match z.route fleet with
  | none => z.finish m 3 []
  | some r =>
    if m.tag ≠ r.tag then z.finish m 9 []
    else if window = 0 then z.finish m 6 []
    else z.sendAsk (some m) fleet r.port.toNat 0xF m.tag 0 (leAt m.payload 8 4) (u + window * 256) [] [fleet]

/-- TEST_GRANT. -/
def execTestGrant (s : State) : Host.Outcome State Fault Refusal := .next (s.onPz (Pz.front 6 anyOp Pz.testGrant))

/-! ## Notices (R295, R296, R310, R312) -/

/-- The leaves that a notice names: one that the sender's job owns, or all of them; otherwise a status. -/
def Pz.noticeLeaves (z : Pz) (m : MbMsg) : Except Nat (List Word) :=
  let fleet : Word := BitVec.ofNat 32 (leAt m.payload 4 4)
  if fleet = 0xFFFFFFFF then (if m.tag = 0 then .error 9 else .ok (z.jobLeaves m.tag))
  else match z.route fleet with
    | none => .error 3
    | some r => if m.tag = 0 ∨ r.tag ≠ m.tag then .error 9 else .ok [fleet]

/-- A notice applied to its leaves; the reply tells LIVE and EVAL of the first. -/
def Pz.notice (f : Word → Pz → Pz) (m : MbMsg) (z : Pz) : Pz :=
  match z.noticeLeaves m with
  | .error st => z.finish m st []
  | .ok ls =>
    let z := ls.foldl (fun z w => f w z) z
    let r := ((ls.head?.bind z.route).map (fun r => r.live.toNat + r.eval.toNat * 4)).getD 0
    z.finish m 0 (leB 1 r)

/-- EFF_EP of a FENCE or UNFENCE. -/
def MbMsg.arg0 (m : MbMsg) : Word := BitVec.ofNat 32 (leAt m.payload 8 4)

/-- A fence notice; one for a leaf already so is applied without change (R310). -/
def Pz.fenceNotice (on : Bool) (m : MbMsg) (z : Pz) : Pz := z.notice (fun w z => z.fenceLeaf w on m.arg0) m

/-- NOTICE_FENCE. -/
def execNoticeFence (s : State) : Host.Outcome State Fault Refusal :=
  .next (s.onPz (Pz.front 7 (· == 1) (Pz.fenceNotice true)))

/-- NOTICE_UNFENCE. -/
def execNoticeUnfence (s : State) : Host.Outcome State Fault Refusal :=
  .next (s.onPz (Pz.front 7 (· == 2) (Pz.fenceNotice false)))

/-- NOTICE_TARGET (R305): target, COST and MARGIN of a shard. -/
def execNoticeTarget (s : State) : Host.Outcome State Fault Refusal :=
  .next (s.onPz (Pz.front 7 (· == 3) fun m z => z.notice (fun w z => z.setRoute w (fun r => { r with
    work := some (m.arg0, BitVec.ofNat 32 (leAt m.payload 0xC 4), BitVec.ofNat 32 (leAt m.payload 0x10 4)) })) m))

/-- The prior table's mirror rewritten whole (R295); nothing before its memory has been reached (Table 18.10). -/
def Pz.mirror (z : Pz) : Pz :=
  if !z.exists? mirrorAt then z
  else
    let bytes := (List.range 4096).flatMap (fun e =>
      leB 8 (z.peatWord (1 + e / 252) (2 * (e % 252))).toNat ++ leB 8 (z.peatWord (1 + e / 252) (2 * (e % 252) + 1)).toNat)
    ((z.write mirrorAt bytes).setReg 0x70020 (BitVec.ofNat 32 mirrorAt)).setReg 0x70024 (BitVec.ofNat 32 (mirrorAt / 2 ^ 32))

/-- NOTICE_PHASE (R312): from the host it is refused with BADTYPE. -/
def execNoticePhase (s : State) : Host.Outcome State Fault Refusal :=
  .next (s.onPz (Pz.front 7 (· == 5) fun m z => z.finish m 2 []))

/-- Entries of a PRIOR notice written in order; the first that fails with its LAST_RES. -/
def Pz.putPriors (first : Nat) (verified : List (Bool × Bool)) (payload : List Byte) : Nat → Nat → Pz → Option Nat × Pz
  | 0, _, z => (none, z)
  | n + 1, i, z =>
    let e := first + i
    let v := verified.getD i (true, true)
    let r := z.peatStore (1 + e / 252) [(2 * (e % 252), BitVec.ofNat 64 (leAt payload (0x10 + 16 * i) 8)),
      (2 * (e % 252) + 1, BitVec.ofNat 64 (leAt payload (0x18 + 16 * i) 8))] v.1 v.2
    if r.1 ≠ 0 then (some e, r.2) else Pz.putPriors first verified payload n (i + 1) r.2

/-- NOTICE_PRIOR (R296): entries before one that fails stay written, and the reply names that one. -/
def Pz.priors (verified : List (Bool × Bool)) (m : MbMsg) (z : Pz) : Pz :=
  let first := leAt m.payload 4 2
  let n := leAt m.payload 6 2
  if m.tag ≠ 0 then z.finish m 9 []
  else if n = 0 ∨ 254 < n ∨ 4096 < first + n ∨ m.payload.length < 0x10 + 16 * n then z.finish m 6 []
  else match z.putPriors first verified m.payload n 0 with
    | (some e, z) => z.mirror.finish m 0xF (leB 4 e)
    | (none, z) => z.mirror.finish m 0 []

/-- NOTICE_PRIOR. -/
def execNoticePrior (verified : List (Bool × Bool)) (s : State) : Host.Outcome State Fault Refusal :=
  .next (s.onPz (Pz.front 7 (· == 4) (Pz.priors verified)))

end Sys2Proof.Machine
end

