-- ==== Sys2Proof/Machine/PzJobs.lean ====
section
/-!
DEFINITION. Sys2Proof/Machine/PzJobs.lean: jobs at Polornaz: prepares and commits (R318, R327 to R329, Table 14.8), Inklines
issued and applied (R302, R320, R321), cuts above the chain (R330), teardown (R331, R332), and the CONFIG messages.
-/

namespace Sys2Proof.Machine

/-! ## Inklines issued (R320, R321) -/

/-- A pending prepare changed; the PREP flag follows. -/
def Pz.setPrep (tag : BitVec 24) (p : Option Prep) (z : Pz) : Pz :=
  let z := z.setJob tag (fun j => { j with prep := p })
  z.setFld PzR.CF_STAT_PREP (b2n (z.ctl.jobs.any (fun j => j.2.prep.isSome)))

/-- A teardown under way changed. -/
def Pz.setTear (tag : BitVec 24) (p : Option Prep) (z : Pz) : Pz := z.setJob tag (fun j => { j with tear := p })

/-- The pending prepare of a job. -/
def Pz.prepOf (z : Pz) (tag : BitVec 24) : Option Prep := (z.job tag).bind (·.prep)

/-- A lease whose next epoch is not later than the epoch in force at a chain of the job is void (R320). -/
def Pz.lapse (tag : BitVec 24) (z : Pz) : Pz :=
  let z := z.refill
  let es := if z.role = 0 then (z.jobPorts tag).map (fun p => (tget z.ctl.chains p).epoch) else z.ctl.kids.map (fun k => k.2.epoch)
  if z.role ≠ 2 ∧ z.ctl.left ≠ 0 ∧ es.any (fun e => !laterInk z.ctl.next e && e != 0) then z.voidLease else z

/-- Step 6 at a device with the leaves: ARM for the commit's epoch to every ready leaf. -/
def Pz.armReady (tag : BitVec 24) (m : InkMsg) (z : Pz) : Pz :=
  match z.prepOf tag with
  | none => z
  | some p =>
    let z := z.setPrep tag (some { p with st := .committing, epoch := m.epoch, time := m.time.toNat })
    p.ready.foldl (fun z w => z.sendLeaf w 2 tag m.cfg m.epoch.toNat (cfgMsg p.payload).pcode.toNat []) z

/-- TEARDOWN messages for the Inkline of a teardown: one to all members of a chain that goes whole, else one a leaf; the
leaves' teardown is pending from now on. -/
def Pz.sendTeardowns (tag : BitVec 24) (e : Word) (z : Pz) : Pz :=
  match (z.job tag).bind (·.tear) with
  | none => z
  | some t =>
    let z := z.setTear tag (some { t with epoch := e })
    let z := t.want.foldl (fun z w => z.setRoute w (fun r => { r with teardown := true })) z
    (List.range 16).foldl (fun z port =>
      let mine := z.leavesWith (fun r => r.port.toNat == port && r.tag == tag)
      let ls := t.want.filter (fun w => mine.any (· == w))
      let rcpt := if 1 < ls.length ∧ ls.length = mine.length then [((0xFFFFFFFF : Word), ls)] else ls.map (fun w => (w, [w]))
      rcpt.foldl (fun (z : Pz) x => z.sendAsk none x.1 port 6 tag 0 x.1.toNat e.toNat [] x.2) z) z

/-- An Inkline of a job goes down from here, with what must precede it. -/
def Pz.passInk (tag : BitVec 24) (m : InkMsg) (tearing : Bool) (z : Pz) : Pz :=
  let z := if m.kind.commit then z.armReady tag m else if tearing then z.sendTeardowns tag m.epoch else z
  z.deliverInk tag m

/-- An Inkline that the home issues: for a tag, its KIND, the time asked and whether it tears down. It waits when the lease
has no epoch left. -/
def Pz.issueInk (w : BitVec 24 × Kind × Nat × Nat) (z : Pz) : Pz :=
  if (z.job w.1).isNone then z
  else
    let z := z.lapse w.1
    match z.takeRange 1 with
    | none => Pz.wantLease { z with ctl := { z.ctl with inkWait := z.ctl.inkWait ++ [w] } }
    | some (e, z) =>
      let cfg := if w.2.1.commit then ((z.prepOf w.1).map (·.cfg)).getD 0 else 0
      z.passInk w.1 { epoch := e, time := BitVec.ofNat 64 (up50 (max w.2.2.1 (z.now + z.leadNs))), kind := w.2.1, cfg := cfg }
        (w.2.2.2 == 1)

/-- Inklines that waited for epochs are tried again, in order. -/
def Pz.retryInks (z : Pz) : Pz :=
  z.ctl.inkWait.foldl (fun z w => z.issueInk w) { z with ctl := { z.ctl with inkWait := [] } }

/-! ## Prepares (R327, Table 14.8) -/

/-- Whether everything a prepare or teardown waits for has answered or has been counted missing. -/
def Prep.answered (p : Prep) : Bool :=
  p.want.all (fun w => p.ready.any (· == w) || p.missing.any (· == w)) && p.wait.isEmpty

/-- Leaves that have answered, here and below. -/
def Prep.readyN (p : Prep) : Nat := p.ready.length + p.up

/-- Leaves missing, here and below. -/
def Prep.missAll (p : Prep) : List Word := p.missing ++ p.upMiss

/-- The answer of a prepare or teardown to the parent (Table 14.4): OK, or PARTIAL with the missing. -/
def Pz.answerPrep (h : CtlHead) (p : Prep) (z : Pz) : Pz :=
  z.answer h.sender h.cseq 0xD (if p.missAll.isEmpty then 0 else 7) 0 h.cfg (p.missAll.length + p.more) p.readyN
    ((p.missAll.take 56).flatMap (fun w => leB 4 w.toNat))

/-- The commit begins (step 6). -/
def Pz.beginCommit (tag : BitVec 24) (z : Pz) : Pz :=
  match z.prepOf tag with
  | none => z
  | some p => (z.setPrep tag (some { p with st := .committing })).issueInk (tag, ⟨false, false, true⟩, (cfgMsg p.payload).time, 0)

/-- Steps 4 and 5: when all has answered, the home commits or tells what is missing; another device answers its parent. -/
def Pz.prepCheck (tag : BitVec 24) (z : Pz) : Pz :=
  match z.prepOf tag with
  | none => z
  | some p =>
    if p.st ≠ .preparing || !p.answered || z.models.any (fun m => m.2.cfg == p.cfg && decide (m.2.st = .checking)) then z
    else
      let wait := z.setPrep tag (some { p with st := .partialWait, since := z.now })
      match p.ask with
      | some h => wait.answerPrep h p
      | none =>
        if p.missAll.isEmpty then (z.jobAdv 1 0 tag p.cfg 0 p.readyN 0 0 []).beginCommit tag
        else wait.jobAdvN 2 0 tag p.cfg 0 p.readyN 0 0 p.more p.missAll

/-- Leaves of a prepare that are missing at once (R337, R355): out of service and not yet in the job, or on a chain whose
effective MINOR is too low for the image. -/
def Pz.missingAtOnce (z : Pz) (p : Prep) (tag : BitVec 24) (w : Word) : Bool :=
  match z.route w with
  | none => true
  | some r => (r.oos && r.tag != tag) ||
      (!z.copies p w && decide ((tget z.ctl.chains r.port.toNat).minor < (cfgMsg p.payload).minor))

/-- Whether entries would put leaves of two tags on one chain (R322). -/
def Pz.breaksShare (z : Pz) (tag : BitVec 24) (es : List (Word × Bool)) : Bool :=
  (z.entryLeaves es).any (fun w => match z.route w with
    | none => false
    | some r => !(z.leavesWith (fun x => x.port == r.port && x.tag != 0 && x.tag != tag && !x.teardown)).isEmpty ||
        (r.tag != 0 && r.tag != tag && (r.assign.map (· != tag)).getD false))

/-- The leaves that a prepare wants made ready here. -/
def Pz.prepWant (z : Pz) (tag : BitVec 24) (c : CfgMsg) : List Word :=
  if z.role ≠ 0 then []
  else ((if c.cop = 3 then [] else z.entryLeaves c.entries) ++ (if c.cop = 2 then [] else z.jobLeaves tag)).eraseDups

/-- The job's record at this device, made on the first START that names it. -/
def Pz.openJob (c : CfgMsg) (homed : Bool) (z : Pz) : Pz :=
  z.setJob c.tag (fun j => if j.tag = c.tag ∧ !j.gone then j else
    { (default : Job) with tag := c.tag, level := c.level, phase := c.phase, before := c.phase, pcode := c.pcode, homed := homed })

/-- A message of the job goes to every child that is not silent; those that are asked. -/
def Pz.relayPrepare (tag : BitVec 24) (cfg : BitVec 16) (payload : List Byte) (z : Pz) : Pz :=
  if z.role = 0 then z else z.liveKids.foldl (fun z k => z.sendCfg k.1 k.2 0xD tag cfg 0 0 payload) z

/-- Children that a relayed message waits for. -/
def Pz.relayWait (z : Pz) : List Word := if z.role = 0 then [] else z.liveKids.map (·.1)

/-- Steps 1 to 3: a START, CHANGE or GROW begins at a device; `ask` is the parent's message at any but the home. -/
def Pz.prepare (payload : List Byte) (ask : Option CtlHead) (z : Pz) : Pz :=
  let c := cfgMsg payload
  let tag := c.tag
  let z := z.openJob c ask.isNone
  let want := z.prepWant tag c
  let p0 : Prep := { cop := c.cop, cfg := c.cfg, payload := payload, entries := c.entries, want := want, ready := [], missing := []
                     wait := z.relayWait, up := 0, upMiss := [], more := 0, st := .preparing, since := z.now, epoch := 0, time := 0, ask := ask }
  let miss := want.filter (z.missingAtOnce p0 tag)
  let z := (z.setPrep tag (some { p0 with missing := miss })).relayPrepare tag c.cfg payload
  let go := want.filter (fun w => !miss.any (· == w))
  let has : (Route → Bool) → List Word := fun ok => go.filter (fun w => ((z.route w).map ok).getD false)
  let free := has (fun r => r.tag == 0)
  let held := has (fun r => r.tag != 0 && r.tag != tag)
  let mine := has (fun r => r.tag == tag)
  let z := free.foldl (fun z w => z.ownLeaf w tag) z
  let z := held.foldl (fun z w => z.setRoute w (fun r => { r with assign := some tag })) z
  (z.beginLeaves tag (mine ++ free)).prepCheck tag

/-- A prepare ends without a commit: at the home with ABORTED; the leaves of a job that never committed are unowned again
(assumption log 24). -/
def Pz.abortPrep (tag : BitVec 24) (z : Pz) : Pz :=
  match z.prepOf tag with
  | none => z
  | some p =>
    let z := z.giveUp (fun s => s.tag == tag && (s.op == 1 || s.op == 2 || s.op == 0xD))
    let z := (z.leavesWith (fun r => r.assign == some tag)).foldl (fun z w => z.setRoute w (fun r => { r with assign := none })) z
    let z := { z with ctl := { z.ctl with alloced := z.ctl.alloced.filter (· != p.cfg) } }
    let z := z.relayPrepare tag p.cfg (leB 1 8 ++ leB 3 tag.toNat ++ leB 4 p.cfg.toNat ++ List.replicate 24 0)
    let z := if p.ask.isNone then z.jobAdvN 5 0 tag p.cfg 0 p.readyN 0 0 p.more p.missAll else z
    let fresh := ((z.job tag).map (fun j => j.cfg == 0)).getD false
    let z := z.setPrep tag none
    if fresh then ((z.jobLeaves tag).foldl (fun z w => z.ownLeaf w 0) z).setJob tag (fun j => { j with gone := true }) else z

/-- A leaf that a prepare wants has answered its ARM. -/
def Pz.leafReady (tag : BitVec 24) (w : Word) (ok : Bool) (z : Pz) : Pz :=
  match z.prepOf tag with
  | none => z
  | some p =>
    if p.st = .preparing ∧ p.want.any (· == w) then
      let rest := p.missing.filter (· != w)
      let p' := if ok then { p with ready := p.ready.filter (· != w) ++ [w], missing := rest }
        else { p with missing := rest ++ [w], ready := p.ready.filter (· != w) }
      (z.setPrep tag (some p')).prepCheck tag
    else if p.st = .committing ∧ !ok then z.setPrep tag (some { p with ready := p.ready.filter (· != w) })
    else z

/-! ## Teardown (R331, R332) -/

/-- A teardown or shrink is over when every leaf has moved or has been counted missing. -/
def Pz.tearCheck (tag : BitVec 24) (z : Pz) : Pz :=
  match z.job tag with
  | none => z
  | some j =>
    match j.tear with
    | none => z
    | some t =>
      if !t.answered then z
      else
        let z := z.setJob tag (fun j => { j with tear := none, gone := t.cop == 6
                                                 entries := j.entries.filter (fun e => !t.entries.any (· == e)) })
        match t.ask with
        | some h => z.answerPrep h t
        | none => z.jobAdvN 7 0 tag j.cfg t.epoch t.readyN 0 0 t.more t.missAll

/-- A leaf's teardown is acknowledged, or released: its ownership moves. -/
def Pz.tearAck (tag : BitVec 24) (w : Word) (z : Pz) : Pz :=
  match z.route w with
  | none => z
  | some r =>
    if r.tag ≠ tag then z
    else
      let z := z.giveUp (fun s => s.op == 6 && s.tag == tag && s.rcpt == w)
      let z := (z.job tag).elim z (fun j => z.setTear tag (j.tear.map (fun (t : Prep) =>
        if t.want.any (· == w) then { t with ready := t.ready ++ [w], missing := t.missing.filter (· != w) } else t)))
      (z.moveLeaf w).tearCheck tag

/-- A teardown or shrink begins: a pending prepare ends as CANCEL ends it, and the home issues the Inkline. -/
def Pz.teardown (payload : List Byte) (ask : Option CtlHead) (z : Pz) : Pz :=
  let c := cfgMsg payload
  let tag := c.tag
  let z := if ((z.prepOf tag).map (fun p => decide (p.st ≠ .committing))).getD false then z.abortPrep tag else z
  let mine := if z.role = 0 then z.jobLeaves tag else []
  let want := if c.cop = 6 then mine else (z.entryLeaves c.entries).filter (fun w => mine.any (· == w))
  if (z.job tag).isNone then
    match ask with
    | some h => z.answer h.sender h.cseq 0xD 0 0 h.cfg 0 0 []
    | none => z
  else
    let t : Prep := { cop := c.cop, cfg := 0, payload := payload, entries := c.entries, want := want, ready := [], missing := []
                      wait := z.relayWait, up := 0, upMiss := [], more := 0, st := .preparing, since := z.now, epoch := 0, time := 0, ask := ask }
    let z := (z.setTear tag (some t)).relayPrepare tag 0 payload
    if ask.isNone then z.issueInk (tag, ⟨false, false, false⟩, c.time, 1) else z

/-- RELEASE: the named leaves of the tag whose teardown is pending move. -/
def Pz.release (payload : List Byte) (z : Pz) : Pz :=
  let c := cfgMsg payload
  let z := z.relayPrepare c.tag 0 payload
  let ls := (z.entryLeaves c.entries).filter (fun w => ((z.route w).map (fun r => r.tag == c.tag && r.teardown)).getD false)
  ls.foldl (fun z w => z.tearAck c.tag w) z

/-! ## Cuts (R330) -/

/-- A cut changed. -/
def Pz.setCut (e : Word) (f : TCut → TCut) (z : Pz) : Pz :=
  { z with ctl := { z.ctl with cuts := z.ctl.cuts.map (fun c => if c.epoch = e then f c else c) } }

/-- A cut closes: told upward, or at the home to the run-time; a commit is then COMMITTED. -/
def Pz.closeCut (c : TCut) (z : Pz) : Pz :=
  let z := { z with ctl := { z.ctl with cuts := z.ctl.cuts.filter (fun x => x.epoch != c.epoch) } }
  let j := tget z.ctl.jobs c.tag.toNat
  if j.homed then
    let z := z.jobAdv 6 (kindNum c.kind) c.tag j.cfg c.epoch c.ready c.late c.timeout c.missing
    if c.kind.commit then (z.jobAdvN 3 0 c.tag j.cfg c.epoch c.okN 0 0 c.more c.bad).tellStaged c.tag else z
  else z.askParent 0xC c.tag 0 c.epoch.toNat (min 65535 c.done + min 65535 c.timeout * 65536)
    ((c.missing.take 54).flatMap (fun w => leB 4 w.toNat))

/-- A cut closes once it has applied here and nothing is awaited. -/
def Pz.cutCheck (e : Word) (z : Pz) : Pz :=
  match z.ctl.cuts.find? (fun c => c.epoch == e) with
  | none => z
  | some c =>
    if c.chains.isEmpty && c.flushes.isEmpty && c.kids.isEmpty && !z.ctl.inks.any (fun i => i.m.epoch == e) then z.closeCut c
    else z

/-- TRAY_CUT_TIMEOUT (R330): 2 ms after T a tray's cut closes with its missing chains and leaves listed. -/
def Pz.cutTimeout (e : Word) (z : Pz) : Pz :=
  match z.ctl.cuts.find? (fun c => c.epoch == e) with
  | none => z
  | some c =>
    if z.role ≠ 0 ∨ z.ctl.inks.any (fun i => i.m.epoch == e) then z
    else
      let z := z.advanceTo (c.time + 2000000)
      let late := (c.flushes.map (·.1)).eraseDups
      let gone := z.leavesWith (fun r => r.tag == c.tag && c.chains.any (· == r.port.toNat))
      let ports := (c.chains ++ late.filterMap (fun w => (z.route w).map (fun r => r.port.toNat))).eraseDups
      z.closeCut { c with timeout := c.timeout + ports.length, done := c.done - (ports.length - c.chains.length)
                          missing := (c.missing ++ gone ++ late).eraseDups }

/-- TRAY_CUT_TIMEOUT. -/
def execTrayCutTimeout (epoch : Word) (s : State) : Host.Outcome State Fault Refusal :=
  .next (s.onPz (Pz.cutTimeout epoch))

/-- CUT_REPORT_RX (Table 6.4): a chain's report; flushes in five classes are awaited from its leaves on time or late. -/
def Pz.cutReport (port : Nat) (z : Pz) : Pz :=
  match z.takeCtl port (fun m => m.ty == 6) with
  | none => z
  | some (m, z) =>
    let z := z.heard m.fleet
    let e : Word := BitVec.ofNat 32 (leAt m.body 0 4)
    let at_ : Nat → List Word := fun off => z.leavesWith (fun r => r.port.toNat == port && bit (leAt m.body off 8) r.pos.toNat)
    let ready := at_ 8
    let late := at_ 0x10
    let due : List (Word × BitVec 3) := (ready ++ late).flatMap (fun w => (List.range 5).map (fun k => (w, BitVec.ofNat 3 k)))
    let z := z.setCut e (fun c => if !c.chains.any (· == port) then c else
      { c with chains := c.chains.filter (· != port), ready := c.ready + ready.length, late := c.late + late.length
               done := c.done + 1, missing := c.missing ++ at_ 0x18
               flushes := c.flushes ++ due.filter (fun x => !c.early.any (· == x)) })
    z.cutCheck e

/-- CUT_REPORT_RX. -/
def execCutReportRx (port : BitVec 4) (s : State) : Host.Outcome State Fault Refusal :=
  .next (s.onPz (Pz.cutReport port.toNat))

/-- A FLUSH of a leaf in a class (R162, R330). -/
def Pz.flushOf (m : Message) (z : Pz) : Pz :=
  let e : Word := BitVec.ofNat 32 (leAt m.body 0 4)
  let k := (m.fleet, m.cls)
  ((z.liveOther m.fleet).setCut e (fun c => if c.flushes.any (· == k) then { c with flushes := c.flushes.filter (· != k) }
    else { c with early := k :: c.early })).cutCheck e

/-- INGRESS_FLUSH: the oldest flush of a port in a class. -/
def Pz.ingressFlush (port cls : Nat) (z : Pz) : Pz :=
  if cls = 1 then
    match z.takeCtl port (fun m => m.ty == 3) with
    | none => z
    | some (m, z) => z.flushOf m
  else
    match z.takeMsg port cls 3 with
    | none => z
    | some (m, _, z) => z.flushOf m

/-- INGRESS_FLUSH. -/
def execIngressFlush (port : BitVec 4) (cls : BitVec 3) (s : State) : Host.Outcome State Fault Refusal :=
  .next (s.onPz (Pz.ingressFlush port.toNat cls.toNat))

/-! ## Config epochs (R318, Table 14.6 ALLOC) -/

/-- A CHANGE with unchanged content, by which the root re-stamps a job (R318). -/
def restampPayload (j : Job) (cfg : BitVec 16) : List Byte :=
  leB 1 3 ++ leB 3 j.tag.toNat ++ leB 4 (cfg.toNat + j.level.toNat * 2 ^ 16 + b2n j.phase * 2 ^ 18 + j.pcode.toNat * 2 ^ 19) ++
    List.replicate 24 0

/-- Whether a job has nothing pending. -/
def Job.quiet (j : Job) : Bool := j.prep.isNone && j.tear.isNone && !j.staging

/-- The root re-stamps the job that holds the oldest epoch, once the distance is reached; a change under way does it. -/
def Pz.restamp (z : Pz) : Pz :=
  let old := (z.ctl.jobs.map Prod.snd).find? (fun j => j.cfg != 0 && !j.gone && decide (16384 < (z.ctl.nextCfg + 1 - j.cfg).toNat))
  match old with
  | none => z
  | some j =>
    if !(j.homed && j.quiet && z.ctl.based) then z
    else
      let c := z.ctl.nextCfg
      Pz.prepare (restampPayload j c) none { z with ctl := { z.ctl with nextCfg := if c + 1 = 0 then 1 else c + 1 } }

/-- ALLOC requests that wait at the root are served while there are epochs. -/
def Pz.serveAllocs : Nat → Pz → Pz
  | 0, z => z
  | n + 1, z =>
    match z.ctl.askEpoch with
    | [] => z
    | m :: rest =>
      match z.allocCfg with
      | none => z.restamp
      | some (c, z) => Pz.serveAllocs n (Pz.finish m 0 (leB 2 c.toNat)
          { z with ctl := { z.ctl with askEpoch := rest, alloced := c :: z.ctl.alloced } })

/-- Those that can be served now. -/
def Pz.retryAllocs (z : Pz) : Pz := if z.role = 2 then z.serveAllocs (z.ctl.askEpoch.length + 1) else z

/-- CONFIG_ALLOC: the reply waits for the epoch, from the root if this is not it. -/
def execConfigAlloc (s : State) : Host.Outcome State Fault Refusal :=
  .next (s.onPz (Pz.front 5 (· == 1) fun m z =>
    let z := { z with ctl := { z.ctl with askEpoch := z.ctl.askEpoch ++ [m] } }
    if z.role = 2 then z.retryAllocs else z.askParent 0xB (cfgMsg m.payload).tag 0 0 0 []))

/-- PEAT_STORE_WRITE: an RWP write of the Peat store block; `v0` and `v1` say whether each keeper verifies it. The epoch
bases let a root without keeper state answer ALLOC (R357). -/
def execPeatStoreWrite (p : Port) (addr : BitVec 26) (data : Word) (v0 v1 : Bool) (s : State) :
    Host.Outcome State Fault Refusal :=
  .next (s.onPz (Pz.guarded p addr (fun z => (z.psWrite (barOff addr) data v0 v1).retryAllocs)))

/-- MODEL_LOAD_DONE: a prepare may have waited for the load. -/
def execModelLoadDone (model : Word) (s : State) : Host.Outcome State Fault Refusal :=
  .next (s.onPz fun z => z.ctl.jobs.foldl (fun z j => z.prepCheck j.2.tag) (z.modelDone model))

/-! ## An Inkline applies at a Polornaz (Table 14.8 step 7, R302) -/

/-- PHASE items at a switch (R302): into the lowest MBOX stream of every active slot with a stream bound to the tag. -/
def Pz.phaseItems (tag : BitVec 24) (epoch : Word) (new old : Bool) (pcode : Nat) (z : Pz) : Pz :=
  let bytes := leB 4 5 ++ leB 4 0 ++ leB 4 epoch.toNat ++ leB 4 (b2n new + 2 * b2n old + 4 * pcode) ++ leB 4 0
  z.slots.foldl (fun z s =>
    match s.2.active with
    | none => z
    | some im =>
      if !im.binds.any (fun b => b.kind != 0 && b.tag == tag) then z
      else match im.lowest 4 with
        | none => z
        | some (d, _) => z.putItem (s.1 / 16) (s.1 % 16) d { bytes := bytes, came := z.now, ask := none }) z

/-- Phase switches after one more; the newest four are kept (R302). -/
def Job.switch (j : Job) (epoch : Word) (ph : Bool) : Job :=
  { j with switches := ((epoch, ph) :: j.switches).take 4
           before := match j.switches.drop 3 with
             | s :: _ => s.2
             | [] => j.before }

/-- The commit of a prepare takes effect. -/
def Pz.commitJob (tag : BitVec 24) (m : InkMsg) (z : Pz) : Pz :=
  match z.job tag with
  | none => z
  | some j =>
    match j.prep.filter (fun (p : Prep) => p.cfg == m.cfg) with
    | none => z
    | some p =>
      let c := cfgMsg p.payload
      let moved := j.cfg != 0 && c.phase != j.phase
      let locals := (z.imageParts (p.imageHead j)).2
      let head := if c.llen ≠ 0 ∧ (p.cop ≠ 4 ∨ (cfgMsg j.head).llen = 0) then p.payload.take 0x20 else j.head
      let entries := if p.cop = 2 then c.entries else if p.cop = 4 then j.entries ++ c.entries else j.entries
      let z := z.setJob tag (fun j =>
        let j := if moved then j.switch m.epoch c.phase else j
        { j with cfg := m.cfg, commit := m.epoch, phase := c.phase, pcode := c.pcode, entries := entries, head := head })
      let z := z.setPrep tag none
      let z := (z.jobLeaves tag).foldl (fun z w => z.setRoute w (fun r => { r with phase := c.phase })) z
      let z := if moved then z.phaseItems tag m.epoch c.phase j.phase c.pcode.toNat else z
      let z := z.slots.foldl (fun z s => match s.2.shadow with
        | some im => if im.cfg = m.cfg then z.switchImage (s.1 / 16) (s.1 % 16) im else z
        | none => z) z
      let z := ((z.commitModels m.cfg).setFld PzR.CF_STAT_LAST_CFG m.cfg.toNat).setFld PzR.PKG_STAT_ROLE_LOCK 1
      let z := { z with ctl := { z.ctl with alloced := z.ctl.alloced.filter (· != m.cfg) } }
      let z := if locals.isEmpty then z else z.loadLeaves tag m.cfg locals p.ready
      let rest := (z.jobLeaves tag).filter (fun w => !p.ready.any (· == w))
      let z := rest.foldl (fun z w => z.bringUp w) z
      let st := z.stagingOf m.cfg
      let z := z.setJob tag (fun j => { j with staging := st, tell := st && j.homed })
      let z := (z.setCut m.epoch (fun x => { x with okN := p.readyN, bad := p.missAll, more := p.more })).restoreStart tag m.cfg
      (if j.homed then z.saveSoon else z).retryAllocs

/-- The pending Inkline with the earliest time. -/
def Pz.nextInk (z : Pz) : Option TrayInk :=
  z.ctl.inks.foldl (fun (b : Option TrayInk) i => match b with
    | none => some i
    | some a => if i.m.time.toNat < a.m.time.toNat then some i else b) none

/-- TRAY_INKLINE: tray time comes to the next pending Inkline, which applies here. -/
def Pz.trayInkline (z : Pz) : Pz :=
  match z.nextInk with
  | none => z
  | some i =>
    let m := i.m
    let z := z.advanceTo m.time.toNat
    let newer := laterInk m.epoch z.ctl.epoch
    let z := { z with ctl := { z.ctl with
      inks := z.ctl.inks.erase i, started := ((m.epoch, m.time.toNat) :: z.ctl.started).take 16
      epoch := if newer then m.epoch else z.ctl.epoch, inkTime := if newer then m.time.toNat else z.ctl.inkTime } }
    let z := z.notePast m.epoch
    let z := if m.kind.commit then z.commitJob i.tag m else z
    let z := match (z.job i.tag).bind (fun (j : Job) => j.tear) with
      | some t => if t.epoch = m.epoch then
          t.want.foldl (fun (z : Pz) w => z.setRoute w (fun r => if r.tag = i.tag then { r with torn := true } else r)) z else z
      | none => z
    let z := z.dueFences i.tag m.epoch
    let z := if m.kind.ckpt then
        (let z := z.snapStart i.tag m
         if ((z.job i.tag).map (fun (j : Job) => j.homed)).getD false then z.saveSoon else z) else z
    z.cutCheck m.epoch

/-- TRAY_INKLINE. -/
def execTrayInkline (s : State) : Host.Outcome State Fault Refusal := .next (s.onPz Pz.trayInkline)

/-! ## CONFIG messages (Tables 14.5 and 14.6) -/

/-- A CONFIG message of an operation at the front, its payload read; one whose envelope names another tag than its payload
and is not the operator's is refused with BINDING (assumption log 24). -/
def Pz.config (cop : Nat) (f : CfgMsg → MbMsg → Pz → Pz) : Pz → Pz :=
  Pz.front 5 (· == cop) fun m z =>
    let c := cfgMsg m.payload
    if m.tag ≠ 0 ∧ m.tag ≠ c.tag then z.finish m 9 [] else f c m z

/-- The status that refuses a START, CHANGE or GROW, or 0 (R320, R322, R327). -/
def Pz.prepStatus (z : Pz) (c : CfgMsg) (payload : List Byte) : Nat :=
  let j := z.job c.tag
  if c.level.toNat ≠ z.role ∨ c.tag = 0 then 3
  else if c.cop ≠ 2 ∧ !((j.map (·.homed)).getD false) then 3
  else if z.role = 0 ∧ c.cop ≠ 3 ∧ c.entries.any (fun e => (z.route e.1).isNone) then 3
  else if !z.ctl.alloced.any (· == c.cfg) then 9
  else if (j.map (fun j => !j.quiet)).getD false then 0xA
  else if z.role = 0 ∧ c.llen ≠ 0 ∧ (z.imageRecs payload).isNone then 1
  else if c.cop ≠ 3 ∧ z.breaksShare c.tag c.entries then Config.sharedStatus.toNat
  else 0

/-- A START, CHANGE or GROW at the home: answered, then prepared. -/
def Pz.cfgPrepare (c : CfgMsg) (m : MbMsg) (z : Pz) : Pz :=
  let st := z.prepStatus c m.payload
  if st ≠ 0 then z.finish m st [] else (z.finish m 0 []).prepare m.payload none

/-- CONFIG_START. -/
def execConfigStart (s : State) : Host.Outcome State Fault Refusal := .next (s.onPz (Pz.config 2 Pz.cfgPrepare))

/-- CONFIG_CHANGE. -/
def execConfigChange (s : State) : Host.Outcome State Fault Refusal := .next (s.onPz (Pz.config 3 Pz.cfgPrepare))

/-- CONFIG_GROW. -/
def execConfigGrow (s : State) : Host.Outcome State Fault Refusal := .next (s.onPz (Pz.config 4 Pz.cfgPrepare))

/-- A message about a job homed here; BADDEST for any other. -/
def Pz.homedJob (c : CfgMsg) (m : MbMsg) (f : Job → Pz → Pz) (z : Pz) : Pz :=
  match (z.job c.tag).filter (·.homed) with
  | none => z.finish m 3 []
  | some j => f j z

/-- A SHRINK or TEARDOWN at the home; BUSY while one is under way. -/
def Pz.cfgTear (c : CfgMsg) (m : MbMsg) : Pz → Pz :=
  Pz.homedJob c m fun j z => if j.tear.isSome then z.finish m 0xA [] else (z.finish m 0 []).teardown m.payload none

/-- CONFIG_SHRINK. -/
def execConfigShrink (s : State) : Host.Outcome State Fault Refusal := .next (s.onPz (Pz.config 5 Pz.cfgTear))

/-- CONFIG_TEARDOWN. -/
def execConfigTeardown (s : State) : Host.Outcome State Fault Refusal := .next (s.onPz (Pz.config 6 Pz.cfgTear))

/-- CONFIG_ACCEPT (R327): a partial prepare of that config epoch is committed. -/
def execConfigAccept (s : State) : Host.Outcome State Fault Refusal :=
  .next (s.onPz (Pz.config 7 fun c m => Pz.homedJob c m fun j z =>
    match j.prep with
    | some p => if p.cfg = c.cfg ∧ p.st = .partialWait then (z.finish m 0 []).beginCommit c.tag else z.finish m 9 []
    | none => z.finish m 9 []))

/-- CONFIG_CANCEL (R327): BUSY once the commit has begun. -/
def execConfigCancel (s : State) : Host.Outcome State Fault Refusal :=
  .next (s.onPz (Pz.config 8 fun c m => Pz.homedJob c m fun j z =>
    match j.prep with
    | some p => if p.cfg ≠ c.cfg then z.finish m 9 []
        else if p.st = .committing then z.finish m 0xA []
        else (z.finish m 0 []).abortPrep c.tag
    | none => z.finish m 9 []))

/-- CONFIG_INKLINE: an Inkline of the job at T with KIND. -/
def execConfigInkline (s : State) : Host.Outcome State Fault Refusal :=
  .next (s.onPz (Pz.config 9 fun c m => Pz.homedJob c m fun _ z => (z.finish m 0 []).issueInk (c.tag, c.kind, c.time, 0)))

/-- CONFIG_RELEASE (R331). -/
def execConfigRelease (s : State) : Host.Outcome State Fault Refusal :=
  .next (s.onPz (Pz.config 10 fun _ m z => (z.release m.payload).finish m 0 []))

/-- PREPARE_TIMEOUT (R327): a partial prepare at its home is abandoned after PREP_TO. -/
def Pz.prepTimeout (tag : BitVec 24) (z : Pz) : Pz :=
  match z.prepOf tag with
  | none => z
  | some p =>
    if p.st ≠ .partialWait ∨ p.ask.isSome then z
    else (z.advanceTo (p.since + 1000000000 * max 1 (z.fld PzR.CF_CTL_PREP_TO))).abortPrep tag

/-- PREPARE_TIMEOUT. -/
def execPrepareTimeout (tag : BitVec 24) (s : State) : Host.Outcome State Fault Refusal :=
  .next (s.onPz (Pz.prepTimeout tag))

end Sys2Proof.Machine
end

