-- ==== Sys2Proof/Machine/PzFleet.lean ====
section
/-!
DEFINITION. Sys2Proof/Machine/PzFleet.lean: the rows of the Control conversation at Polornaz (R319, R323 to R325, R330), a
lost parent (R333), sub-masters (R335), registration (R21, R23, R336, R337), and records, traces and dumps received.
-/

namespace Sys2Proof.Machine

/-! ## INK, LEASE, KEEPALIVE (either part) -/

/-- INK from the parent: relayed with what must precede it (R145, Table 14.8). -/
def Pz.ctlInk (h : CtlHead) (m : InkMsg) : Pz → Pz :=
  Pz.once h 3 fun z =>
    let tearing := match (z.job h.tag).bind (fun (j : Job) => j.tear) with
      | some t => decide (t.epoch = 0)
      | none => false
    (z.passInk h.tag m tearing).ackOk h 3

/-- CTL_INK. -/
def execCtlInk (part : Part) (h : CtlHead) (m : InkMsg) (s : State) : Host.Outcome State Fault Refusal :=
  .next (match part with
    | .leaf => s.onLeaf (Leaf.ctlInk h m)
    | .pz => s.onPz (Pz.ctlInk h m))

/-- A lease granted to this device, or for a requester behind it. -/
def Pz.leaseGrant (h : CtlHead) (base count : Word) : Pz → Pz :=
  Pz.once h 4 fun z =>
    let z := match z.ctl.relays.find? (fun r => r.1 == h.tag) with
      | some r =>
        let z := { z with ctl := { z.ctl with relays := z.ctl.relays.erase r } }
        (match z.portTo r.2 with
          | some p => z.sendCfg r.2 p 4 h.tag 0 base.toNat count.toNat []
          | none => z)
      | none =>
        if h.tag ≠ 0 then z
        else
          let z := if z.ctl.left = 0 then { z with ctl := { z.ctl with next := base, left := count.toNat } }
            else { z with ctl := { z.ctl with spare := z.ctl.spare ++ [(base, count.toNat)] } }
          z.showLease.retryInks
    z.ackOk h 4

/-- A request that this device answers from its own epochs; while it holds too few it leaves the request unacknowledged. -/
def Pz.leaseServe (h : CtlHead) (tag : BitVec 24) (n : Nat) (z : Pz) : Pz :=
  if z.known h 4 then z.once h 4 id
  else match z.grantTo h.sender tag n with
    | some z => z.once h 4 (fun z => z.ackOk h 4)
    | none => ((z.dropReady (isCfg h 4)).heard h.sender).wantLease

/-- A lease request (Table 14.1): a child's; a chain master's, which goes to the home of the job that owns the chain. -/
def Pz.leaseAsk (h : CtlHead) (count : Nat) (z : Pz) : Pz :=
  let tag : BitVec 24 := match z.route h.sender with
    | some r => (((z.leavesWith (fun x => x.port == r.port && x.tag != 0 && !x.teardown)).head?.bind z.route).map (fun (x : Route) => x.tag)).getD 0
    | none => h.tag
  let far := match z.job tag with
    | some j => decide (z.role < j.level.toNat)
    | none => tag != 0 && z.role != 2
  if (z.route h.sender).isNone ∧ h.tag = 0 then z.leaseServe h 0 count
  else if far then
    z.once h 4 fun z => Pz.ackOk h 4 (Pz.askParent 4 tag 0 0 16 []
      { z with ctl := { z.ctl with relays := z.ctl.relays ++ [(tag, h.sender)] } })
  else z.leaseServe h tag 16

/-- LEASE at Polornaz. -/
def Pz.ctlLease (h : CtlHead) (grant : Bool) (base count : Word) (z : Pz) : Pz :=
  if grant then z.leaseGrant h base count else z.leaseAsk h count.toNat

/-- CTL_LEASE. -/
def execCtlLease (part : Part) (h : CtlHead) (grant : Bool) (base count : Word) (s : State) :
    Host.Outcome State Fault Refusal :=
  .next (match part with
    | .leaf => s.onLeaf (Leaf.ctlLease h grant base count)
    | .pz => s.onPz (Pz.ctlLease h grant base count))

/-- KEEPALIVE at Polornaz: the sender is heard, and its epoch in force noted. -/
def Pz.ctlKeepalive (h : CtlHead) (epoch : Word) (z : Pz) : Pz :=
  let z := (z.dropReady (isCfg h 8)).heard h.sender
  if (tblLookup z.ctl.kids h.sender.toNat).isSome then
    z.putKid h.sender (fun k => { k with epoch := epoch })
  else { z with ctl := { z.ctl with chains := z.ctl.chains.map (fun (c : Nat × ChainReg) =>
    if c.2.master = h.sender ∧ h.sender ≠ 0 then (c.1, { c.2 with epoch := epoch }) else c) } }

/-- CTL_KEEPALIVE. -/
def execCtlKeepalive (part : Part) (h : CtlHead) (epoch : Word) (_cfg : BitVec 16) (s : State) :
    Host.Outcome State Fault Refusal :=
  .next (match part with
    | .leaf => s.onLeaf (Leaf.ctlKeepalive h)
    | .pz => s.onPz (Pz.ctlKeepalive h epoch))

/-- KEEPALIVE_SEND (R325): at the next multiple of 250 µs, to the parent, the children and the chain masters. -/
def Pz.keepaliveSend (z : Pz) : Pz :=
  let z := z.advanceTo ((z.now / 250000 + 1) * 250000)
  let cfg := z.fld PzR.CF_STAT_LAST_CFG
  let e := z.ctl.epoch.toNat
  let z := z.askParent 8 0 0 e cfg []
  let z := z.ctl.kids.foldl (fun z k => z.sendCfg (BitVec.ofNat 32 k.1) k.2.port 8 0 0 e cfg []) z
  z.ctl.chains.foldl (fun z c => if c.2.master = 0 then z else z.sendCfg c.2.master c.1 8 0 0 e cfg []) z

/-- KEEPALIVE_SEND. -/
def execKeepaliveSend (s : State) : Host.Outcome State Fault Refusal := .next (s.onPz Pz.keepaliveSend)

/-! ## EPOCH, TCUT, PREPARE, ALMACK, RELAY -/

/-- A request for a config epoch from a child (R318): the root grants one, another device asks on. -/
def Pz.epochAsk (h : CtlHead) (z : Pz) : Pz :=
  if z.role ≠ 2 then
    z.once h 0xB fun z => Pz.ackOk h 0xB (Pz.askParent 0xB h.tag 0 0 0 []
      { z with ctl := { z.ctl with askKids := z.ctl.askKids ++ [h] } })
  else if z.known h 0xB then z.once h 0xB id
  else match z.allocCfg with
    | none => ((z.dropReady (isCfg h 0xB)).heard h.sender).restamp
    | some (c, z) => z.once h 0xB fun z =>
        let z := match z.portTo h.sender with
          | some p => z.sendCfg h.sender p 0xB h.tag c c.toNat 0 []
          | none => z
        z.ackOk h 0xB

/-- A config epoch granted: to the oldest ALLOC of the tag here, or to the child that asked for it. -/
def Pz.epochGrant (h : CtlHead) (c : BitVec 16) : Pz → Pz :=
  Pz.once h 0xB fun z =>
    let z := match z.ctl.askEpoch.find? (fun m => (cfgMsg m.payload).tag == h.tag) with
      | some m => Pz.finish m 0 (leB 2 c.toNat)
          { z with ctl := { z.ctl with askEpoch := z.ctl.askEpoch.erase m, alloced := c :: z.ctl.alloced } }
      | none =>
        match z.ctl.askKids.find? (fun (k : CtlHead) => k.tag == h.tag) with
        | none => z
        | some k =>
          let z := { z with ctl := { z.ctl with askKids := z.ctl.askKids.erase k } }
          (match z.portTo k.sender with
            | some p => z.sendCfg k.sender p 0xB h.tag c c.toNat 0 []
            | none => z)
    z.ackOk h 0xB

/-- CTL_EPOCH. -/
def execCtlEpoch (_port : BitVec 5) (h : CtlHead) (grant : Bool) (epoch : BitVec 16) (s : State) :
    Host.Outcome State Fault Refusal :=
  .next (s.onPz (if grant then Pz.epochGrant h epoch else Pz.epochAsk h))

/-- CTL_TCUT (R330): a child's cut merges into this device's. -/
def execCtlTcut (_port : BitVec 5) (h : CtlHead) (epoch : Word) (complete timedOut : BitVec 16) (missing : List Word)
    (s : State) : Host.Outcome State Fault Refusal :=
  .next (s.onPz (Pz.once h 0xC fun z =>
    ((z.setCut epoch (fun c => { c with done := c.done + complete.toNat, timeout := c.timeout + timedOut.toNat
                                        missing := c.missing ++ missing, kids := c.kids.filter (· != h.sender) })).cutCheck
      epoch).ackOk h 0xC))

/-- A PREPARE that this device cannot begin: its leaves are all missing (Table 14.4). -/
def Pz.prepFails (h : CtlHead) (status : Nat) (c : CfgMsg) (z : Pz) : Pz :=
  let ls := z.prepWant c.tag c
  z.answer h.sender h.cseq 0xD status 0 h.cfg ls.length 0 ((ls.take 56).flatMap (fun w => leB 4 w.toNat))

/-- PREPARE from the parent: a prepare, a teardown, an end of either, or a release (Tables 14.5, 14.8). -/
def Pz.ctlPrepare (h : CtlHead) (payload : List Byte) : Pz → Pz :=
  Pz.once h 0xD fun z =>
    let c := cfgMsg payload
    if c.cop = 5 ∨ c.cop = 6 then z.teardown payload (some h)
    else if c.cop = 8 then (z.abortPrep c.tag).ackOk h 0xD
    else if c.cop = 10 then (z.release payload).ackOk h 0xD
    else if ((z.job c.tag).map (fun (j : Job) => !j.quiet)).getD false then z.prepFails h 5 c
    else if z.role = 0 ∧ c.llen ≠ 0 ∧ (z.imageRecs payload).isNone then z.prepFails h 6 c
    else if c.cop ≠ 3 ∧ z.breaksShare c.tag c.entries then z.prepFails h 4 c
    else z.prepare payload (some h)

/-- CTL_PREPARE. -/
def execCtlPrepare (_port : BitVec 5) (h : CtlHead) (payload : List Byte) (s : State) : Host.Outcome State Fault Refusal :=
  .next (s.onPz (Pz.ctlPrepare h payload))

/-- CTL_ALMACK (R333): the alarm records that the parent has received. -/
def execCtlAlmack (_port : BitVec 5) (h : CtlHead) (pairs : List (Word × BitVec 16)) (s : State) :
    Host.Outcome State Fault Refusal :=
  .next (s.onPz (Pz.once h 0xE fun z => Pz.ackOk h 0xE
    { z with ctl := { z.ctl with unacked := z.ctl.unacked.filter (fun u => !pairs.any (fun p => p.1 == u.msg.fleet && p.2 == u.aseq)) } }))

/-- RELAY (R242, R384): a mailbox message, secure when it comes from the parent. A CONFIG message for a job homed above goes on
upward. -/
def Pz.ctlRelay (port : Nat) (h : CtlHead) (body : List Byte) : Pz → Pz :=
  Pz.once h 0xA fun z =>
    let m := mbMsg (.relay h.sender h.cseq h.cfg) (decide (16 ≤ port)) (leAt body 0 4) (leAt body 4 4) (leAt body 8 4)
      (leAt body 0xC 4) ((body.drop 16).take (leAt body 0 2 % 4096))
    if m.mtype = 5 ∧ port < 16 ∧ ((z.job (cfgMsg m.payload).tag).map (fun (j : Job) => decide (z.role < j.level.toNat))).getD false then
      (z.askParent 0xA h.tag h.cfg 0 0 body).ackOk h 0xA
    else z.enqueue m

/-- CTL_RELAY. -/
def execCtlRelay (port : BitVec 5) (h : CtlHead) (body : List Byte) (s : State) : Host.Outcome State Fault Refusal :=
  .next (s.onPz (Pz.ctlRelay port.toNat h body))

/-! ## Acknowledgements and repeats (R324, R328) -/

/-- The tray asks the home for a plain Inkline of the job when none is scheduled within 10 ms (R328). -/
def Pz.askInkline (tag : BitVec 24) (z : Pz) : Pz :=
  if z.ctl.inks.any (fun i => i.tag == tag && decide (i.m.time.toNat ≤ z.now + 10000000)) then z
  else match z.job tag with
    | none => z
    | some j =>
      if j.homed then z.issueInk (tag, ⟨false, false, false⟩, 0, 0)
      else
        let pay := leB 1 9 ++ leB 3 tag.toNat ++ List.replicate 28 0
        z.askParent 0xA tag 0 0 0 (leB 4 (5 * 65536 + 32) ++ leB 4 (tag.toNat * 256) ++ leB 4 0 ++ leB 4 (crc32c pay) ++ pay)

/-- A leaf's answer to a WRITE: after the last one it is armed, or it is missing. -/
def Pz.wroteLeaf (s : Sent) (m : AckMsg) (z : Pz) : Pz :=
  let w := m.sender
  let committed := ((z.job s.tag).map (fun (j : Job) => j.cfg == s.cfg && j.staging)).getD false
  if m.status ≠ 0 then
    (z.giveUp (fun x => x.op == 1 && x.tag == s.tag && x.rcpt == w)).leafReady s.tag w false
  else if z.ctl.sent.any (fun x => x.op == 1 && x.tag == s.tag && x.leaves.any (· == w)) then z
  else if committed then z.checkStaged s.cfg
  else z.armLeaf s.tag w

/-- What an acknowledgement brings, by operation. -/
def Pz.acked (s : Sent) (m : AckMsg) (z : Pz) : Pz :=
  let op := s.op.toNat
  if op = 1 then z.wroteLeaf s m
  else if op = 2 then
    let far := ((z.prepOf s.tag).map (fun p => p.cfg == s.cfg)).getD false
    if far then z.leafReady s.tag m.sender (m.status == 0) else if m.status = 0 then z.askInkline s.tag else z
  else if op = 6 then z.tearAck s.tag m.sender
  else if op = 0xD then
    let put : Prep → Prep := fun p => if p.wait.any (· == m.sender) then
      { p with wait := p.wait.filter (· != m.sender), up := p.up + m.ready.toNat, upMiss := p.upMiss ++ m.list
               more := p.more + (m.missing.toNat - m.list.length) } else p
    let z := match z.job s.tag with
      | some j => (z.setTear s.tag (if s.cfg = 0 then j.tear.map put else j.tear)).setPrep s.tag
          (if s.cfg = 0 then j.prep else j.prep.map put)
      | none => z
    (z.prepCheck s.tag).tearCheck s.tag
  else if op = 9 then
    let z := (z.setPath (if s.port = 16 then 0 else 1)).setReg 0x80008 m.sender
    let now := z.now
    let z := { z with ctl := { z.ctl with parentAt := now } }
    let z := z.ctl.jobs.foldl (fun z j => if j.2.homed && !j.2.gone then z.jobAdv 8 0 j.2.tag j.2.cfg z.fleet 0 0 0 [] else z) z
    z.wantLease
  else match s.ask with
    | some q => z.finish q 0 (leB 1 m.detail.toNat)
    | none => z

/-- An acknowledgement arrives (R324). -/
def Pz.ackRx (m : AckMsg) (z : Pz) : Pz :=
  let is : Message → Bool := fun x => x.ty == 9 && leAt x.body 2 2 == m.cseq.toNat && leAt x.body 8 4 == m.sender.toNat
  let z := (z.dropReady is).heard m.sender
  match z.ctl.sent.find? (fun s => s.cseq == m.cseq && s.op == m.op && (s.leaves.any (· == m.sender) || s.op == 9)) with
  | none => z
  | some s =>
    let rest := if s.op = 9 then [] else s.leaves.filter (· != m.sender)
    let z := { z with ctl := { z.ctl with sent :=
      if rest.isEmpty then z.ctl.sent.erase s else z.ctl.sent.map (fun x => if x = s then { s with leaves := rest } else x) } }
    z.acked s m

/-- CONFIG_ACK_RX. -/
def execConfigAckRx (part : Part) (m : AckMsg) (s : State) : Host.Outcome State Fault Refusal :=
  .next (match part with
    | .leaf => s.onLeaf (Leaf.ctlAck m)
    | .pz => s.onPz (Pz.ackRx m))

/-- Receivers counted missing for a message (R324): leaves of a prepare, and of a teardown. -/
def Pz.counted (s : Sent) (z : Pz) : Pz :=
  let op := s.op.toNat
  if op = 1 ∨ op = 2 then (s.leaves.foldl (fun z w => z.leafReady s.tag w false) z).checkStaged s.cfg
  else if op = 6 then
    match z.job s.tag with
    | none => z
    | some j => (z.setTear s.tag (j.tear.map (fun (t : Prep) =>
        { t with missing := t.missing ++ s.leaves.filter (fun w => !t.missing.any (· == w)) }))).tearCheck s.tag
  else z

/-- Whether four sends of a message have gone unacknowledged; a TEARDOWN counts from its Inkline, and a PREPARE, which is
acknowledged when it is complete, only while its receiver is silent (R324, R325, assumption log 25). -/
def Pz.overdue (z : Pz) (s : Sent) : Bool :=
  if s.op = 6 then (match z.ctl.started.find? (fun e => e.1.toNat == leAt s.msg.body 0x10 4) with
    | some e => decide (e.2 + 2000000 ≤ z.now)
    | none => false)
  else decide (4 ≤ s.sends) && s.op != 0xD

/-- CONFIG_REPEAT at Polornaz (R324): the next repeat of a message, every 500 µs, or 10 ms once its receiver is missing. -/
def Pz.ctlRepeat (rcpt : Word) (cseq : BitVec 16) (z : Pz) : Pz :=
  match z.ctl.sent.find? (fun s => s.rcpt == rcpt && s.cseq == cseq) with
  | none => z
  | some s =>
    let z := z.advanceTo (s.first + (if s.miss then 10000000 else 500000))
    let due := z.overdue s && !s.miss
    let now := z.now
    let s' := { s with sends := s.sends + 1, first := now, miss := s.miss || due }
    let z := Pz.send s.port s.msg { z with ctl := { z.ctl with sent := z.ctl.sent.map (fun x => if x = s then s' else x) } }
    if due then (z.addSat PzR.CF_CNT_MISSING s.leaves.length).counted s else z

/-- CONFIG_REPEAT. -/
def execConfigRepeat (part : Part) (rcpt : Word) (cseq : BitVec 16) (s : State) : Host.Outcome State Fault Refusal :=
  .next (match part with
    | .leaf => s.onLeaf (Leaf.ctlRepeat cseq)
    | .pz => s.onPz (Pz.ctlRepeat rcpt cseq))

/-- CHILD_TIMEOUT (R325): a child silent for 2 ms; its whole subtree is missing in every aggregate. -/
def Pz.childTimeout (child : Word) (z : Pz) : Pz :=
  match tblLookup z.ctl.kids child.toNat with
  | none => z
  | some k =>
    if k.silent then z
    else
      let z := z.advanceTo (k.heard + 2000000)
      let z := z.putKid child (fun k => { k with silent := true })
      let z := { z with ctl := { z.ctl with
        cuts := z.ctl.cuts.map (fun (c : TCut) => if c.kids.any (· == child) then
          { c with kids := c.kids.filter (· != child), missing := c.missing ++ [child] } else c) } }
      let cut : Prep → Prep := fun p => if p.wait.any (· == child) then
        { p with wait := p.wait.filter (· != child), upMiss := p.upMiss ++ [child] } else p
      let z := z.ctl.jobs.foldl (fun (z : Pz) (j : Nat × Job) =>
        (((z.setTear j.2.tag (j.2.tear.map cut)).setPrep j.2.tag (j.2.prep.map cut)).prepCheck j.2.tag).tearCheck j.2.tag) z
      z.ctl.cuts.foldl (fun (z : Pz) (c : TCut) => z.cutCheck c.epoch) z

/-- CHILD_TIMEOUT. -/
def execChildTimeout (child : Word) (s : State) : Host.Outcome State Fault Refusal := .next (s.onPz (Pz.childTimeout child))

/-! ## Losing a parent (R333) -/

/-- The device starts re-parenting to its other upstream port: unacknowledged alarms leave there first, then REPARENT and
what it has outstanding towards the parent. -/
def Pz.reparent (z : Pz) : Pz :=
  let path := z.fld PzR.CF_STAT_PATH
  if z.role = 2 ∨ 2 ≤ path then z
  else
    let u0 := path = 1
    let port := if u0 then 16 else 17
    let now := z.now
    let z := (z.setPath 2).addSat PzR.CF_CNT_REPARENTS 1
    let z := Pz.showLease { z with ctl := { z.ctl with
      toward := u0, reparAt := now, left := 0, spare := []
      sent := z.ctl.sent.map (fun (s : Sent) => if 16 ≤ s.port then { s with port := port } else s) } }
    let z := z.ctl.unacked.foldl (fun z u => z.send port u.msg) z
    z.sendCfg 0 port 9 0 0 z.parent.toNat (b2n (z.role == 0 && !u0) + 2 * b2n (z.role == 1 && !u0)) []

/-- PARENT_TIMEOUT (R325): 2 ms without a Control message from the parent. -/
def execParentTimeout (s : State) : Host.Outcome State Fault Refusal :=
  .next (s.onPz fun z => if z.role = 2 ∨ 2 ≤ z.fld PzR.CF_STAT_PATH then z else (z.advanceTo (z.ctl.parentAt + 2000000)).reparent)

/-- ALMACK_TIMEOUT: 20 µs without an ALMACK for the oldest alarm sent. -/
def execAlmackTimeout (s : State) : Host.Outcome State Fault Refusal :=
  .next (s.onPz fun z => match z.ctl.unacked with
    | [] => z
    | u :: _ => if z.role = 2 ∨ 2 ≤ z.fld PzR.CF_STAT_PATH then z else (z.advanceTo (u.sent + 20000)).reparent)

/-- U0_LINK_FAULT: the PCS of U0 reports a fault while U0 is the path. -/
def execU0LinkFault (s : State) : Host.Outcome State Fault Refusal :=
  .next (s.onPz fun z => if z.fld PzR.CF_STAT_PATH = 0 then z.reparent else z)

/-- REPARENT_TIMEOUT: no acknowledgement within 2 ms; the device is isolated. -/
def execReparentTimeout (s : State) : Host.Outcome State Fault Refusal :=
  .next (s.onPz fun z => if z.fld PzR.CF_STAT_PATH ≠ 2 then z else
    ((z.advanceTo (z.ctl.reparAt + 2000000)).setPath 3).giveUp (fun s => s.op == 9))

/-- REPARENT_RETRY: an isolated device tries both ports every 10 ms. -/
def Pz.reparentRetry (z : Pz) : Pz :=
  if z.fld PzR.CF_STAT_PATH ≠ 3 then z
  else
    let z := (z.advanceTo (z.ctl.reparAt + 10000000)).giveUp (fun s => s.op == 9)
    let now := z.now
    let z := { z with ctl := { z.ctl with reparAt := now } }
    let z := z.sendCfg 0 16 9 0 0 z.parent.toNat 0 []
    z.sendCfg 0 17 9 0 0 z.parent.toNat (b2n (z.role == 0) + 2 * b2n (z.role == 1)) []

/-- REPARENT_RETRY. -/
def execReparentRetry (s : State) : Host.Outcome State Fault Refusal := .next (s.onPz Pz.reparentRetry)

/-- A write of `PZ_CF_CTL`; RETURN takes the device back to U0 by the same procedure. -/
def Pz.cfCtlWrite (ns : Bool) (data : Word) (z : Pz) : Pz :=
  let z := z.plainWrite ns 0x80000 data
  if bit data.toNat 7 && z.fld PzR.CF_STAT_PATH == 1 then z.reparent else z

/-- CF_RETURN: the write that sets RETURN. -/
def execCfReturn (p : Port) (data : Word) (s : State) : Host.Outcome State Fault Refusal :=
  .next (s.onPz (Pz.guarded p (viewAddr p 0x80000) (fun z => z.cfCtlWrite (!z.secure p (viewAddr p 0x80000)) (data ||| 0x80))))

/-- The state that a new or re-parented child needs (R333): a lease, the Inklines pending, the prepares and teardowns. -/
def Pz.welcome (kid : Word) (port : Nat) (z : Pz) : Pz :=
  let z := { z with ctl := { z.ctl with granted := z.ctl.granted.filter (fun g => g.rcpt != kid) } }
  let z := if z.role = 0 then z else (z.grantTo kid 0 (leaseSize (z.role - 1))).getD z
  let z := z.ctl.jobs.foldl (fun (z : Pz) (j : Nat × Job) =>
    let more : Prep → Prep := fun p => { p with wait := p.wait.filter (· != kid) ++ [kid] }
    let ask : Option Prep → Pz → Pz := fun p z => match p with
      | some p => if p.st = .preparing ∧ !j.2.gone then z.sendCfg kid port 0xD j.2.tag p.cfg 0 0 p.payload else z
      | none => z
    let wait : Option Prep → Option Prep := fun p => p.map (fun (p : Prep) => if p.st = .preparing then more p else p)
    ask j.2.tear (ask j.2.prep ((z.setPrep j.2.tag (wait j.2.prep)).setTear j.2.tag (wait j.2.tear)))) z
  z.ctl.inks.foldl (fun z i => z.sendCfg kid port 3 i.tag (if i.m.kind.commit then i.m.cfg else 0) i.m.epoch.toNat
    (kindNum i.m.kind + (if i.m.kind.commit then i.m.cfg.toNat * 65536 else 0)) (leB 8 i.m.time.toNat)) z

/-- CTL_REPARENT (R333): the new parent records the child, acknowledges, and sends it what it needs; jobs homed here are
told. -/
def Pz.ctlReparent (port : Nat) (h : CtlHead) (z : Pz) : Pz :=
  let now := z.now
  let z := z.putKid h.sender (fun k => { k with port := port, heard := now, silent := false })
  z.once h 9 fun z =>
    let z := (z.ackOk h 9).welcome h.sender port
    z.ctl.jobs.foldl (fun (z : Pz) (j : Nat × Job) => if j.2.homed && !j.2.gone then z.jobAdv 8 0 j.2.tag j.2.cfg h.sender 0 0 0 [] else z) z

/-- CTL_REPARENT. -/
def execCtlReparent (port : BitVec 5) (h : CtlHead) (_old : Word) (_partner _standby : Bool) (s : State) :
    Host.Outcome State Fault Refusal :=
  .next (s.onPz (Pz.ctlReparent port.toNat h))

/-! ## Registration (R21, R23, R336, R337) -/

/-- An entry of a registration payload (Table 14.12). -/
structure RegEnt where
  fleet   : Word
  ink     : Word
  idle    : Bool
  stopped : Bool
  untimed : Bool
  pos     : BitVec 6
  cfg     : BitVec 16
  version : Byte
deriving DecidableEq, Repr

/-- The entries of a payload. -/
def regEnts (b : List Byte) : List RegEnt :=
  (List.range (leAt b 1 1 % 16)).map (fun i =>
    let o := 4 + 16 * i
    let w := leAt b (o + 8) 4
    { fleet := BitVec.ofNat 32 (leAt b o 4), ink := BitVec.ofNat 32 (leAt b (o + 4) 4), idle := bit w 29, stopped := bit w 28
      untimed := bit w 25, pos := BitVec.ofNat 6 (bits w 21 16), cfg := BitVec.ofNat 16 (bits w 15 0)
      version := BitVec.ofNat 8 (leAt b (o + 12) 1) })

/-- What a report says of a leaf goes into its entry. -/
def Route.takeReport (e : RegEnt) (r : Route) : Route :=
  { r with pos := e.pos, stopped := e.stopped, idle := e.idle, untimed := e.untimed, version := e.version, memCfg := e.cfg }

/-- A leaf refused (R21): its entry is not valid, and the operator is told. -/
def Pz.refuseLeaf (fleet : Word) (reason : Nat) (other : Word) (mark : Bool) (z : Pz) : Pz :=
  let z := if mark then z.setRoute fleet (fun r => if r.valid then r else { r with fleet := fleet, refused := true }) else z
  z.refused reason 0 fleet other

/-- The tray corrects a leaf's health states at its registration (R207), from its Peat store where it holds none. -/
def Pz.sendHealth (fleet : Word) (z : Pz) : Pz :=
  (List.range 16).foldl (fun z u =>
    let k := unitKey fleet u
    let w := z.leafUnit fleet u
    let z := if (tblLookup z.blot.units k).isNone ∧ w ≠ 0 then
        { z with blot := { z.blot with units := tput z.blot.units k { (default : Health) with
          st := BitVec.ofNat 2 w, cond := bit w 2, cell := (BitVec.ofNat 3 (w / 8), BitVec.ofNat 4 (w / 64)) } } } else z
    let h := tget z.blot.units k
    match z.route fleet with
    | none => z
    | some r => z.emit (.health r.port.toNat fleet
        { unit := BitVec.ofNat 4 u, state := h.st, cond := h.cond, ctbin := h.cell.1, csig := h.cell.2
          clean := BitVec.ofNat 4 (min 15 h.clean), round := 0, fate := .none })) z

/-- A leaf registers at a tray (R21 to R23, R336 to R338, R355). -/
def Pz.regLeafEnt (port cause : Nat) (e : RegEnt) (z : Pz) : Pz :=
  let old := tget z.routes (e.fleet.toNat % 2 ^ 20)
  let now := z.now
  if e.fleet.toNat % 2 ^ 20 = 0 then z
  else if e.version.toNat / 16 ≠ 3 then z.refuseLeaf e.fleet 4 0 true
  else if old.valid ∧ old.fleet ≠ e.fleet then z.refuseLeaf e.fleet 3 old.fleet false
  else if !old.valid ∧ 512 ≤ (z.leavesWith (fun _ => true)).length then z.refuseLeaf e.fleet 1 0 true
  else
    let z := z.setRoute e.fleet (fun r =>
      let r := if r.valid then r else { (default : Route) with fleet := e.fleet, valid := true, frameAt := now }
      Route.takeReport e { r with port := BitVec.ofNat 4 port, home := BitVec.ofNat 6 (4 * port), refused := false })
    let oos := z.leafOos e.fleet
    let z := z.setRoute e.fleet (fun r => { r with oos := r.oos || oos })
    let z := if cause = 1 ∨ cause = 2 then z.countReset e.fleet else z
    let z := ((z.liveReport e.fleet).sendAssign e.fleet).sendHealth e.fleet
    let stale := match z.route e.fleet with
      | some r => ((z.job r.tag).map (fun (j : Job) => j.cfg != e.cfg)).getD false
      | none => false
    if stale then z.bringUp e.fleet else z

/-- REG_LEAF: a registration of RKIND 0x01. -/
def Pz.regLeaf (port : Nat) (z : Pz) : Pz :=
  match z.takeCtl port (fun m => m.ty == 7 && leAt m.body 0 1 == 1) with
  | none => z
  | some (m, z) => (regEnts m.body).foldl (fun (z : Pz) (e : RegEnt) => z.regLeafEnt port (leAt m.body 1 1 / 16) e) z

/-- REG_LEAF. -/
def execRegLeaf (port : BitVec 4) (s : State) : Host.Outcome State Fault Refusal := .next (s.onPz (Pz.regLeaf port.toNat))

/-- A chain's registration changed. -/
def Pz.setChain (port : Nat) (f : ChainReg → ChainReg) (z : Pz) : Pz :=
  { z with ctl := { z.ctl with chains := tmod z.ctl.chains port f } }

/-- A leaf becomes registered master of a port: it gets an ASSIGN for every member of its chain (R336). -/
def Pz.newMaster (port : Nat) (master : Word) (z : Pz) : Pz :=
  let now := z.now
  let z := z.setChain port (fun c => { c with master := master, heard := now, sub := none })
  (z.leavesWith (fun r => r.port.toNat == port)).foldl (fun z w => z.sendAssign w) z

/-- REG_MEMBER_REPORT: a chain master's report of members (RKIND 0x02). A master beside the registered one is told to be its
sub-master (R335). -/
def Pz.regMembers (port : Nat) (z : Pz) : Pz :=
  match z.takeCtl port (fun m => m.ty == 7 && leAt m.body 0 1 == 2) with
  | none => z
  | some (m, z) =>
    let z := z.heard m.fleet
    let c := tget z.ctl.chains port
    let z := if c.master = m.fleet then z
      else if c.master = 0 then z.newMaster port m.fleet
      else if c.sub = some m.fleet then z
      else (z.setChain port (fun c => { c with sub := some m.fleet })).sendCfg m.fleet port 7 0 0 c.master.toNat 0 []
    let es := regEnts m.body
    let z := if (tget z.ctl.chains port).master = m.fleet then z.setChain port (fun c => { c with
        minor := leAt m.body 2 2 % 16
        epoch := es.foldl (fun a e => if e.fleet = m.fleet ∨ laterInk e.ink a then e.ink else a) c.epoch }) else z
    es.foldl (fun z e => if (z.route e.fleet).isSome then (z.setRoute e.fleet (Route.takeReport e)).liveReport e.fleet else z) z

/-- REG_MEMBER_REPORT. -/
def execRegMemberReport (port : BitVec 4) (s : State) : Host.Outcome State Fault Refusal :=
  .next (s.onPz (Pz.regMembers port.toNat))

/-- SUBMASTER_PROMOTE (R335): the registered master silent for 2 ms, its sub-master takes its place. -/
def Pz.submasterPromote (port : Nat) (z : Pz) : Pz :=
  let c := tget z.ctl.chains port
  match c.sub with
  | none => z
  | some w => (z.advanceTo (c.heard + 2000000)).newMaster port w

/-- SUBMASTER_PROMOTE. -/
def execSubmasterPromote (port : BitVec 4) (s : State) : Host.Outcome State Fault Refusal :=
  .next (s.onPz (Pz.submasterPromote port.toNat))

/-- REG_POLORNAZ (R337): a child of protocol major 1 is accepted as a new one, any other refused. -/
def Pz.regPolornaz (port : Nat) (z : Pz) : Pz :=
  match z.takeCtl port (fun m => m.ty == 7 && leAt m.body 0 1 == 3) with
  | none => z
  | some (m, z) =>
    (regEnts m.body).foldl (fun (z : Pz) (e : RegEnt) =>
      let now := z.now
      if e.version.toNat / 16 ≠ 1 then z.refused 4 0 e.fleet 0
      else
        let kid : Child := { port := port, heard := now, silent := false, epoch := e.ink }
        let z := z.putKid e.fleet (fun _ => kid)
        z.welcome e.fleet port) z

/-- REG_POLORNAZ. -/
def execRegPolornaz (port : BitVec 5) (s : State) : Host.Outcome State Fault Refusal :=
  .next (s.onPz (Pz.regPolornaz port.toNat))

/-- This device's own registration with its parent (RKIND 0x03, R336). -/
def Pz.registerUp (z : Pz) : Pz :=
  z.sendUp (z.mkMsg 1 7 (regBody 0 0 3 [regEntry z.fleet.toNat z.ctl.epoch.toNat 0 0 z.role (z.fld PzR.CF_STAT_LAST_CFG) 0 0x10]))

/-! ## Records, traces and dumps received -/

/-- Whether a message's source is known: a registered leaf, or a child on the port (R217). -/
def Pz.sourceKnown (z : Pz) (port : Nat) (m : Message) : Bool := (z.route m.fleet).isSome || (z.childOn port).isSome || decide (16 ≤ port)

/-- A message of an unknown source (R217). -/
def Pz.unknown (port : Nat) (z : Pz) : Pz :=
  if port < 16 then z.addSat (PzR.ING_Q3_UNKNOWN.at (16 * port)) 1 else z

/-- A trace record received (R192, R267): held in the TRACE recorder; a digest record goes to its Blotter home. -/
def Pz.traceRx (port : Nat) (z : Pz) : Pz :=
  match z.takeMsg port 3 0x0B with
  | none => z
  | some (m, _, z) =>
    if !z.sourceKnown port m then z.unknown port
    else
      let fleet : Word := BitVec.ofNat 32 (leAt m.body 4 4)
      let tag : BitVec 24 := BitVec.ofNat 24 (leAt m.body 9 3)
      let z := (z.liveOther m.fleet).record 5 Config.traceCode 0 tag.toNat m.body
      let b := m.body.drop 24
      if leAt m.body 3 1 ≠ 0xD1 then z
      else if !bit (leAt b 4 4) 3 && z.blotterUp tag (BitVec.ofNat 16 (leAt b 2 2)) then z.sendUp m
      else z.blotterRecord fleet tag m.ink b

/-- TRACE_RECORD_RX. -/
def execTraceRecordRx (port : BitVec 5) (s : State) : Host.Outcome State Fault Refusal :=
  .next (s.onPz (Pz.traceRx port.toNat))

/-- The leaf records of a dump message: each is as long as its UNITS say. -/
def dumpRecords : Nat → List Byte → List (List Byte)
  | 0, _ => []
  | n + 1, b =>
    let len := 16 * leAt b 0 1
    if len = 0 ∨ b.length < len then [] else b.take len :: dumpRecords n (b.drop len)

/-- A history dump message (R346): every leaf record into the HISTORY recorder. -/
def Pz.dumpRx (port : Nat) (z : Pz) : Pz :=
  match z.takeMsg port 4 0x0C with
  | none => z
  | some (m, _, z) =>
    if !z.sourceKnown port m then z.unknown port
    else (dumpRecords (leAt m.body 8 2) (m.body.drop 16)).foldl (fun z r =>
      z.record 6 0x0C00 0 (leAt r 0x19 3) (leB 4 m.fleet.toNat ++ r)) (z.liveOther m.fleet)

/-- HISTORY_DUMP_RX. -/
def execHistoryDumpRx (port : BitVec 4) (s : State) : Host.Outcome State Fault Refusal :=
  .next (s.onPz (Pz.dumpRx port.toNat))

/-- A verdict or advisory received (R316): a leaf's HEALTH verdict of cause overdue sets the unit's state (R205). -/
def Pz.advisoryRx (port : Nat) (z : Pz) : Pz :=
  match z.takeCtl port (fun m => m.ty == 0x0A) with
  | none => z
  | some (m, z) =>
    if !z.sourceKnown port m then z.unknown port
    else
      let z := z.liveOther m.fleet
      let w := leAt m.body 0x40 4
      let u := w % 16
      let z := if (z.route m.fleet).isSome ∧ leAt m.body 0x22 1 = 0xC1 ∧ bits w 17 16 = 2 then
          let z := { z with blot := { z.blot with units := tmod z.blot.units (unitKey m.fleet u) (fun h => { h with st := BitVec.ofNat 2 (bits w 7 6) }) } }
          z.leafUnitPut m.fleet u (tget z.blot.units (unitKey m.fleet u)).word
        else z
      z.egress (bit (leAt m.body 0 4) 22) (BitVec.ofNat 24 (leAt m.body 9 3)) (padTo 64 m.body)

/-- ADVISORY_RX. -/
def execAdvisoryRx (port : BitVec 5) (s : State) : Host.Outcome State Fault Refusal :=
  .next (s.onPz (Pz.advisoryRx port.toNat))

end Sys2Proof.Machine
end

