-- ==== Sys2Proof/Machine/PzTime.lean ====
section
/-!
DEFINITION. Sys2Proof/Machine/PzTime.lean: time of Polornaz: the domain servos (R105, R118, R425), the two PTP instances
(Table 5.5, IEEE 1588-2019), tray time and holdover (R119, R120, R406), time cells (R109), pulse outputs and trigger inputs
(R127, R128).
-/

namespace Sys2Proof.Machine

/-! ## Domains and ports -/

/-- Key of a PTP port of a domain: ports 0 to 15 downstream, 16 U0, 17 U1. -/
def ptpKey (port : Nat) (dom : Bool) : Nat := if port < 16 then 4 + 2 * port + b2n dom else 2 * b2n dom + (port - 16)

/-- A PTP port. -/
def Pz.ptp (z : Pz) (port : Nat) (dom : Bool) : PtpPort := tget z.time.ports (ptpKey port dom)

/-- A PTP port changed. -/
def Pz.setPtp (port : Nat) (dom : Bool) (f : PtpPort → PtpPort) (z : Pz) : Pz :=
  { z with time := { z.time with ports := tmod z.time.ports (ptpKey port dom) f } }

/-- A port as an operand names it: false U0, true U1. -/
def upNo (u : Bool) : Nat := 16 + b2n u

/-- State of a PTP port (Table 5.5): the downstream ports are master-only, and without PTP in tray role. -/
def Pz.ptpState (z : Pz) (port : Nat) (dom : Bool) : PtpState :=
  if !z.linkUp port then .faulty
  else if port < 16 then (if z.role = 0 then .passive else .master)
  else (z.ptp port dom).st

/-- Whether a domain has a slave port (R120; uncalibrated and slave are one state here). -/
def Pz.hasSlave (z : Pz) (dom : Bool) : Bool :=
  decide (z.ptpState 16 dom = .slave) || decide (z.ptpState 17 dom = .slave)

/-- A domain's servo. -/
def Pz.servo (z : Pz) (d : Nat) : Servo := tget z.time.doms d

/-! ## Holdover and the flags of `PZ_TM_STAT` (R119, R120, R406) -/

/-- Error estimate of holdover in parts per 10^9 (Table 5.18, R406). -/
def Pz.hoPpb (z : Pz) : Nat :=
  let v := z.fld PzR.TM_HOLD_VALUE
  if !z.pins.refclk then 50000 else if v = 0 then 1000 else v

/-- By how much tray time and the domain followed differ, in ns. -/
def Pz.apart (z : Pz) : Nat := ((z.servo z.time.dom).ns - z.time.ns) + (z.time.ns - (z.servo z.time.dom).ns)

/-- Estimated error of tray time in ns (R119, R120): in holdover by the elapsed time, else what is left to slew; 0 before
tray time has a reference. -/
def Pz.timeErr (z : Pz) : Nat :=
  if !z.time.begun then 0
  else match z.time.hoAt with
    | some t => z.hoPpb * (z.now - t) / 1000000000
    | none => z.apart

/-- TIME event that holds: 0 none, 1 holdover, 2 OUT_OF_SPEC, 3 UNTIMED. -/
def Pz.timeLevel (z : Pz) : Nat :=
  let ovr (n : Nat) : Bool := match z.time.hoAt with
    | some t => z.time.begun && decide (n * 1000000000 < z.hoPpb * (z.now - t))
    | none => z.time.begun && decide (n < z.apart)
  if ovr 500 then 3 else if ovr 100 then 2 else if z.time.hoAt.isSome then 1 else 0

/-- The flags follow, and a change of the event is told in a TIME advisory (Table 13.7, Table 16.3). -/
def Pz.timeFlags (z : Pz) : Pz :=
  let k := z.timeLevel
  let z := (((z.setFld PzR.TM_STAT_HOLDOVER (b2n (k == 1))).setFld PzR.TM_STAT_OUT_OF_SPEC (b2n (decide (2 ≤ k)))).setFld
    PzR.TM_STAT_UNTIMED (b2n (k == 3))).setFld PzR.TM_STAT_SLEWING
      (b2n (z.time.begun && z.time.hoAt.isNone && decide (10 ≤ z.apart)))
  if k = z.time.told then z
  else
    let event := if k = 0 then 3 else k - 1
    let z := { z with time := { z.time with told := k } }
    (z.device true 0xD0 0 0 z.ctl.epoch 0 (leB 4 event ++ leB 4 0 ++ leB 8 z.timeErr)).raise 3

/-- HOLDOVER_THRESHOLD (R120): tray time comes to the moment at which the estimate passes 100, then 500 ns. -/
def Pz.holdoverNext (z : Pz) : Pz :=
  match z.time.hoAt with
  | none => z
  | some t =>
    let k := z.timeLevel
    if k = 3 ∨ !z.time.begun then z
    else
      let n := if k = 2 then 500 else 100
      (z.advanceTo (t + n * 1000000000 / z.hoPpb + 1)).timeFlags

/-- HOLDOVER_THRESHOLD. -/
def execHoldoverThreshold (s : State) : Host.Outcome State Fault Refusal := .next (s.onPz Pz.holdoverNext)

/-! ## The best master clock algorithm (Table 5.5) -/

/-- How two Announces compare, as received on ports `pa` and `pb` of the clock `me` (IEEE 1588-2019, 9.3.4): negative when
the first is better, -1 and 1 when only by topology. -/
def cmpAnnounce (me : DWord) (a : Announce) (pa : Nat) (b : Announce) (pb : Nat) : Int :=
  let lex : List (Nat × Nat) := [(a.prio1.toNat, b.prio1.toNat), (a.clsAccVar.toNat, b.clsAccVar.toNat),
    (a.prio2.toNat, b.prio2.toNat), (a.gm.toNat, b.gm.toNat)]
  if a.gm ≠ b.gm then
    match lex.find? (fun p => p.1 != p.2) with
    | some (x, y) => if x < y then -2 else 2
    | none => 0
  else if b.steps.toNat + 1 < a.steps.toNat then 2
  else if a.steps.toNat + 1 < b.steps.toNat then -2
  else if b.steps.toNat < a.steps.toNat then (if me.toNat < a.sender.toNat then 2 else 1)
  else if a.steps.toNat < b.steps.toNat then (if me.toNat < b.sender.toNat then -2 else -1)
  else if a.sender ≠ b.sender then (if a.sender.toNat < b.sender.toNat then -1 else 1)
  else if a.port ≠ b.port then (if a.port.toNat < b.port.toNat then -1 else 1)
  else if pa < pb then -1 else if pb < pa then 1 else 0

/-- Identity of this clock: its fleet ID (PRESUMED, assumption log 26). -/
def Pz.clockId (z : Pz) : DWord := BitVec.ofNat 64 z.fleet.toNat

/-- This clock's own data set, with the default values of IEEE 1588-2019 (PRESUMED, assumption log 26). -/
def Pz.ownClock (z : Pz) : Announce :=
  { gm := z.clockId, prio1 := 128, clsAccVar := 0xF8FEFFFF, prio2 := 128, steps := 0, sender := z.clockId, port := 0 }

/-- The better of what a domain's two upstream ports hear, with its port. -/
def Pz.bestHeard (z : Pz) (dom : Bool) : Option (Announce × Nat) :=
  let e (p : Nat) : Option (Announce × Nat) := if z.linkUp p then (z.ptp p dom).heard.map (fun a => (a, p)) else none
  match e 16, e 17 with
  | some a, some b => if cmpAnnounce z.clockId b.1 b.2 a.1 a.2 < 0 then some b else some a
  | some a, none => some a
  | none, b => b

/-- State decision for one port (IEEE 1588-2019, 9.3.3, of a clock whose class is above 127). -/
def Pz.ptpDecide (z : Pz) (dom : Bool) (port : Nat) : PtpState :=
  let x := z.ptp port dom
  if !z.linkUp port then .faulty
  else if x.st = .listening ∧ x.heard.isNone then .listening
  else match z.bestHeard dom with
    | none => .master
    | some (e, r) =>
      if cmpAnnounce z.clockId z.ownClock 0 e r < 0 then .master
      else if r = port then .slave
      else match x.heard with
        | none => .master
        | some a => if cmpAnnounce z.clockId e r a port = -1 then .passive else .master

/-- A port takes a state; one that becomes slave starts its measurements again. -/
def Pz.ptpTurn (port : Nat) (dom : Bool) (st : PtpState) (z : Pz) : Pz :=
  z.setPtp port dom (fun x => if x.st = st then x else
    { x with st := st, sync := none, down := none, mpd := 0, dreq := none })

/-- A servo without a slave port holds its frequency (R116). -/
def Pz.servoHold (dom : Bool) (z : Pz) : Pz :=
  let f : Servo → Servo := fun v => if v.st.toNat = svLocked then { v with st := BitVec.ofNat 3 svHold } else v
  if z.hasSlave dom then z else { z with time := { z.time with doms := tmod z.time.doms (b2n dom) f } }

/-- Whether domain 1 has the better grandmaster of two domains in slave state. -/
def Pz.dom1Better (z : Pz) : Bool :=
  match z.bestHeard false, z.bestHeard true with
  | some a, some b => decide (cmpAnnounce z.clockId b.1 b.2 a.1 a.2 < 0)
  | _, _ => false

/-- The domain in use (R118): none when neither has a slave port, else the one that SEL names or the better one. -/
def Pz.chosen (z : Pz) : Option Nat :=
  let s0 := z.hasSlave false
  let s1 := z.hasSlave true
  let sel := z.fld PzR.TM_CTL_SEL
  if !s0 && !s1 then none
  else if sel = 1 then some 0
  else if sel = 2 then some 1
  else if s0 && s1 then some (b2n z.dom1Better)
  else some (b2n s1)

/-- Before ROLE_LOCK tray time takes the domain's time in one step when it first leaves FREE, and at each step of the
domain (R119). -/
def Pz.adopt (stepped : Bool) (z : Pz) : Pz :=
  let v := z.servo z.time.dom
  if z.fld PzR.TM_STAT_ACTIVE = 0 ∨ v.st.toNat = svFree then z
  else if !z.flag PzR.PKG_STAT_ROLE_LOCK && (stepped || !z.time.begun) then
    { z with time := { z.time with ns := v.ns, sub := v.sub, begun := true } }
  else { z with time := { z.time with begun := true } }

/-- The selection, holdover and the flags follow the ports' states (R118 to R120). -/
def Pz.follow (z : Pz) : Pz :=
  let z := (z.servoHold false).servoHold true
  let z := match z.chosen with
    | none =>
      let since := if z.time.hoAt.isNone && z.time.begun then some z.now else z.time.hoAt
      ({ z with time := { z.time with hoAt := since } }).setFld PzR.TM_STAT_ACTIVE 0
    | some d => ({ z with time := { z.time with dom := d, hoAt := none } }).setFld PzR.TM_STAT_ACTIVE (1 + d)
  (z.adopt false).timeFlags

/-- The BMCA of an instance runs (R118): both ports decide, then the selection follows. -/
def Pz.bmca (dom : Bool) (z : Pz) : Pz :=
  let s0 := z.ptpDecide dom 16
  let s1 := z.ptpDecide dom 17
  ((z.ptpTurn 16 dom s0).ptpTurn 17 dom s1).follow

/-- A PTP port starts when its link comes up, and is lost when it goes down (PRESUMED, IEEE 1588-2019, log 26). -/
def Pz.ptpLink (port : Nat) (up : Bool) (z : Pz) : Pz :=
  let f : PtpPort → PtpPort := fun x => { x with st := if up then .listening else .faulty, heard := none, sync := none
                                                 down := none, mpd := 0, dreq := none }
  if port < 16 then z else (((z.setPtp port false f).setPtp port true f).bmca false).bmca true

/-- PTP_ANNOUNCE_RX: an Announce from the master heard, or a better one, is what the port hears; then the BMCA. -/
def Pz.announceRx (port : Nat) (dom : Bool) (a : Announce) (z : Pz) : Pz :=
  let x := z.ptp port dom
  if !z.linkUp port ∨ a.sender = z.clockId ∨ 255 ≤ a.steps.toNat then z
  else
    let take := match x.heard with
      | none => true
      | some h => (h.sender == a.sender && h.port == a.port) || decide (cmpAnnounce z.clockId a port h port < 0)
    (if take then z.setPtp port dom (fun x => { x with heard := some a }) else z).bmca dom

/-- PTP_ANNOUNCE_RX. -/
def execPtpAnnounceRx (u dom : Bool) (a : Announce) (s : State) : Host.Outcome State Fault Refusal :=
  .next (s.onPz (Pz.announceRx (upNo u) dom a))

/-- PTP_ANNOUNCE_TIMEOUT (R120): the port hears no master; one that listened becomes master. -/
def Pz.announceTimeout (port : Nat) (dom : Bool) (z : Pz) : Pz :=
  if !z.linkUp port then z
  else (z.setPtp port dom (fun x => { x with
    heard := none, st := if x.st = .listening then .master else x.st })).bmca dom

/-- PTP_ANNOUNCE_TIMEOUT. -/
def execPtpAnnounceTimeout (u dom : Bool) (s : State) : Host.Outcome State Fault Refusal :=
  .next (s.onPz (Pz.announceTimeout (upNo u) dom))

/-! ## The servo of a domain (R118, R425) -/

/-- A phase step of a clock by `th` ns: it goes back by `th`. -/
def Servo.shift (th : Int) (v : Servo) : Servo := { v with ns := ((v.ns : Int) - th).toNat }

/-- `servo_sample` with KP 2, KI 6 and step_ns 1000 (Table 5.13's resets), `th` in whole ns; true when the phase stepped. -/
def Servo.sample (th : Int) (v : Servo) : Bool × Servo :=
  if v.st.toNat = svFree then (true, { v.shift th with st := BitVec.ofNat 3 svAcquire, good := 0 })
  else if 1000 < th ∨ th < -1000 then (true, { v.shift th with st := BitVec.ofNat 3 svAcquire, good := 0 })
  else
    let integ := clampI (-200000) 200000 (v.integ + th / 2 ^ 6)
    let adj := clampI (-200000) 200000 (integ + th / 2 ^ 2)
    let near := decide (-500 ≤ th ∧ th ≤ 500)
    let good := if near then v.good + 1 else 0
    let held := v.st.toNat == svLocked || v.st.toNat == svHold
    let st := if held && !near then svAcquire else if v.st.toNat = svHold then svLocked else v.st.toNat
    let st := if st ≠ svLocked ∧ 16 ≤ good then svLocked else st
    (false, { v with integ := integ, adj := adj, good := good, st := BitVec.ofNat 3 st })

/-- An offset sample of a domain in 1/16 ns; tray time follows (R119). -/
def Pz.domSample (dom : Bool) (th16 : Int) (z : Pz) : Pz :=
  let r := (z.servo (b2n dom)).sample (th16 / 16)
  let f : Servo → Servo := fun _ => r.2
  let z := { z with time := { z.time with doms := tmod z.time.doms (b2n dom) f } }
  (z.adopt (r.1 && z.time.dom == b2n dom)).timeFlags

/-- A complete Sync: t2 - t1 less the correction gives the offset beside the mean path delay and delayAsymmetry. -/
def Pz.syncDone (port : Nat) (dom : Bool) (down : Int) (z : Pz) : Pz :=
  let x := z.ptp port dom
  let asym := sgn 32 (z.reg (0x40140 + 4 * (port - 16))).toNat
  (z.setPtp port dom (fun x => { x with sync := none, down := some down })).domSample dom (down - x.mpd - asym)

/-- PTP_SYNC_RX (R105, R118): of a one-step Sync the offset at once, of a two-step one when its Follow_Up comes. -/
def Pz.syncRx (port : Nat) (dom : Bool) (seq : BitVec 16) (origin : Option Nat) (corr : Int) (t2 : Nat) (z : Pz) : Pz :=
  if z.ptpState port dom ≠ .slave then z
  else match origin with
    | some t1 => z.syncDone port dom ((t2 : Int) - t1 - corr)
    | none => z.setPtp port dom (fun x => { x with sync := some (seq, t2, corr) })

/-- PTP_SYNC_RX. -/
def execPtpSyncRx (u dom : Bool) (seq : BitVec 16) (origin : Option Nat) (corr : Int) (t2 : Nat) (s : State) :
    Host.Outcome State Fault Refusal :=
  .next (s.onPz (Pz.syncRx (upNo u) dom seq origin corr t2))

/-- PTP_FOLLOW_UP_RX (R118). -/
def Pz.followUp (port : Nat) (dom : Bool) (seq : BitVec 16) (origin : Nat) (corr : Int) (z : Pz) : Pz :=
  match (z.ptp port dom).sync with
  | some (q, t2, c) =>
    if q = seq ∧ z.ptpState port dom = .slave then z.syncDone port dom (t2 - origin - c - corr) else z
  | none => z

/-- PTP_FOLLOW_UP_RX. -/
def execPtpFollowUpRx (u dom : Bool) (seq : BitVec 16) (origin : Nat) (corr : Int) (s : State) :
    Host.Outcome State Fault Refusal :=
  .next (s.onPz (Pz.followUp (upNo u) dom seq origin corr))

/-- PTP_DELAY_RESP_RX (R118): the mean path delay is half of (t2 - t1) + (t4 - t3), corrections taken off. -/
def Pz.delayResp (port : Nat) (dom : Bool) (seq : BitVec 16) (received : Nat) (corr : Int) (z : Pz) : Pz :=
  let x := z.ptp port dom
  match x.dreq, x.down with
  | some (q, t3), some d =>
    if q = seq ∧ z.ptpState port dom = .slave then
      z.setPtp port dom (fun x => { x with dreq := none, mpd := (d + ((received : Int) - corr - t3)) / 2 })
    else z
  | _, _ => z

/-- PTP_DELAY_RESP_RX. -/
def execPtpDelayRespRx (u dom : Bool) (seq : BitVec 16) (received : Nat) (corr : Int) (s : State) :
    Host.Outcome State Fault Refusal :=
  .next (s.onPz (Pz.delayResp (upNo u) dom seq received corr))

/-- PTP_DELAY_REQ_RX (R118): a master port answers. -/
def execPtpDelayReqRx (port : BitVec 5) (dom : Bool) (seq : BitVec 16) (source : DWord) (t4 : Nat) (s : State) :
    Host.Outcome State Fault Refusal :=
  .next (s.onPz fun z => onlyIf (decide (port.toNat < 18 ∧ z.ptpState port.toNat dom = .master))
    (Pz.emit (.ptp port.toNat dom (.delayResp seq source t4))) z)

/-- PTP_SYNC_SEND (R118): a master port sends a one-step Sync with its time of departure. -/
def Pz.syncSend (port : Nat) (dom : Bool) (t1 : Nat) (z : Pz) : Pz :=
  if z.ptpState port dom ≠ .master then z
  else
    let q := (z.ptp port dom).seq
    (z.setPtp port dom (fun x => { x with seq := x.seq + 1 })).emit (.ptp port dom (.sync q t1))

/-- PTP_SYNC_SEND. -/
def execPtpSyncSend (port : BitVec 5) (dom : Bool) (t1 : Nat) (s : State) : Host.Outcome State Fault Refusal :=
  .next (s.onPz (onlyIf (decide (port.toNat < 18)) (Pz.syncSend port.toNat dom t1)))

/-- PTP_ANNOUNCE_SEND (R118): a master port tells the grandmaster of its instance, one step further, or this clock. -/
def Pz.announceSend (port : Nat) (dom : Bool) (z : Pz) : Pz :=
  if z.ptpState port dom ≠ .master then z
  else
    let q := (z.ptp port dom).aseq
    let own := { z.ownClock with port := BitVec.ofNat 16 (port + 1) }
    let a := match z.bestHeard dom with
      | some (e, _) => if z.hasSlave dom then
          { e with steps := e.steps + 1, sender := own.sender, port := own.port } else own
      | none => own
    (z.setPtp port dom (fun x => { x with aseq := x.aseq + 1 })).emit (.ptp port dom (.announce a q))

/-- PTP_ANNOUNCE_SEND. -/
def execPtpAnnounceSend (port : BitVec 5) (dom : Bool) (s : State) : Host.Outcome State Fault Refusal :=
  .next (s.onPz (onlyIf (decide (port.toNat < 18)) (Pz.announceSend port.toNat dom)))

/-- PTP_DELAY_REQ_SEND (R118): a slave port asks, and keeps when. -/
def Pz.delayReq (port : Nat) (dom : Bool) (t3 : Nat) (z : Pz) : Pz :=
  if z.ptpState port dom ≠ .slave then z
  else
    let q := (z.ptp port dom).dseq
    (z.setPtp port dom (fun x => { x with dseq := x.dseq + 1, dreq := some (q, (t3 : Int)) })).emit
      (.ptp port dom (.delayReq q))

/-- PTP_DELAY_REQ_SEND. -/
def execPtpDelayReqSend (u dom : Bool) (t3 : Nat) (s : State) : Host.Outcome State Fault Refusal :=
  .next (s.onPz (Pz.delayReq (upNo u) dom t3))

/-! ## The passing of time -/

/-- One ns of true time at Polornaz (R118, R119, R425): each domain time at its own rate, tray time at the rate of the
domain it follows, and at most SLEW ppm beyond it while the two differ. -/
def Pz.tick (z : Pz) : Pz :=
  if z.step < 3 then z
  else
    let gain (d : Nat) : Nat := (1000000000 - (z.servo d).adj).toNat
    let run (d : Nat) : Servo → Servo := fun v =>
      let u := v.sub + gain d
      { v with ns := v.ns + u / 1000000000, sub := u % 1000000000 }
    let v := z.servo z.time.dom
    let far : Int := if z.time.hoAt.isSome || !z.time.begun then 0
      else ((v.ns : Int) - z.time.ns) * 1000000000 + ((v.sub : Int) - z.time.sub)
    let slew : Int := 1000 * (z.fld PzR.TM_CTL_SLEW : Nat)
    let u := z.time.sub + ((gain z.time.dom : Int) + clampI (-slew) slew far).toNat
    let n := u / 1000000000
    let doms := tmod (tmod z.time.doms 0 (run 0)) 1 (run 1)
    ({ z with time := { z.time with ns := z.time.ns + n, sub := u % 1000000000, clk := z.time.clk + n
                                    doms := doms } }).timeFlags

/-! ## Time cells (R109) -/

/-- TIME_CELL_SEND (R109): t1, and of the leaf's last marked cell t4, r_up and FSEQ, with ASYM; in tray role (Table 5.5). -/
def Pz.timeCellSend (fleet : Word) (t1 : Nat) (z : Pz) : Pz :=
  match z.route fleet with
  | none => z
  | some r =>
    let p := r.port.toNat
    if z.role = 0 ∧ z.linkUp p then
      (z.advanceTo (t1 / 16)).emit (.timeCell p fleet t1 r.t4 (z.reg (0x40100 + 4 * p)))
    else z

/-- TIME_CELL_SEND. -/
def execTimeCellSend (fleet : Word) (t1 : Nat) (s : State) : Host.Outcome State Fault Refusal :=
  .next (s.onPz (Pz.timeCellSend fleet t1))

/-! ## Pulse outputs (R127) -/

/-- The first multiple of `p` at or after `t` that is not the last pulse. -/
def nextMultiple (p t : Nat) (last : Option Nat) : Nat :=
  let c := (t + p - 1) / p * p
  if last = some c then c + p else c

/-- The 64-bit ONESHOT time of an output. -/
def Pz.oneshot (z : Pz) (n : Nat) : Nat := (z.reg (0x40204 + 16 * n)).toNat + (z.reg (0x40208 + 16 * n)).toNat * 2 ^ 32

/-- The next pulse of an output: by how much later than now, and the time that names it, on the clock of its mode. -/
def Pz.nextPulse (z : Pz) (n : Nat) : Option (Nat × Nat) :=
  let last := tblLookup z.time.pulses n
  let mode := z.fld (PzR.TOUT_CFG_MODE.at (16 * n))
  if mode = 1 then
    let d := (z.servo (z.fld (PzR.TOUT_CFG_DOMSEL.at (16 * n)))).ns
    let t := nextMultiple 1000000000 d last
    some (t - d, t)
  else if mode = 2 then
    let t := nextMultiple (50000 * 2 ^ z.fld (PzR.TOUT_CFG_PCODE.at (16 * n))) z.now last
    some (t - z.now, t)
  else if mode = 3 then
    let ts := (z.ctl.inkTime :: z.ctl.inks.map (·.m.time.toNat)).filter (fun t =>
      decide (z.now ≤ t) && decide (0 < t) && last != some t)
    match ts with
    | [] => none
    | t :: r =>
      let t := r.foldl min t
      some (t - z.now, t)
  else if mode = 4 ∧ z.now ≤ z.oneshot n ∧ last ≠ some (z.oneshot n) then some (z.oneshot n - z.now, z.oneshot n)
  else none

/-- TOUT_PULSE (R127): tray time comes to the output's next pulse. -/
def Pz.toutPulse (n : Nat) (z : Pz) : Pz :=
  if z.step < 3 then z
  else match z.nextPulse n with
    | none => z
    | some (wait, t) =>
      let z := z.advanceTo (z.now + wait)
      let w := 8 * max 1 (z.fld (PzR.TOUT_CFG_WIDTH.at (16 * n)))
      ({ z with time := { z.time with pulses := tblIns z.time.pulses n t } }).emit (.pulse n w z.now)

/-- TOUT_PULSE. -/
def execToutPulse (n : BitVec 2) (s : State) : Host.Outcome State Fault Refusal := .next (s.onPz (Pz.toutPulse n.toNat))

/-- A write of a word of the ONESHOT time: with the high word written, a time already past sets MISSED (R127; which write
completes the time DEDUCED from R11, assumption log 26). -/
def Pz.oneshotWrite (n : Nat) (high : Bool) (data : Word) (z : Pz) : Pz :=
  let z := z.setReg (0x40204 + 16 * n + 4 * b2n high) data
  if high && decide (z.oneshot n < z.now) then z.setFld (PzR.TOUT_CFG_MISSED.at (16 * n)) 1 else z

/-- TOUT_ONESHOT_WRITE (R127). -/
def execToutOneshotWrite (n : BitVec 2) (high : Bool) (p : Port) (data : Word) (s : State) :
    Host.Outcome State Fault Refusal :=
  .next (s.onPz (Pz.guarded p (viewAddr p (0x40204 + 16 * n.toNat + 4 * b2n high)) (Pz.oneshotWrite n.toNat high data)))

/-! ## Trigger inputs (R128, R260) -/

/-- A TIN item (R260). -/
def tinItem (stamp : Nat) (rising : Bool) (drops : Nat) : List Byte :=
  leB 8 stamp ++ leB 1 (b2n rising) ++ leB 1 (min 255 drops) ++ List.replicate 6 0

/-- A TIN item for the streams bound to an input, on every station (Table 10.3). -/
def Pz.toTin (n : Nat) (bytes : List Byte) (z : Pz) : Pz :=
  (List.range 64).foldl (fun z st => (List.range 16).foldl (fun z p =>
    match (z.slot st p).active with
    | none => z
    | some im => (List.range 16).foldl (fun z s =>
        match im.bind s with
        | some b => if b.kind.toNat = 3 ∧ b.arg.toNat % 4 = n then z.offerItem st p s b bytes else z
        | none => z) z) z) z

/-- LEVEL of an input follows its queue. -/
def Pz.setTin (n : Nat) (q : List (Nat × Bool × Nat)) (z : Pz) : Pz :=
  ({ z with time := { z.time with tin := tput z.time.tin n q } }).setFld (PzR.TIN_CFG_LEVEL.at (16 * n)) q.length

/-- TRIGGER_INPUT_EDGE (R128): an edge of the kind selected, 16 ns or more after the last, is stamped. -/
def Pz.tinEdge (n : Nat) (rising : Bool) (time : Nat) (z : Pz) : Pz :=
  let e := z.fld (PzR.TIN_CFG_EDGE.at (16 * n))
  let near : Bool := match tblLookup z.time.tinAt n with
    | some t => decide (time < t + 16)
    | none => false
  if z.step < 3 ∨ !bit e (if rising then 0 else 1) ∨ near then z
  else
    let z := z.advanceTo time
    let z := { z with time := { z.time with tinAt := tblIns z.time.tinAt n time } }
    let q := tget z.time.tin n
    if 64 ≤ q.length then
      ({ z with time := { z.time with tinLost := tput z.time.tinLost n (tget z.time.tinLost n + 1) } }).addSat
        (PzR.TIN_CFG_DROPS.at (16 * n)) 1
    else
      let d := tget z.time.tinLost n
      let z := { z with time := { z.time with tinLost := tput z.time.tinLost n 0 } }
      (z.setTin n (q ++ [(time, rising, d)])).toTin n (tinItem time rising d)

/-- TRIGGER_INPUT_EDGE. -/
def execTriggerInputEdge (n : BitVec 2) (rising : Bool) (time : Nat) (s : State) : Host.Outcome State Fault Refusal :=
  .next (s.onPz (Pz.tinEdge n.toNat rising time))

/-- Key of a capture (R11): the requester and the higher offset. -/
def pzCapKey (p : Port) (off : Nat) : Nat := (b2n p.side) * 2 ^ 26 + off

/-- A read of `PZ_TIN_DATA[n]` (Table 5.20): the oldest stamp leaves the queue, its low word is read and its high word
captured. On an empty queue what is read is free, once a stamp has been taken since reset (`free`; the reset value before). -/
def Pz.tinRead (n : Nat) (p : Port) (free : DWord) (z : Pz) : Pz :=
  let off := 0x40304 + 16 * n
  let w : Nat × Pz := match tget z.time.tin n with
    | x :: rest => (x.1, z.setTin n rest)
    | [] => (if (tblLookup z.time.tinAt n).isNone then 0 else free.toNat, z)
  let z := (w.2.setReg off (BitVec.ofNat 32 w.1)).setReg (off + 4) (BitVec.ofNat 32 (w.1 / 2 ^ 32))
  let up := pzCapKey p (off + 4)
  { z with rdata := BitVec.ofNat 32 w.1
           caps := (up, BitVec.ofNat 32 (w.1 / 2 ^ 32)) :: z.caps.filter (fun c => c.1 != up) }

/-- TIN_DATA_READ (R11, R128). -/
def execTinDataRead (n : BitVec 2) (p : Port) (s : State) : Host.Outcome State Fault Refusal :=
  let free := Config.freeWord s.freeCtr
  .next { s.onPz (fun z => Pz.guarded p (viewAddr p (0x40304 + 16 * n.toNat)) (Pz.tinRead n.toNat p free)
      { z with rdata := 0 }) with freeCtr := s.freeCtr + 1 }

end Sys2Proof.Machine
end

