-- ==== Sys2Proof/Machine/PzPower.lean ====
section
/-!
DEFINITION. Sys2Proof/Machine/PzPower.lean: the governor and the thermal limits (R221 to R224, R413 to R415), the mesh
(R215), Ethernet and PCIe links (R398 to R401), the reference clock (R406), power-up, power-down and reset (R225, R247,
R289, R317, R338, R364, R386, R396, R407 to R412, R416, R420, R422), JTAG (R404) and the CCCs of the sideband (R403).
-/

namespace Sys2Proof.Machine

/-! ## The governor (R222 to R224) -/

/-- Power cap in W (Table 9.14). -/
def Pz.pcap (z : Pz) : Nat := min 350 (z.fld PzR.GOV_CTL_PCAP)

/-- GOV_STEP: one step of the level toward demand, within the thermal ceiling and, rising, below the power cap; ballast
runs while demand is below the level. Before step 6 the level is held at 0. -/
def Pz.govStep (demand watts : Nat) (z : Pz) : Pz :=
  if !z.runs then z
  else
    let l := z.fld PzR.GOV_STAT_LEVEL
    let want := min (min demand 64) (z.fld PzR.THERM_STAT_CEIL)
    let hit := decide (z.pcap ≤ watts)
    let z := onlyIf hit (fun z => z.setFld PzR.GOV_STAT_PCAP_HIT 1) z
    let z := z.setFld PzR.GOV_STAT_BALLAST (b2n (decide (demand < l)))
    let l' := if want < l then l - 1 else if l < want ∧ !hit then l + 1 else l
    { z.setFld PzR.GOV_STAT_LEVEL l' with hl := { z.hl with demand := demand } }

/-- GOV_STEP. -/
def execGovStep (demand : BitVec 7) (watts : BitVec 10) (s : State) : Host.Outcome State Fault Refusal :=
  .next (s.onPz (Pz.govStep demand.toNat watts.toNat))

/-- SPEED_MONITOR (R221). -/
def Pz.speed (d ratio : Nat) (z : Pz) : Pz :=
  if !z.runs || !z.dieOk d then z
  else
    let z := z.setFld (PzR.SPD_RATIO.at (4 * d)) ratio
    if ratio < 0x100 then (z.pkgEvent PzR.PKG_STAT_BELOW_FLOOR).deviceAlarm 0x40 d else z

/-- SPEED_MONITOR. -/
def execSpeedMonitor (die : BitVec 4) (ratio : BitVec 16) (s : State) : Host.Outcome State Fault Refusal :=
  .next (s.onPz (Pz.speed die.toNat ratio.toNat))

/-! ## Temperature (R413 to R415) -/

/-- A die's latest reading, °C. -/
def Pz.temp (z : Pz) (d : Nat) : Int := sgn 8 (z.fld (PzR.TEMP_TEMP.at (4 * d)))

/-- One die's reading: latest and highest, HOT and the alarm at a crossing of TJ_ALM, the trip at 115 °C. Base dies answer
once they are powered. -/
def Pz.readTemp (d : Nat) (b : Byte) (z : Pz) : Pz :=
  if z.step < 3 ∨ (d < 16 ∧ !z.runs) then z
  else
    let t : Int := sgn 8 b.toNat
    let peak := sgn 8 (z.fld (PzR.TEMP_PEAK.at (4 * d)))
    let z := (z.setFld (PzR.TEMP_TEMP.at (4 * d)) b.toNat).setFld (PzR.TEMP_PEAK.at (4 * d)) (unsgn 8 (max peak t))
    let alm : Int := (min 110 (z.fld PzR.THERM_CTL_TJ_ALM) : Nat)
    let was := z.hl.hot.any (· == d)
    let z := if alm ≤ t then
        let z := z.setFld PzR.THERM_STAT_HOT 1
        if was then z else Pz.deviceAlarm 0x45 d { z with hl := { z.hl with hot := d :: z.hl.hot } }
      else { z with hl := { z.hl with hot := z.hl.hot.filter (· != d) } }
    if 115 ≤ t ∧ z.hl.trip.isNone then
      Pz.almPin (Pz.deviceAlarm 0x46 d
        { z with hl := { z.hl with trip := some z.now }, pins := { z.pins with tripN := false } })
    else z

/-- The hottest base die, the lowest of several. -/
def Pz.hottest (z : Pz) : Nat := (List.range 16).foldl (fun b d => if z.temp b < z.temp d then d else b) 0

/-- TEMP_SAMPLE (R413 to R415): the readings of base dies 0 to 15 and keeper dies 16 and 17. -/
def Pz.tempSample (rs : List Byte) (z : Pz) : Pz :=
  let z := (List.range 18).foldl (fun z d => match rs[d]? with
    | some b => z.readTemp d b
    | none => z) z
  let d := z.hottest
  (z.setFld PzR.THERM_STAT_TMAX (unsgn 8 (z.temp d))).setFld PzR.THERM_STAT_HOTDIE d

/-- TEMP_SAMPLE. -/
def execTempSample (readings : List Byte) (s : State) : Host.Outcome State Fault Refusal :=
  .next (s.onPz (Pz.tempSample readings))

/-- CEIL_STEP (R414): the ceiling falls by one while a base die is at or above TJ_THR, and rises by one while all are 3 °C
below it or cooler. -/
def Pz.ceilStep (z : Pz) : Pz :=
  let c := z.fld PzR.THERM_STAT_CEIL
  let thr : Int := (min 105 (z.fld PzR.THERM_CTL_TJ_THR) : Nat)
  let low := min 64 (z.fld PzR.THERM_CTL_CEIL_MIN)
  let c' := if (List.range 16).any (fun d => decide (thr ≤ z.temp d)) then (if low < c then c - 1 else c)
    else if (List.range 16).all (fun d => decide (z.temp d ≤ thr - 3)) then min 64 (c + 1) else c
  (z.setFld PzR.THERM_STAT_CEIL c').setFld PzR.THERM_STAT_THROTTLE (b2n (decide (c' < 64)))

/-- CEIL_STEP. -/
def execCeilStep (s : State) : Host.Outcome State Fault Refusal := .next (s.onPz (onlyIf (s.pz.runs) Pz.ceilStep))

/-! ## The mesh (R215) -/

/-- Whether two base dies are neighbours on the grid. -/
def meshNeighbours (a b : Nat) : Bool :=
  decide ((a / 4 = b / 4 ∧ (a + 1 = b ∨ b + 1 = a)) ∨ a + 4 = b ∨ b + 4 = a)

/-- MESH_LINK_DOWN: the link is marked down; each packet lost on it or without a route is recorded. -/
def Pz.meshDown (a b : BitVec 4) (lost : List (BitVec 4 × BitVec 4 × BitVec 3)) (z : Pz) : Pz :=
  if !z.runs || !meshNeighbours a.toNat b.toNat then z
  else
    let z := Pz.pkgEvent PzR.PKG_STAT_MESH_DEG
      { z with hl := { z.hl with mesh := if z.hl.mesh.any (· == (a, b)) then z.hl.mesh else (a, b) :: z.hl.mesh } }
    lost.foldl (fun z p => z.record 0 0x0B01 0 0 (leB 4 p.1.toNat ++ leB 4 p.2.1.toNat ++ leB 4 p.2.2.toNat)) z

/-- MESH_LINK_DOWN. -/
def execMeshLinkDown (src dst : BitVec 4) (lost : List (BitVec 4 × BitVec 4 × BitVec 3)) (s : State) :
    Host.Outcome State Fault Refusal :=
  .next (s.onPz (Pz.meshDown src dst lost))

/-! ## Ethernet ports (R398, R399) -/

/-- Whether a port's option is one that runs (Table 18.13). -/
def Pz.portOn (z : Pz) (p : Nat) : Bool :=
  let m := z.fld (PzR.PORT_CFG_MODE.at (8 * p))
  decide (1 ≤ m ∧ m ≤ 3)

/-- A link that was up goes down; DOWNS is left to the caller. -/
def Pz.dropLink (p : Nat) (z : Pz) : Pz :=
  if z.linkUp p then (z.setFld (PzR.PORT_STAT_LINK.at (8 * p)) 0).ptpLink p false else z

/-- LINK_DROP (R399). -/
def Pz.linkDrop (p : Nat) (z : Pz) : Pz :=
  if z.linkUp p then (z.dropLink p).addSat (PzR.PORT_STAT_DOWNS.at (8 * p)) 1 else z

/-- LINK_DROP. -/
def execLinkDrop (port : BitVec 5) (s : State) : Host.Outcome State Fault Refusal :=
  .next (s.onPz (onlyIf (decide (port.toNat < 18)) (Pz.linkDrop port.toNat)))

/-- LINK_UP (R399): a port that is not off, with its clock, rails and die; when U0 comes up, the device registers (R336). -/
def Pz.linkRise (p : Nat) (z : Pz) : Pz :=
  if z.linkUp p || !z.portOn p || !z.pins.refclk || decide (z.step < 8) || !z.dieOk (portDie p) then z
  else
    let z := (z.setFld (PzR.PORT_STAT_LINK.at (8 * p)) 1).ptpLink p true
    if p = 16 ∧ z.flag PzR.PWR_STAT_UP then z.registerUp else z

/-- LINK_UP. -/
def execLinkUp (port : BitVec 5) (s : State) : Host.Outcome State Fault Refusal :=
  .next (s.onPz (onlyIf (decide (port.toNat < 18)) (Pz.linkRise port.toNat)))

/-- A write of `PZ_PORT_CFG[p]` (R398, R399): a 25 Gb/s option for U0 or U1 is ignored; otherwise the port goes down and
one more entry counts in DOWNS. -/
def Pz.portWrite (p : Nat) (data : Word) (z : Pz) : Pz :=
  let m := bits data.toNat 31 29
  if 16 ≤ p ∧ (m = 1 ∨ m = 2) then z
  else ((z.plainWrite true (0x50800 + 8 * p) data).dropLink p).addSat (PzR.PORT_STAT_DOWNS.at (8 * p)) 1

/-- PORT_MODE_WRITE. -/
def execPortModeWrite (port : BitVec 5) (p : Port) (data : Word) (s : State) : Host.Outcome State Fault Refusal :=
  .next (s.onPz (onlyIf (decide (port.toNat < 18))
    (Pz.guarded p (viewAddr p (0x50800 + 8 * port.toNat)) (Pz.portWrite port.toNat data))))

/-! ## PCIe (R400, R401) -/

/-- What was waiting for the host goes out as far as there is room (R375, R316, R244). -/
def Pz.hostAgain (z : Pz) : Pz :=
  let z := z.flushMsix
  let z := Pz.pumpRecords (z.recQ.length + 1) z
  Pz.pumpReplies (z.mb.replies.length + 1) z

/-- PCIE_LINK_CHANGE (R400): the link, Bus Master Enable, the power state and MSI-X Enable as they now are. -/
def Pz.pcieChange (up busMaster d3hot msixOn : Bool) (z : Pz) : Pz :=
  if z.pins.ready && z.pins.perstN then
    Pz.hostAgain { z with pins := { z.pins with pcieUp := up, busMaster := busMaster, d3hot := d3hot, msixOn := msixOn } }
  else z

/-- PCIE_LINK_CHANGE. -/
def execPcieLinkChange (up busMaster d3hot msixOn : Bool) (s : State) : Host.Outcome State Fault Refusal :=
  .next (s.onPz (Pz.pcieChange up busMaster d3hot msixOn))

/-- The endpoint falls back to its state in reset. -/
def Pz.pcieOff (z : Pz) : Pz :=
  { z with pins := { z.pins with pcieUp := false, busMaster := false, d3hot := false, msixOn := false } }

/-- PERST_ASSERT (R401): rings off, the MSI-X table and pending bits in reset, replies discarded, a drain abandoned. -/
def Pz.perstLow (z : Pz) : Pz :=
  let z := { z with regs := z.regs.filter (fun p => !(decide (0xC0000 ≤ p.1 ∧ p.1 ≤ 0xC0800)))
                    pins := { z.pins with perstN := false } }
  let z := (((z.pcieOff.setFld PzR.AL_RSIZE_ENTRIES 0).setFld PzR.VD_RSIZE_UNITS 0).setFld PzR.MB_RSIZE_ENTRIES 0).setFld
    PzR.RST_STAT_PERST 1
  let z := Pz.pumpReplies (z.mb.replies.length + 1) z
  onlyIf (z.fld PzR.SN_STAT_STATE == 3) Pz.dropSnap z.almPin

/-- PERST_ASSERT. -/
def execPerstAssert (s : State) : Host.Outcome State Fault Refusal := .next (s.onPz (onlyIf s.pz.pins.perstN Pz.perstLow))

/-- PERST_RELEASE (R401). -/
def execPerstRelease (s : State) : Host.Outcome State Fault Refusal :=
  .next (s.onPz fun z => { z with pins := { z.pins with perstN := true } })

/-! ## The reference clock (R406) -/

/-- PZ_REFCLK_LOST: every port goes down, tray time is in holdover, the alarm is raised. -/
def Pz.refclkLost (z : Pz) : Pz :=
  if !z.pins.refclk ∨ z.step < 3 then { z with pins := { z.pins with refclk := false } }
  else
    let z := (List.range 18).foldl (fun z p => z.linkDrop p) { z with pins := { z.pins with refclk := false } }
    z.follow.deviceAlarm 0x43 0

/-- PZ_REFCLK_LOST. -/
def execPzRefclkLost (s : State) : Host.Outcome State Fault Refusal := .next (s.onPz Pz.refclkLost)

/-- PZ_REFCLK_RETURN: the PLLs relock; the ports retrain by their own commands. -/
def execPzRefclkReturn (s : State) : Host.Outcome State Fault Refusal :=
  .next (s.onPz fun z => Pz.timeFlags { z with pins := { z.pins with refclk := true } })

/-! ## Power-down (R410, R411, R415) -/

/-- The enables drop: nothing but the keepers runs, and nothing follows until `pz_por_n` has fallen and risen. -/
def Pz.railsOff (z : Pz) : Pz :=
  let z := (List.range 18).foldl (fun z p => z.dropLink p) z
  let z := (((z.setFld PzR.PWR_STAT_EN 0).setFld PzR.PWR_STAT_PG 0).setFld PzR.PWR_STAT_UP 0).setFld PzR.PWR_STAT_STEP
    (min 3 z.step)
  { z.pcieOff.setFld PzR.DDR_STAT_TRAINED 0 with pins := { z.pcieOff.pins with ready := false } }

/-- THERM_TRIP_SHUTDOWN (R415): 50 µs after the trip. -/
def Pz.tripOff (z : Pz) : Pz :=
  match z.hl.trip with
  | none => z
  | some t =>
    if z.fld PzR.PWR_STAT_EN = 0 then z
    else (z.advanceTo (t + 50000)).railsOff.setFld PzR.RST_STAT_CAUSE 4

/-- THERM_TRIP_SHUTDOWN. -/
def execThermTripShutdown (s : State) : Host.Outcome State Fault Refusal := .next (s.onPz Pz.tripOff)

/-- RAIL_FAULT (R410): an enabled rail fails: alarm, then the enables drop; CAUSE and RAILF are recorded. -/
def Pz.railFault (r : Nat) (z : Pz) : Pz :=
  if !bit (z.fld PzR.PWR_STAT_EN) r then z
  else
    let z := Pz.almPin ({ z with pins := { z.pins with railLow := true } }.deviceAlarm 0x44 r)
    let z := z.railsOff.setFld PzR.RST_STAT_CAUSE 5
    z.setFld PzR.RST_STAT_RAILF (setBits (z.fld PzR.RST_STAT_RAILF) r r 1)

/-- RAIL_FAULT. -/
def execRailFault (rail : BitVec 3) (s : State) : Host.Outcome State Fault Refusal :=
  .next (s.onPz (Pz.railFault rail.toNat))

/-- A power-on reset: what is kept is the Peat store, CAUSE and RAILF, levels and straps of pins, and what has left. -/
def Pz.powerOn (z : Pz) : Pz :=
  { Pz.reset with
    peat := { z.peat with saved := none, due := false }
    out := z.out
    pins := { PzPins.reset with refclk := z.pins.refclk, i3cAddr := z.pins.i3cAddr, perstN := z.pins.perstN
                                tripN := z.pins.tripN } }.setReg 0x10464 (z.reg 0x10464 &&& 0xFFE00000)

/-- PZ_POR_FALL (R411): the enables drop, and the device is held in a power-on reset. -/
def execPzPorFall (s : State) : Host.Outcome State Fault Refusal := .next (s.onPz Pz.powerOn)

/-! ## Power-up (Table 18.5) -/

/-- An enable is asserted. -/
def Pz.enable (r : Nat) (z : Pz) : Pz := z.setFld PzR.PWR_STAT_EN (setBits (z.fld PzR.PWR_STAT_EN) r r 1)

/-- Whether a power-good has been seen. -/
def Pz.railGood (z : Pz) (r : Nat) : Bool := bit (z.fld PzR.PWR_STAT_PG) r

/-- The sequence's last step completed. -/
def Pz.setStep (n : Nat) (z : Pz) : Pz := z.setFld PzR.PWR_STAT_STEP n

/-- PZ_POR_RISE (R409, Table 18.11): step 2 ends. `applied` says that VDD_AO was applied since; `torn` names keeper page
copies that a loss of power left torn (R354). -/
def Pz.porRise (applied : Bool) (torn : List (Bool × BitVec 10)) (z : Pz) : Pz :=
  if z.pins.porN then z
  else
    let tear : PPage → PPage := fun c => { c with torn := true }
    let peat := torn.foldl (fun (p : PzPeat) t =>
      if t.1 then { p with k1 := tmod p.k1 t.2.toNat tear } else { p with k0 := tmod p.k0 t.2.toNat tear }) z.peat
    let z := { z with peat := peat, pins := { z.pins with porN := true, tripN := true } }
    let z := if applied then (z.setFld PzR.RST_STAT_CAUSE 1).setFld PzR.RST_STAT_RAILF 0 else z.setFld PzR.RST_STAT_CAUSE 2
    z.setStep 2

/-- PZ_POR_RISE. -/
def execPzPorRise (applied : Bool) (torn : List (Bool × BitVec 10)) (s : State) : Host.Outcome State Fault Refusal :=
  .next (s.onPz (Pz.porRise applied torn))

/-- RAIL_POWER_GOOD (R409): the power-good of the rail enabled last; steps 4 and 5 end with it, and rails 3 and 5 let the
next enable follow. -/
def Pz.railUp (r : Nat) (z : Pz) : Pz :=
  if !bit (z.fld PzR.PWR_STAT_EN) r ∨ z.railGood r then z
  else
    let z := z.setFld PzR.PWR_STAT_PG (setBits (z.fld PzR.PWR_STAT_PG) r r 1)
    if r = 0 then (z.setStep 4).enable 1
    else if r = 1 then z.setStep 5
    else if r = 3 then z.enable 4
    else if r = 5 then z.enable 6
    else z

/-- RAIL_POWER_GOOD. -/
def execRailPowerGood (rail : BitVec 3) (s : State) : Host.Outcome State Fault Refusal :=
  .next (s.onPz (Pz.railUp rail.toNat))

/-- Step 10 (R357, R336): keeper state restored, the fleet ID loaded, registration sent. -/
def Pz.stepTen (z : Pz) : Pz := ((z.restoreKeeper.loadPeat).setFld PzR.PWR_STAT_UP 1).registerUp

/-- POWER_UP_STEP_DONE (Table 18.5): steps 3 and 6 to 10 end, each when its rails are good. `dies` and `keepers` are what
the self-test of step 6 finds, `channels` those that train in step 9. -/
def Pz.stepDone (dies keepers channels : Nat) (z : Pz) : Pz :=
  if !z.pins.porN then z
  else if z.step = 2 then (z.reconcile.setStep 3).enable 0
  else if z.step = 5 then
    (((z.setFld PzR.PKG_STAT_DIE_OK dies).setFld PzR.PKG_STAT_KEEPER_OK keepers).setStep 6).enable 2
  else if z.step = 6 ∧ z.railGood 2 then
    Pz.enable 3 ({ z with pins := { z.pins with ready := true } }.setStep 7)
  else if z.step = 7 ∧ z.railGood 4 then (z.setStep 8).enable 5
  else if z.step = 8 ∧ z.railGood 6 then
    let ok := (List.range 24).foldl (fun n c => if bit channels c && z.dieOk (c / 2) then n + 2 ^ c else n) 0
    ((z.setFld PzR.DDR_STAT_TRAINED ok).setStep 9).mirror
  else if z.step = 9 then (z.setStep 10).stepTen
  else z

/-- POWER_UP_STEP_DONE. -/
def execPowerUpStepDone (dies : BitVec 16) (keepers : BitVec 2) (channels : BitVec 24) (s : State) :
    Host.Outcome State Fault Refusal :=
  .next (s.onPz (Pz.stepDone dies.toNat keepers.toNat channels.toNat))

/-! ## Warm reset (R412) -/

/-- Registers that a warm reset keeps: those of which no rule says that it resets them (R225, R364, R412, R416). -/
def warmKeeps (off : Nat) : Bool :=
  decide (0x10000 ≤ off ∧ off < 0x10300) || decide (0x10410 ≤ off ∧ off < 0x10800) ||
  decide (0x40000 ≤ off ∧ off < 0x60000) || decide (0xA0000 ≤ off ∧ off < 0xB0000)

/-- The routing entries keep LIVE and fences; every liveness timer starts again (R317). -/
def Route.again (now : Nat) (r : Route) : Route :=
  { r with frameAt := now, reportAt := now, evidAt := now, muteAt := now, disagAt := none, seconds := 0, probeAt := now }

/-- A mailbox word with OWN cleared, when it is word 0 of a slot. -/
def disown (p : Nat × Word) : Nat × Word := if p.1 % 1024 = 0 then (p.1, p.2 &&& 0x7FFFFFFF) else p

/-- A warm reset: what each chapter states, then steps 6 and 10 again where they had been done. -/
def Pz.warmReset (dies : Nat) (torn : List (BitVec 3)) (z : Pz) : Pz :=
  let now := z.now
  let z : Pz := { z with
    regs := z.regs.filter (fun p => warmKeeps p.1), caps := []
    routes := z.routes.map (fun (p : Nat × Route) => (p.1, p.2.again now))
    ing := { z.ing with queues := [], asm := [], ready := [], prog := [] }
    alarmQ := [], alPhase := false, recQ := [], recPhase := false, msixDue := [], msixAt := []
    mb := { (default : Mailbox) with words := (z.mb.words.map disown).filter (fun p => p.2 != 0) }
    slots := [], ctxs := [], models := [], launches := []
    ctl := { (default : PzCtl) with
      chains := z.ctl.chains, kids := z.ctl.kids, acted := z.ctl.acted, answers := z.ctl.answers, cseqs := z.ctl.cseqs
      epoch := z.ctl.epoch, inkTime := z.ctl.inkTime, started := z.ctl.started, parentAt := now
      rseq := z.ctl.rseq, aseq := z.ctl.aseq, tseqs := z.ctl.tseqs }
    snap := { (default : SnapSt) with seq := z.snap.seq }
    hl := { z.hl with demand := 0, sram := 0, dram := 0, sramH := 24, dramH := 24 } }
  let z : Pz := (((z.setFld PzR.PKG_STAT_ROLE_LOCK 0).setFld PzR.GOV_STAT_LEVEL 0).setFld PzR.GOV_STAT_BALLAST 0).setFld
    PzR.RST_STAT_PERST 0
  let z : Pz := (List.range 18).foldl (fun z d => z.setFld (PzR.TEMP_PEAK.at (4 * d)) 0) (z.setFld PzR.RST_STAT_CAUSE 3)
  let z : Pz := if torn.isEmpty then z else z.setFld PzR.IW_STAT_TORN 1
  let z : Pz := if 6 ≤ z.step then z.setFld PzR.PKG_STAT_DIE_OK dies else z
  Pz.almPin (if 10 ≤ z.step then z.mirror.stepTen else z)

/-- PZ_WARM_RESET (R412): `pz_por_n` low overrides it; with the enables dropped nothing runs. -/
def execPzWarmReset (dies : BitVec 16) (torn : List (BitVec 3)) (s : State) : Host.Outcome State Fault Refusal :=
  .next (s.onPz fun z => onlyIf (z.pins.porN && z.fld PzR.PWR_STAT_EN != 0) (Pz.warmReset dies.toNat torn) z)

/-! ## JTAG (R404) -/

/-- A JTAG instruction is selected; it answers from step 3 on. 0 BYPASS, 1 IDCODE, 2 SAMPLE/PRELOAD, 3 EXTEST, 4 CLAMP,
5 HIGHZ. -/
def Pz.jtag (k : BitVec 3) (f : Pz → Pz) (z : Pz) : Pz :=
  if z.step < 3 then z else f { z with pins := { z.pins with jtag := k } }

/-- JTAG_BYPASS. -/
def execJtagBypass (s : State) : Host.Outcome State Fault Refusal := .next (s.onPz (Pz.jtag 0 id))

/-- JTAG_IDCODE: 0x30D2_056D. -/
def execJtagIdcode (s : State) : Host.Outcome State Fault Refusal := .next (s.onPz (Pz.jtag 1 (Pz.emit (.jtag 0x30D2056D))))

/-- JTAG_SAMPLE_PRELOAD: the captured signals are shifted out, the preload is left in the boundary-scan register. -/
def execJtagSamplePreload (capture preload : DWord) (s : State) : Host.Outcome State Fault Refusal :=
  .next (s.onPz (Pz.jtag 2 fun z =>
    Pz.emit (.jtag capture) { z with pins := { z.pins with boundary := preload } }))

/-- JTAG_EXTEST: the outputs follow the boundary-scan register. -/
def execJtagExtest (s : State) : Host.Outcome State Fault Refusal := .next (s.onPz (Pz.jtag 3 id))

/-- JTAG_CLAMP. -/
def execJtagClamp (s : State) : Host.Outcome State Fault Refusal := .next (s.onPz (Pz.jtag 4 id))

/-- JTAG_HIGHZ. -/
def execJtagHighz (s : State) : Host.Outcome State Fault Refusal := .next (s.onPz (Pz.jtag 5 id))

/-! ## CCCs of the sideband (R403) -/

/-- The sideband answers from step 3 on. -/
def Pz.ccc (f : Pz → Pz) (z : Pz) : Pz := if z.step < 3 then z else f z

/-- The dynamic address changed. -/
def Pz.setDyn (a : Option (BitVec 7)) (z : Pz) : Pz := { z with i3c := { z.i3c with dyn := a } }

/-- Static address of the target: 0x58 + `pz_i3c_addr`. -/
def Pz.i3cStatic (z : Pz) : Nat := 0x58 + z.pins.i3cAddr.toNat

/-- `n` bytes of an answer that the spec does not state (assumption log 9), most significant first. -/
def i3cBytes (q n : Nat) : List Byte := (leB n (Config.i3cOpen q)).reverse

/-- I3C_ENTDAA: without a dynamic address the target tells PID, BCR and DCR and takes the address. -/
def execI3cEntdaa (addr : BitVec 7) (s : State) : Host.Outcome State Fault Refusal :=
  .next (s.onPz (Pz.ccc fun z => if z.i3c.dyn.isSome then z
    else (z.emit (.i3c (i3cBytes 0 6 ++ i3cBytes 1 1 ++ i3cBytes 2 1))).setDyn (some addr)))

/-- I3C_SETDASA: the target with that static address and no dynamic one takes it. -/
def execI3cSetdasa (static addr : BitVec 7) (s : State) : Host.Outcome State Fault Refusal :=
  .next (s.onPz (Pz.ccc fun z =>
    if z.i3c.dyn.isNone && static.toNat == z.i3cStatic then z.setDyn (some addr) else z))

/-- I3C_SETNEWDA: the dynamic address is replaced. -/
def execI3cSetnewda (addr : BitVec 7) (s : State) : Host.Outcome State Fault Refusal :=
  .next (s.onPz (Pz.ccc fun z => if z.i3c.dyn.isSome then z.setDyn (some addr) else z))

/-- I3C_RSTDAA: the dynamic address is given up. -/
def execI3cRstdaa (s : State) : Host.Outcome State Fault Refusal := .next (s.onPz (Pz.ccc (Pz.setDyn none)))

/-- An answer of `n` open bytes to query `q`. -/
def Pz.i3cTell (q n : Nat) : Pz → Pz := Pz.ccc (Pz.emit (.i3c (i3cBytes q n)))

/-- I3C_GETPID. -/
def execI3cGetpid (s : State) : Host.Outcome State Fault Refusal := .next (s.onPz (Pz.i3cTell 0 6))

/-- I3C_GETBCR. -/
def execI3cGetbcr (s : State) : Host.Outcome State Fault Refusal := .next (s.onPz (Pz.i3cTell 1 1))

/-- I3C_GETDCR. -/
def execI3cGetdcr (s : State) : Host.Outcome State Fault Refusal := .next (s.onPz (Pz.i3cTell 2 1))

/-- I3C_GETSTATUS. -/
def execI3cGetstatus (s : State) : Host.Outcome State Fault Refusal := .next (s.onPz (Pz.i3cTell 3 2))

/-- I3C_GETMWL. -/
def execI3cGetmwl (s : State) : Host.Outcome State Fault Refusal := .next (s.onPz (Pz.i3cTell 4 2))

/-- I3C_GETMRL: with the byte for in-band interrupts. -/
def execI3cGetmrl (s : State) : Host.Outcome State Fault Refusal := .next (s.onPz (Pz.i3cTell 5 3))

/-- I3C_ENEC: the in-band interrupt is enabled. -/
def execI3cEnec (s : State) : Host.Outcome State Fault Refusal :=
  .next (s.onPz (Pz.ccc fun z => { z with i3c := { z.i3c with ibi := true } }))

/-- I3C_DISEC: the in-band interrupt is disabled. -/
def execI3cDisec (s : State) : Host.Outcome State Fault Refusal :=
  .next (s.onPz (Pz.ccc fun z => { z with i3c := { z.i3c with ibi := false } }))

end Sys2Proof.Machine
end

