-- ==== Sys2Proof/Machine/PzPort.lean ====
section
/-!
DEFINITION. Sys2Proof/Machine/PzPort.lean: what every BAR0 register of Polornaz shows and what a write of it does (R11 to R17,
R382 to R384, Table 19.2 and those it names), BAR2 (R418 to R420), register accesses over I3C (R403), patrol scrub (R391,
R392), and the commands on registers of either part.
-/

namespace Sys2Proof.Machine

/-! ## What a BAR0 register shows -/

/-- `PZ_ST_STAT[s]` but for FAULTS (Table 10.14). -/
def Pz.stWord (z : Pz) (st : Nat) : Nat :=
  (List.range 4).foldl (fun n c => if (z.ctx st c).isSome then n + 2 ^ (28 + c) else n) 0 +
  b2n (z.runs && !z.dieOk (st / 4)) * 2 ^ 27 +
  ((List.range 16).filter (fun p => (z.slot st p).active.isSome)).length * 2 ^ 16

/-- STATE, SHADOW, PEND and RUN of a slot (Table 10.15). -/
def Pz.pgWord (z : Pz) (st p : Nat) : Nat :=
  let x := z.slot st p
  let run := (List.range 4).any (fun c => match z.ctx st c with
    | some a => a.slot.toNat == p
    | none => false)
  (if x.active.isNone then 0 else if x.disabled then 2 else 1) * 2 ^ 30 + b2n x.shadow.isSome * 2 ^ 29 +
  (b2n x.tim.isSome * 4 + b2n x.ink.isSome * 2 + b2n x.arr.isSome) * 2 ^ 26 + b2n run * 2 ^ 25

/-- The replacement in progress. -/
def Pz.stagingModel (z : Pz) : Option Model := (z.models.map Prod.snd).find? (fun m => decide (m.st = .staging))

/-- `PZ_SG_STAT` (Table 12.15). -/
def Pz.sgWord (z : Pz) : Nat :=
  let s := z.stagingModel
  let n := (z.models.filter (fun m => decide (m.2.st = .active ∨ m.2.st = .staging))).length
  b2n s.isSome * 2 ^ 31 + b2n (z.models.any (fun m => decide (m.2.st = .shadow ∨ m.2.st = .planned))) * 2 ^ 30 +
  ((s.map (fun m => min 255 (256 * m.done / max 1 m.bytes))).getD 0) * 2 ^ 16 + n

/-- SRAM of a die that models hold, in MiB, rounded up (Table 12.18). -/
def Pz.dieUsed (z : Pz) (d : Nat) : Nat :=
  let ts := (z.models.flatMap (fun p => p.2.trees ++ p.2.old ++ (if p.2.st = .shadow then p.2.todo else []))).filter
    (fun t => t.die == d)
  (ts.foldl (fun n t => n + 8 * t.len) 0 + 1048575) / 1048576

/-- `PZ_SG_DIE[d]` (Table 12.18). -/
def Pz.sgDieWord (z : Pz) (d : Nat) : Nat :=
  let u := z.dieUsed d
  let free := (if d ≤ 13 then 956 else 700) - u
  (if z.runs && !z.dieOk d then 0 else free) * 2 ^ 16 + u

/-- Cells queued on a port in a class (Table 9.16). -/
def Pz.ingLevel (z : Pz) (p cls : Nat) : Nat := (tget z.ing.queues (8 * p + cls)).length

/-- Leaves with a liveness (Table 13.11). -/
def Pz.liveCount (z : Pz) (v : BitVec 2) : Nat := (z.routes.filter (fun r => r.2.valid && r.2.live == v)).length

/-- The record that a pair of dies or keepers hold of a page, as the view shows it (R352, R354): data, then WEAR, GEN, the
CRC and zeros. Pages of keeper state have a layout of which the spec gives only the header's fields (assumption log 16). -/
def Pz.peatPageBytes (z : Pz) (page : Nat) : List Byte :=
  if 27 ≤ page ∧ page ≤ 42 then (List.range 4096).map (fun i => Config.reservedByte (2 ^ 48 + 4096 * page + i))
  else
    let c := z.peatCopy page
    let data := (List.range 504).flatMap (fun w => leB 8 (z.peatWord page w).toNat)
    data ++ leB 4 c.wear ++ leB 8 c.gen ++ leB 4 (crc32c data) ++ List.replicate 48 0

/-- A recorder of Polornaz read by SEQ: RES and the window (R345). -/
def Pz.showRecord (res : Nat) (bs : List Byte) (z : Pz) : Pz :=
  ({ z with iw := { z.iw with window := bs } }.setFld PzR.IW_STAT_RES res).setFld PzR.IW_STAT_UNITS (bs.length / 16)

/-- The cursor set to a SEQ of the recorder in REC. -/
def Pz.cursorTo (seq : Nat) (z : Pz) : Pz :=
  let r := z.fld PzR.IW_CTL_REC
  let z := z.setFld PzR.IW_CURSOR_SEQ seq
  match (tget z.iw.recs r).find seq with
  | none => z.showRecord 1 []
  | some x => z.showRecord 0 (inkBytes true r x)

/-- NEXT: the first record held after the cursor's SEQ. -/
def Pz.cursorNext (z : Pz) : Pz :=
  let r := z.fld PzR.IW_CTL_REC
  let cur := z.fld PzR.IW_CURSOR_SEQ
  match ((tget z.iw.recs r).held.dropWhile (fun x => decide (x.seq ≤ cur))).head? with
  | none => z.showRecord 1 []
  | some x => (z.setFld PzR.IW_CURSOR_SEQ x.seq).showRecord 0 (inkBytes true r x)

/-- The word at an offset, before any clearing. -/
def Pz.view (z : Pz) (off : Nat) : Nat :=
  let w := (z.reg off).toNat
  if 0x20000 ≤ off ∧ off < 0x30000 then
    let st := (off - 0x20000) / 0x400
    let d := off % 0x400
    if d = 0 then z.stWord st + w % 2 ^ 16
    else if 0x40 ≤ d ∧ d < 0x80 then z.pgWord st ((d - 0x40) / 4) + w % 2 ^ 25
    else w
  else if off = 0x30004 then z.sgWord
  else if off = 0x30008 then ((z.stagingModel).map (·.oldId.toNat)).getD 0
  else if off = 0x3000C then ((z.stagingModel).map (·.id.toNat)).getD 0
  else if 0x30100 ≤ off ∧ off < 0x30140 then z.sgDieWord ((off - 0x30100) / 4)
  else if 0x50400 ≤ off ∧ off < 0x50500 then
    let p := (off - 0x50400) / 16
    if off % 16 = 0 then z.ingLevel p 2 * 2 ^ 16 + z.ingLevel p 1
    else if off % 16 = 4 then z.ingLevel p 3 * 2 ^ 16 + z.ingLevel p 4
    else w
  else if off = 0x70010 then z.liveCount lvLive * 2 ^ 16 + z.liveCount lvLate
  else if off = 0x70014 then z.liveCount lvMute * 2 ^ 16 + z.liveCount lvFenced
  else if off = 0x70018 then (z.routes.filter (fun r => r.2.valid && r.2.disagAt.isSome)).length
  else if off = 0x80004 then setBits w 29 29 (b2n (z.ctl.jobs.any (fun j => !j.2.gone && j.2.prep.isSome)))
  else if off = 0x90004 then setBits w 26 17 (min 1023 z.wornPages)
  else if off = 0x90020 then (z.peatCopy (z.fld PzR.PS_PAGE_PAGE)).wear
  else if 0x91000 ≤ off ∧ off < 0x92000 then leAt (z.peatPageBytes (z.fld PzR.PS_PAGE_PAGE)) (off - 0x91000) 4
  else if 0xA0010 ≤ off ∧ off < 0xA0048 then
    let r := tget z.iw.recs ((off - 0xA0010) / 8)
    if off % 8 = 0 then (r.held.head?.map (·.seq)).getD 0 else seqNext r.last
  else if 0xA1000 ≤ off ∧ off < 0xA2000 then leAt z.iw.window (off - 0xA1000) 4
  else if off = 0xC1010 then w + z.alarmQ.length
  else w

/-- Whether an offset is the lower register of a value that spans two (R11). -/
def pzLow (off : Nat) : Bool :=
  [0x103B0, 0x60004, 0x70020, 0x70030, 0x9000C, 0xB0008, 0xB0010, 0xB0018, 0xB0020, 0xC1000].any (· == off) ||
  decide (0x40200 ≤ off ∧ off < 0x40240 ∧ off % 16 = 4)

/-- A BAR0 read that has been admitted: the word shown in `rdata`, a capture taken or used, RC fields cleared. -/
def Pz.readAdmitted (p : Port) (ns : Bool) (off : Nat) (z : Pz) : Pz :=
  match findRow pzRows off with
  | none => z
  | some r =>
    let key := pzCapKey p off
    let shown := match z.caps.find? (fun c => c.1 == key) with
      | some (_, v) => v.toNat
      | none => r.show ns (z.view off)
    let caps := z.caps.filter (fun c => c.1 != key)
    let up := pzCapKey p (off + 4)
    let caps := if pzLow off then (up, BitVec.ofNat 32 (z.view (off + 4))) :: caps.filter (fun c => c.1 != up) else caps
    { z.setReg off (BitVec.ofNat 32 (r.afterRead (z.reg off).toNat)) with caps := caps, rdata := BitVec.ofNat 32 shown }

/-- Mailbox slot of an offset. -/
def mbSlot (off : Nat) : Nat := (off - 0x61000) / 0x1000

/-- A BAR0 read (R11 to R17, R382 to R384); `free` for a read of an empty stamp queue. -/
def Pz.portRead (p : Port) (addr : BitVec 26) (free : DWord) (z : Pz) : Pz :=
  let off := barOff addr
  let sec := z.secure p addr
  Pz.guarded p addr (fun z =>
    if mbOff off then
      Pz.mbAccess (mbSlot off) sec (fun z =>
        { z with rdata := tget z.mb.words (1024 * mbSlot off + (off % 0x1000) / 4) }) z
    else if 0x40300 ≤ off ∧ off < 0x40340 ∧ off % 16 = 4 then z.tinRead ((off - 0x40300) / 16) p free
    else z.readAdmitted p (!sec) off) { z with rdata := 0 }

/-! ## Writes -/

/-- The meters of a class filled (R173): no bucket is below full. -/
def Pz.fillMeters (cls : Nat) (z : Pz) : Pz :=
  { z with ing := { z.ing with meters := z.ing.meters.filter (fun m => m.1 % 8 != cls) } }

/-- A write of ROLE (Table 9.11): ignored once ROLE_LOCK is set, and of 0b11. -/
def Pz.roleWrite (n : Nat) (z : Pz) : Pz :=
  if z.flag PzR.PKG_STAT_ROLE_LOCK ∨ bits n 31 30 = 3 then z else z.setFld PzR.PKG_CTL_ROLE (bits n 31 30)

/-- A write of `PZ_IW_CTL` (R345). -/
def Pz.iwWrite (n : Nat) (z : Pz) : Pz :=
  let z := (z.setFld PzR.IW_CTL_REC (bits n 27 24)).setFld PzR.IW_CTL_DTAG (bits n 23 0)
  if bit n 30 then z.cursorNext else z

/-- The effect of a BAR0 write that has been admitted, by its register. -/
def Pz.writeAdmitted (p : Port) (sec : Bool) (off : Nat) (data : Word) (z : Pz) : Pz :=
  let n := data.toNat
  if mbOff off then Pz.mbAccess (mbSlot off) sec (Pz.mbWrite (mbSlot off) ((off % 0x1000) / 4) data) z
  else if off = 0x10000 then z.roleWrite n
  else if off = 0x40000 then (z.plainWrite (!sec) off data).follow
  else if off = 0x40008 then (z.plainWrite (!sec) off data).timeFlags
  else if 0x40200 ≤ off ∧ off < 0x40240 ∧ (off % 16 = 4 ∨ off % 16 = 8) then
    z.oneshotWrite ((off - 0x40200) / 16) (decide (off % 16 = 8)) data
  else if 0x50100 ≤ off ∧ off < 0x50150 then (z.setReg off data).fillMeters ((off - 0x50100) / 16)
  else if 0x50800 ≤ off ∧ off < 0x50890 ∧ off % 8 = 0 then z.portWrite ((off - 0x50800) / 8) data
  else if off = 0x60010 ∨ off = 0x7003C ∨ off = 0xC100C then z.rptrWrite off data
  else if off = 0x6000C ∨ off = 0x70038 then (z.plainWrite (!sec) off data).hostAgain
  else if off = 0x80000 then z.cfCtlWrite (!sec) data
  else if off = 0x90000 ∨ off = 0x90024 ∨ off = 0x90028 then (z.psWrite off data true true).retryAllocs
  else if off = 0x90008 then z.psCtlWrite data
  else if off = 0x90018 then z.clearOos data
  else if off = 0xA0000 then z.iwWrite n
  else if off = 0xA0004 then z.cursorTo n
  else if off = 0xB002C then z.restoreWrite data
  else if 0xC0000 ≤ off ∧ off < 0xC0080 then (z.plainWrite (!sec) off data).flushMsix
  else if off = 0xC1008 then (z.plainWrite (!sec) off data).almPin
  else if off = 0xD0004 then
    if z.flag PzR.SEC_VIEW_ALIAS_OFF && !p.side then z else z.plainWrite (!sec) off data
  else z.plainWrite (!sec) off data

/-- A BAR0 write (R11 to R17, R382 to R384). -/
def Pz.portWrite0 (p : Port) (addr : BitVec 26) (data : Word) (z : Pz) : Pz :=
  let sec := z.secure p addr
  Pz.guarded p addr (Pz.writeAdmitted p sec (barOff addr) data) z

/-! ## Commands on registers of either part -/

/-- A read of either part; a read of Polornaz may use one free value. -/
def readPart (part : Part) (p : Port) (addr : BitVec 26) (s : State) : State :=
  match part with
  | .leaf => s.onLeaf (Leaf.portRead p addr.toNat)
  | .pz => { s.onPz (Pz.portRead p addr (Config.freeWord s.freeCtr)) with freeCtr := s.freeCtr + 1 }

/-- A write of either part. -/
def writePart (part : Part) (p : Port) (addr : BitVec 26) (data : Word) (s : State) : State :=
  match part with
  | .leaf => s.onLeaf (Leaf.portWrite p addr.toNat data)
  | .pz => s.onPz (Pz.portWrite0 p addr data)

/-- SPLIT_VALUE_LOW_READ (R11). -/
def execSplitValueLowRead (part : Part) (p : Port) (addr : BitVec 26) (s : State) : Host.Outcome State Fault Refusal :=
  .next (readPart part p addr s)

/-- RC_FIELD_READ (R15, Table 0.5). -/
def execRcFieldRead (part : Part) (p : Port) (addr : BitVec 26) (s : State) : Host.Outcome State Fault Refusal :=
  .next (readPart part p addr s)

/-- REGISTER_WRITE (R10 to R17). -/
def execRegisterWrite (part : Part) (p : Port) (addr : BitVec 26) (data : Word) (s : State) :
    Host.Outcome State Fault Refusal :=
  .next (writePart part p addr data s)

/-- IW_CURSOR_WRITE (R345). -/
def execIwCursorWrite (part : Part) (p : Port) (data : Word) (s : State) : Host.Outcome State Fault Refusal :=
  .next (match part with
    | .leaf => writePart .leaf p 0xB004 data s
    | .pz => writePart .pz p (viewAddr p 0xA0004) data s)

/-- IW_NEXT (R345): a write of `GL_IW_CTL` or `PZ_IW_CTL` with NEXT set. -/
def execIwNext (part : Part) (p : Port) (data : Word) (s : State) : Host.Outcome State Fault Refusal :=
  .next (match part with
    | .leaf => writePart .leaf p 0xB000 (data ||| 0x40000000) s
    | .pz => writePart .pz p (viewAddr p 0xA0000) (data ||| 0x40000000) s)

/-! ## BAR2 (R418 to R420) -/

/-- The eight-byte-aligned fields of a routing entry as bytes (Table 9.7). -/
def Route.bytes (r : Route) : List Byte :=
  leB 4 r.fleet.toNat ++ leB 4 (r.tag.toNat * 256 + r.pos.toNat) ++
  leB 4 (b2n r.valid * 2 ^ 31 + b2n r.refused * 2 ^ 30 + b2n r.oos * 2 ^ 29 + r.live.toNat * 2 ^ 27 + b2n r.phase * 2 ^ 26 +
    r.port.toNat * 2 ^ 22 + r.home.toNat * 2 ^ 16 + r.cfg.toNat) ++
  leB 4 (r.lastFseq.toNat * 65536 + r.extErr.toNat) ++ leB 8 r.lastInst ++ leB 8 r.lastArr ++ leB 4 r.inkEp.toNat ++
  leB 4 r.frames.toNat ++ (List.range 5).flatMap (fun c => leB 4 (r.drops.getD c 0).toNat) ++ leB 4 (r.chkErr.toNat * 65536)

/-- A byte at an address as BAR2 reads it: in reserved SRAM the routing partition, at 64 bytes an entry, the die being
FLEET_ID[3:0]; the rest of reserved SRAM has no layout in the spec (assumption log 16). -/
def Pz.memByte (z : Pz) (a : Nat) : Byte :=
  if reservedSram a then
    let d := sramDie a
    let o := a - dieBase d
    if o < 4 * 1048576 then (tget z.routes (o / 64 * 16 + d)).bytes.getD (o % 64) 0 else Config.reservedByte a
  else tget z.mem a

/-- Whether a window is of the secure half (R382, R418). -/
def Pz.winSecure (z : Pz) (w : Nat) : Bool := decide (16 ≤ w) && !z.flag PzR.SEC_VIEW_ALIAS_OFF

/-- What Table 19.5 makes of a code word: read, or the counter that it counts in. -/
inductive B2Way where
  | unmapped
  | hole
  | hidden
  | prot
  | pass
deriving DecidableEq, Repr

/-- Table 19.5 for the code word at Jarend address `32 * w`, through window `win`. -/
def Pz.b2Way (z : Pz) (win w : Nat) (write : Bool) : B2Way :=
  let r := (z.reg (0x10800 + 4 * win)).toNat
  let a := 32 * w
  if !bit r 31 then .unmapped
  else if !z.exists? a then .hole
  else if !z.winSecure win && z.inSecure a 32 then .hidden
  else if write && (!bit r 30 || reservedSram a || z.inModel a 32) then .prot
  else .pass

/-- The count that an outcome makes. -/
def Pz.b2Count (way : B2Way) (z : Pz) : Pz :=
  match way with
  | .unmapped => z.addSat PzR.B2_STAT_UNMAPPED 1
  | .hole => z.addSat PzR.B2_STAT_HOLE 1
  | .hidden => z.violate 15
  | .prot => z.addSat PzR.B2_STAT_PROT 1
  | .pass => z

/-- The Jarend address of a BAR2 offset: BASE of its window and the offset in it. -/
def Pz.b2Addr (z : Pz) (off : Nat) : Nat :=
  (z.reg (0x10800 + 4 * (off / 2 ^ 24))).toNat % 2 ^ 17 * 2 ^ 24 + off % 2 ^ 24

/-- Whether a request is one that PCIe makes: not empty, within 4 KiB (R418). -/
def b2Legal (off n : Nat) : Bool := decide (0 < n ∧ off % 4096 + n ≤ 4096)

/-- Bytes of one code word as a read returns them: zeros where it is not read; an uncorrectable word, of which the spec
states no data here, counts and returns free bytes (R389, assumption log 27). -/
def Pz.b2Word (z : Pz) (win w : Nat) : List Byte :=
  if z.b2Way win w false ≠ .pass then List.replicate 32 0
  else if z.hl.bad.any (· == w) then (List.range 32).map (fun i => Config.reservedByte (2 ^ 49 + 32 * w + i))
  else (List.range 32).map (fun i => z.memByte (32 * w + i))

/-- What a read of one code word counts, raises and records. -/
def Pz.b2Note (win w : Nat) (z : Pz) : Pz :=
  if z.b2Way win w false = .pass then (if z.hl.bad.any (· == w) then z.uncorrAt w else z)
  else z.b2Count (z.b2Way win w false)

/-- BAR2_READ (R418, R419). -/
def Pz.b2Read (off n : Nat) (z : Pz) : Pz :=
  let port : Port := { ns := false, src := 0, size := 2, side := false }
  if !z.answers port || !b2Legal off n then { z with b2data := List.replicate n 0 }
  else
    let win := off / 2 ^ 24
    let a := z.b2Addr off
    let ws := wordsOf a n
    let bytes := slice (ws.flatMap (z.b2Word win)) (a % 32) n
    { ws.foldl (fun (z : Pz) w => z.b2Note win w) z with b2data := bytes }

/-- BAR2_READ. -/
def execBar2Read (off : BitVec 29) (len : BitVec 13) (s : State) : Host.Outcome State Fault Refusal :=
  .next (s.onPz (Pz.b2Read off.toNat len.toNat))

/-- BAR2_WRITE (R418, R419): each code word on its own. -/
def Pz.b2Write (off : Nat) (data : List Byte) (z : Pz) : Pz :=
  let port : Port := { ns := false, src := 0, size := 2, side := false }
  if !z.answers port || !b2Legal off data.length then z
  else
    let win := off / 2 ^ 24
    let a := z.b2Addr off
    (wordsOf a data.length).foldl (fun z w =>
      let way := z.b2Way win w true
      let lo := max a (32 * w)
      let hi := min (a + data.length) (32 * w + 32)
      if way = .pass then z.write lo ((data.drop (lo - a)).take (hi - lo)) else z.b2Count way) z

/-- BAR2_WRITE. -/
def execBar2Write (off : BitVec 29) (data : List Byte) (s : State) : Host.Outcome State Fault Refusal :=
  .next (s.onPz (Pz.b2Write off.toNat data))

/-! ## Register accesses over I3C (R403) -/

/-- How the sideband reaches a register: a whole word, secure. -/
def Port.sideband : Port := { ns := false, src := 0, size := 2, side := true }

/-- Base dies that hold a block's registers: of stations, dies and ports their own, of mailboxes, rings and interrupts die
15, of the rest the keepers (DESIGN CHOICE, assumption log 27). -/
def blockDie (off : Nat) : Option Nat :=
  if 0x10100 ≤ off ∧ off < 0x10140 then some ((off - 0x10100) / 4)
  else if 0x10310 ≤ off ∧ off < 0x10350 then some ((off - 0x10310) / 4)
  else if 0x10350 ≤ off ∧ off < 0x103B0 then some ((off - 0x10350) / 8)
  else if 0x20000 ≤ off ∧ off < 0x30000 then some ((off - 0x20000) / 0x1000)
  else if 0x30100 ≤ off ∧ off < 0x30140 then some ((off - 0x30100) / 4)
  else if 0x50400 ≤ off ∧ off < 0x50500 then some ((off - 0x50400) / 16)
  else if 0x50800 ≤ off ∧ off < 0x50890 then some (portDie ((off - 0x50800) / 8))
  else if (0x60000 ≤ off ∧ off < 0x80000) ∨ (0xC0000 ≤ off ∧ off < 0xD0000) then some 15
  else none

/-- Whether the block answers: its die is powered and in service. -/
def Pz.blockUp (z : Pz) (off : Nat) : Bool := match blockDie off with
  | none => true
  | some d => z.runs && z.dieOk d

/-- I3C_REGISTER_READ: four bytes and a status. -/
def Pz.i3cRead (addr : Word) (free : DWord) (z : Pz) : Pz :=
  if z.step < 3 then z
  else if 0x4000000 ≤ addr.toNat then z.emit (.i3c (leB 4 0 ++ [1]))
  else if !z.blockUp (addr.toNat % 2 ^ 25) then z.emit (.i3c (leB 4 0 ++ [2]))
  else
    let z := z.portRead Port.sideband (addr.setWidth 26) free
    z.emit (.i3c (leB 4 z.rdata.toNat ++ [0]))

/-- I3C_REGISTER_READ. -/
def execI3cRegisterRead (addr : Word) (s : State) : Host.Outcome State Fault Refusal :=
  .next { s.onPz (Pz.i3cRead addr (Config.freeWord s.freeCtr)) with freeCtr := s.freeCtr + 1 }

/-- I3C_REGISTER_WRITE. -/
def Pz.i3cWrite (addr data : Word) (z : Pz) : Pz :=
  if z.step < 3 ∨ 0x4000000 ≤ addr.toNat ∨ !z.blockUp (addr.toNat % 2 ^ 25) then z
  else z.portWrite0 Port.sideband (addr.setWidth 26) data

/-- I3C_REGISTER_WRITE. -/
def execI3cRegisterWrite (addr data : Word) (s : State) : Host.Outcome State Fault Refusal :=
  .next (s.onPz (Pz.i3cWrite addr data))

/-! ## Patrol scrub of Polornaz (R387 to R392) -/

/-- What a scrub read makes of the word at Jarend address `32 * w` with its 36 stored bytes. `par`: the write-back of a
corrected word fails its parity, so that the word is stored uncorrectable (R390); a DRAM channel's die counts it. -/
def Pz.scrubWord (w : Nat) (raw : List Byte) (par : Bool) (z : Pz) : Pz :=
  let a := 32 * w
  if !z.exists? a then z
  else
    let good : Pz → Pz := fun z => { z with hl := { z.hl with bad := z.hl.bad.filter (· != w) } }
    match symDecode w raw with
    | .clean => good z
    | .corrected _ _ =>
      let z' := if inDram a then (good z).addSat (PzR.EC_DRAM_CE.at (4 * z.chanOf a)) 1
        else (good z).addSat (PzR.EC_DIE_CE.at (4 * sramDie a)) 1
      if par then Pz.parity (if inDram a then z.chanOf a / 2 else sramDie a) a 1
        { z' with hl := { z'.hl with bad := w :: z'.hl.bad } }
      else z'
    | .uncorrectable => Pz.uncorrMem w true { z with hl := { z.hl with bad := w :: z.hl.bad.filter (· != w) } }

/-- The next SRAM word: the end of a pass counts, and the period written last takes effect. -/
def Pz.scrubSram (raw : List Byte) (par : Bool) (z : Pz) : Pz :=
  let i := z.hl.sram
  let z := z.scrubWord i raw par
  if i + 1 < 2 ^ 29 then { z with hl := { z.hl with sram := i + 1 } }
  else ({ z with hl := { z.hl with sram := 0, sramH := z.fld PzR.EC_CTL_SRAM_H } }).addMod PzR.EC_PASS_SRAM 1

/-- The next DRAM word. -/
def Pz.scrubDram (raw : List Byte) (par : Bool) (z : Pz) : Pz :=
  let i := z.hl.dram
  let z := z.scrubWord (dramBase / 32 + i) raw par
  if i + 1 < z.dramSize / 32 then { z with hl := { z.hl with dram := i + 1 } }
  else if z.dramSize = 0 then z
  else ({ z with hl := { z.hl with dram := 0, dramH := z.fld PzR.EC_CTL_DRAM_H } }).addMod PzR.EC_PASS_DRAM 1

/-- SCRUB_READ (R391): the next word of the pass, whose 36 stored bytes the operand gives. -/
def execScrubRead (w : ScrubWord) (raw : List Byte) (par : Bool) (s : State) : Host.Outcome State Fault Refusal :=
  .next (match w with
    | .leaf a => s.onLeaf (Leaf.scrub a raw par)
    | .sram => s.onPz (Pz.scrubSram raw par)
    | .dram => s.onPz (Pz.scrubDram raw par))

end Sys2Proof.Machine
end

