-- ==== Sys2Proof/Machine/Dispatch.lean ====
section
/-!
DEFINITION. Sys2Proof/Machine/Dispatch.lean: one arm per command.
-/

namespace Sys2Proof.Machine

/-- The effect of a command on everything but the queue. -/
def exec (i : Instr) (s : State) : Host.Outcome State Fault Refusal :=
  match i with
  | .add x0 x1 => Sys2Proof.Machine.execAdd x0 x1 s
  | .sub x0 x1 => Sys2Proof.Machine.execSub x0 x1 s
  | .and x0 x1 => Sys2Proof.Machine.execAnd x0 x1 s
  | .or x0 x1 => Sys2Proof.Machine.execOr x0 x1 s
  | .xor x0 x1 => Sys2Proof.Machine.execXor x0 x1 s
  | .shl x0 x1 => Sys2Proof.Machine.execShl x0 x1 s
  | .shr x0 x1 => Sys2Proof.Machine.execShr x0 x1 s
  | .sra x0 x1 => Sys2Proof.Machine.execSra x0 x1 s
  | .mul x0 x1 => Sys2Proof.Machine.execMul x0 x1 s
  | .mulh x0 x1 => Sys2Proof.Machine.execMulh x0 x1 s
  | .mulhu x0 x1 => Sys2Proof.Machine.execMulhu x0 x1 s
  | .min x0 x1 => Sys2Proof.Machine.execMin x0 x1 s
  | .max x0 x1 => Sys2Proof.Machine.execMax x0 x1 s
  | .minu x0 x1 => Sys2Proof.Machine.execMinu x0 x1 s
  | .maxu x0 x1 => Sys2Proof.Machine.execMaxu x0 x1 s
  | .slt x0 x1 => Sys2Proof.Machine.execSlt x0 x1 s
  | .sltu x0 x1 => Sys2Proof.Machine.execSltu x0 x1 s
  | .seq x0 x1 => Sys2Proof.Machine.execSeq x0 x1 s
  | .addi x0 x1 => Sys2Proof.Machine.execAddi x0 x1 s
  | .andi x0 x1 => Sys2Proof.Machine.execAndi x0 x1 s
  | .ori x0 x1 => Sys2Proof.Machine.execOri x0 x1 s
  | .xori x0 x1 => Sys2Proof.Machine.execXori x0 x1 s
  | .shli x0 x1 => Sys2Proof.Machine.execShli x0 x1 s
  | .shri x0 x1 => Sys2Proof.Machine.execShri x0 x1 s
  | .srai x0 x1 => Sys2Proof.Machine.execSrai x0 x1 s
  | .lui x0 x1 => Sys2Proof.Machine.execLui x0 x1 s
  | .ldB x0 x1 => Sys2Proof.Machine.execLdB x0 x1 s
  | .ldH x0 x1 => Sys2Proof.Machine.execLdH x0 x1 s
  | .ldW x0 x1 => Sys2Proof.Machine.execLdW x0 x1 s
  | .ldD x0 x1 => Sys2Proof.Machine.execLdD x0 x1 s
  | .stB x0 x1 => Sys2Proof.Machine.execStB x0 x1 s
  | .stH x0 x1 => Sys2Proof.Machine.execStH x0 x1 s
  | .stW x0 x1 => Sys2Proof.Machine.execStW x0 x1 s
  | .stD x0 x1 => Sys2Proof.Machine.execStD x0 x1 s
  | .amoAdd x0 x1 => Sys2Proof.Machine.execAmoAdd x0 x1 s
  | .amoMin x0 x1 => Sys2Proof.Machine.execAmoMin x0 x1 s
  | .amoMax x0 x1 => Sys2Proof.Machine.execAmoMax x0 x1 s
  | .amoMinu x0 x1 => Sys2Proof.Machine.execAmoMinu x0 x1 s
  | .amoMaxu x0 x1 => Sys2Proof.Machine.execAmoMaxu x0 x1 s
  | .amoSwap x0 x1 => Sys2Proof.Machine.execAmoSwap x0 x1 s
  | .amoCas x0 x1 => Sys2Proof.Machine.execAmoCas x0 x1 s
  | .fence x0 x1 => Sys2Proof.Machine.execFence x0 x1 s
  | .beq x0 x1 => Sys2Proof.Machine.execBeq x0 x1 s
  | .bne x0 x1 => Sys2Proof.Machine.execBne x0 x1 s
  | .blt x0 x1 => Sys2Proof.Machine.execBlt x0 x1 s
  | .bge x0 x1 => Sys2Proof.Machine.execBge x0 x1 s
  | .bltu x0 x1 => Sys2Proof.Machine.execBltu x0 x1 s
  | .bgeu x0 x1 => Sys2Proof.Machine.execBgeu x0 x1 s
  | .jal x0 x1 => Sys2Proof.Machine.execJal x0 x1 s
  | .jr x0 x1 => Sys2Proof.Machine.execJr x0 x1 s
  | .keyF32 x0 x1 => Sys2Proof.Machine.execKeyF32 x0 x1 s
  | .keyF16 x0 x1 => Sys2Proof.Machine.execKeyF16 x0 x1 s
  | .keyBf16 x0 x1 => Sys2Proof.Machine.execKeyBf16 x0 x1 s
  | .keyS32 x0 x1 => Sys2Proof.Machine.execKeyS32 x0 x1 s
  | .keyU32 x0 x1 => Sys2Proof.Machine.execKeyU32 x0 x1 s
  | .unkeyF32 x0 x1 => Sys2Proof.Machine.execUnkeyF32 x0 x1 s
  | .unkeyS32 x0 x1 => Sys2Proof.Machine.execUnkeyS32 x0 x1 s
  | .capCnt x0 x1 => Sys2Proof.Machine.execCapCnt x0 x1 s
  | .capStart x0 x1 => Sys2Proof.Machine.execCapStart x0 x1 s
  | .capEnd x0 x1 => Sys2Proof.Machine.execCapEnd x0 x1 s
  | .capStrm x0 x1 => Sys2Proof.Machine.execCapStrm x0 x1 s
  | .capVal x0 x1 => Sys2Proof.Machine.execCapVal x0 x1 s
  | .capVtag x0 x1 => Sys2Proof.Machine.execCapVtag x0 x1 s
  | .capFresh x0 x1 => Sys2Proof.Machine.execCapFresh x0 x1 s
  | .capUpd x0 x1 => Sys2Proof.Machine.execCapUpd x0 x1 s
  | .capTagerr x0 x1 => Sys2Proof.Machine.execCapTagerr x0 x1 s
  | .fldW x0 x1 => Sys2Proof.Machine.execFldW x0 x1 s
  | .fldInv x0 x1 => Sys2Proof.Machine.execFldInv x0 x1 s
  | .fldRd x0 x1 => Sys2Proof.Machine.execFldRd x0 x1 s
  | .redAdd x0 x1 => Sys2Proof.Machine.execRedAdd x0 x1 s
  | .treeLocal x0 x1 => Sys2Proof.Machine.execTreeLocal x0 x1 s
  | .treeLaunch x0 x1 => Sys2Proof.Machine.execTreeLaunch x0 x1 s
  | .treeWait x0 x1 => Sys2Proof.Machine.execTreeWait x0 x1 s
  | .treeSum x0 x1 => Sys2Proof.Machine.execTreeSum x0 x1 s
  | .emitAlarm x0 x1 => Sys2Proof.Machine.execEmitAlarm x0 x1 s
  | .emitVerdict x0 x1 => Sys2Proof.Machine.execEmitVerdict x0 x1 s
  | .emitAdv x0 x1 => Sys2Proof.Machine.execEmitAdv x0 x1 s
  | .emitTrace x0 x1 => Sys2Proof.Machine.execEmitTrace x0 x1 s
  | .emitReply x0 x1 => Sys2Proof.Machine.execEmitReply x0 x1 s
  | .finish x0 x1 => Sys2Proof.Machine.execFinish x0 x1 s
  | .csrr x0 x1 => Sys2Proof.Machine.execCsrr x0 x1 s
  | .csrw x0 x1 => Sys2Proof.Machine.execCsrw x0 x1 s
  | .epCmp x0 x1 => Sys2Proof.Machine.execEpCmp x0 x1 s
  | .epWait x0 x1 => Sys2Proof.Machine.execEpWait x0 x1 s
  | .epCfgcmp x0 x1 => Sys2Proof.Machine.execEpCfgcmp x0 x1 s
  | .vadd x0 x1 => Sys2Proof.Machine.execVadd x0 x1 s
  | .vsub x0 x1 => Sys2Proof.Machine.execVsub x0 x1 s
  | .vmul x0 x1 => Sys2Proof.Machine.execVmul x0 x1 s
  | .vmin x0 x1 => Sys2Proof.Machine.execVmin x0 x1 s
  | .vmax x0 x1 => Sys2Proof.Machine.execVmax x0 x1 s
  | .vminu x0 x1 => Sys2Proof.Machine.execVminu x0 x1 s
  | .vmaxu x0 x1 => Sys2Proof.Machine.execVmaxu x0 x1 s
  | .vand x0 x1 => Sys2Proof.Machine.execVand x0 x1 s
  | .vor x0 x1 => Sys2Proof.Machine.execVor x0 x1 s
  | .vxor x0 x1 => Sys2Proof.Machine.execVxor x0 x1 s
  | .vshl x0 x1 => Sys2Proof.Machine.execVshl x0 x1 s
  | .vshr x0 x1 => Sys2Proof.Machine.execVshr x0 x1 s
  | .vsra x0 x1 => Sys2Proof.Machine.execVsra x0 x1 s
  | .vfadd x0 x1 => Sys2Proof.Machine.execVfadd x0 x1 s
  | .vfmul x0 x1 => Sys2Proof.Machine.execVfmul x0 x1 s
  | .vcmpEq x0 x1 => Sys2Proof.Machine.execVcmpEq x0 x1 s
  | .vcmpLt x0 x1 => Sys2Proof.Machine.execVcmpLt x0 x1 s
  | .vcmpLtu x0 x1 => Sys2Proof.Machine.execVcmpLtu x0 x1 s
  | .vcmpGe x0 x1 => Sys2Proof.Machine.execVcmpGe x0 x1 s
  | .vcmpGeu x0 x1 => Sys2Proof.Machine.execVcmpGeu x0 x1 s
  | .vld x0 x1 => Sys2Proof.Machine.execVld x0 x1 s
  | .vst x0 x1 => Sys2Proof.Machine.execVst x0 x1 s
  | .vredSum x0 x1 => Sys2Proof.Machine.execVredSum x0 x1 s
  | .vredMin x0 x1 => Sys2Proof.Machine.execVredMin x0 x1 s
  | .vredMax x0 x1 => Sys2Proof.Machine.execVredMax x0 x1 s
  | .vredMinu x0 x1 => Sys2Proof.Machine.execVredMinu x0 x1 s
  | .vredMaxu x0 x1 => Sys2Proof.Machine.execVredMaxu x0 x1 s
  | .vredCnt x0 x1 => Sys2Proof.Machine.execVredCnt x0 x1 s
  | .vkeyF32 x0 x1 => Sys2Proof.Machine.execVkeyF32 x0 x1 s
  | .vkeyF16 x0 x1 => Sys2Proof.Machine.execVkeyF16 x0 x1 s
  | .vkeyBf16 x0 x1 => Sys2Proof.Machine.execVkeyBf16 x0 x1 s
  | .vkeyS32 x0 x1 => Sys2Proof.Machine.execVkeyS32 x0 x1 s
  | .vkeyU32 x0 x1 => Sys2Proof.Machine.execVkeyU32 x0 x1 s
  | .vsplat x0 x1 => Sys2Proof.Machine.execVsplat x0 x1 s
  | .vins x0 x1 => Sys2Proof.Machine.execVins x0 x1 s
  | .vext x0 x1 => Sys2Proof.Machine.execVext x0 x1 s
  | .vmov x0 x1 => Sys2Proof.Machine.execVmov x0 x1 s
  | .statMed x0 x1 => Sys2Proof.Machine.execStatMed x0 x1 s
  | .statMad x0 x1 => Sys2Proof.Machine.execStatMad x0 x1 s
  | .statQsAdd x0 x1 => Sys2Proof.Machine.execStatQsAdd x0 x1 s
  | .statQsQ x0 x1 => Sys2Proof.Machine.execStatQsQ x0 x1 s
  | .statEwma x0 x1 => Sys2Proof.Machine.execStatEwma x0 x1 s
  | .strPop x0 x1 => Sys2Proof.Machine.execStrPop x0 x1 s
  | .strPeek x0 x1 => Sys2Proof.Machine.execStrPeek x0 x1 s
  | .strSkip x0 x1 => Sys2Proof.Machine.execStrSkip x0 x1 s
  | .strLen x0 x1 => Sys2Proof.Machine.execStrLen x0 x1 s
  | .strPush x0 x1 => Sys2Proof.Machine.execStrPush x0 x1 s
  | .dgLd x0 x1 => Sys2Proof.Machine.execDgLd x0 x1 s
  | .dgDiff x0 x1 => Sys2Proof.Machine.execDgDiff x0 x1 s
  | .dgTol x0 x1 => Sys2Proof.Machine.execDgTol x0 x1 s
  | .rdxAdd x0 x1 => Sys2Proof.Machine.execRdxAdd x0 x1 s
  | .rdxMin x0 x1 => Sys2Proof.Machine.execRdxMin x0 x1 s
  | .rdxMax x0 x1 => Sys2Proof.Machine.execRdxMax x0 x1 s
  | .rdxClose x0 x1 => Sys2Proof.Machine.execRdxClose x0 x1 s
  | .leafPowerOnReset => Sys2Proof.Machine.execLeafPowerOnReset s
  | .leafPowerUp => Sys2Proof.Machine.execLeafPowerUp s
  | .warmReset x0 x1 => Sys2Proof.Machine.execWarmReset x0 x1 s
  | .supplyMonitorReset => Sys2Proof.Machine.execSupplyMonitorReset s
  | .hostIsoChange x0 => Sys2Proof.Machine.execHostIsoChange x0 s
  | .refclkLost => Sys2Proof.Machine.execRefclkLost s
  | .reffreqWrite x0 x1 => Sys2Proof.Machine.execReffreqWrite x0 x1 s
  | .fallbackCalibrate x0 => Sys2Proof.Machine.execFallbackCalibrate x0 s
  | .periodicItem x0 x1 => Sys2Proof.Machine.execPeriodicItem x0 x1 s
  | .strobeItem x0 x1 x2 => Sys2Proof.Machine.execStrobeItem x0 x1 x2 s
  | .markerItem x0 x1 x2 => Sys2Proof.Machine.execMarkerItem x0 x1 x2 s
  | .markerHoldRelease x0 => Sys2Proof.Machine.execMarkerHoldRelease x0 s
  | .coreApplyItem x0 => Sys2Proof.Machine.execCoreApplyItem x0 s
  | .evStopReq x0 x1 x2 => Sys2Proof.Machine.execEvStopReq x0 x1 x2 s
  | .evStopAck x0 x1 => Sys2Proof.Machine.execEvStopAck x0 x1 s
  | .evStopRelease x0 => Sys2Proof.Machine.execEvStopRelease x0 s
  | .markerTimeout x0 => Sys2Proof.Machine.execMarkerTimeout x0 s
  | .controlWriteTimeout x0 => Sys2Proof.Machine.execControlWriteTimeout x0 s
  | .cgControlWrite x0 x1 x2 x3 => Sys2Proof.Machine.execCgControlWrite x0 x1 x2 x3 s
  | .cgClear x0 x1 x2 => Sys2Proof.Machine.execCgClear x0 x1 x2 s
  | .cgBind x0 x1 x2 => Sys2Proof.Machine.execCgBind x0 x1 x2 s
  | .splitValueLowRead x0 x1 x2 => Sys2Proof.Machine.execSplitValueLowRead x0 x1 x2 s
  | .registerWrite x0 x1 x2 x3 => Sys2Proof.Machine.execRegisterWrite x0 x1 x2 x3 s
  | .valuePortHandshake x0 x1 x2 => Sys2Proof.Machine.execValuePortHandshake x0 x1 x2 s
  | .digestBeat x0 x1 x2 x3 x4 x5 => Sys2Proof.Machine.execDigestBeat x0 x1 x2 x3 x4 x5 s
  | .digestEngineBeat x0 => Sys2Proof.Machine.execDigestEngineBeat x0 s
  | .testGrantIn x0 x1 => Sys2Proof.Machine.execTestGrantIn x0 x1 s
  | .testDone x0 x1 => Sys2Proof.Machine.execTestDone x0 x1 s
  | .testRefuse x0 x1 => Sys2Proof.Machine.execTestRefuse x0 x1 s
  | .testResendIn x0 x1 => Sys2Proof.Machine.execTestResendIn x0 x1 s
  | .testDue x0 => Sys2Proof.Machine.execTestDue x0 s
  | .testOverdue x0 => Sys2Proof.Machine.execTestOverdue x0 s
  | .testLateAdvisory x0 => Sys2Proof.Machine.execTestLateAdvisory x0 s
  | .testRoundTimeout x0 => Sys2Proof.Machine.execTestRoundTimeout x0 s
  | .heartbeatBeat => Sys2Proof.Machine.execHeartbeatBeat s
  | .heartbeatExpiry => Sys2Proof.Machine.execHeartbeatExpiry s
  | .irqIdleRise x0 x1 => Sys2Proof.Machine.execIrqIdleRise x0 x1 s
  | .holdoffExpiry x0 => Sys2Proof.Machine.execHoldoffExpiry x0 s
  | .irqClaim x0 x1 => Sys2Proof.Machine.execIrqClaim x0 x1 s
  | .irqEoi x0 x1 x2 => Sys2Proof.Machine.execIrqEoi x0 x1 x2 s
  | .uplinkCellStart x0 => Sys2Proof.Machine.execUplinkCellStart x0 s
  | .ulShpWrite x0 x1 x2 => Sys2Proof.Machine.execUlShpWrite x0 x1 x2 s
  | .ulOvhWrite x0 x1 => Sys2Proof.Machine.execUlOvhWrite x0 x1 s
  | .alarmCredit => Sys2Proof.Machine.execAlarmCredit s
  | .forwardCell x0 => Sys2Proof.Machine.execForwardCell x0 s
  | .timeCellRx x0 => Sys2Proof.Machine.execTimeCellRx x0 s
  | .phaseStep => Sys2Proof.Machine.execPhaseStep s
  | .holdExpiry => Sys2Proof.Machine.execHoldExpiry s
  | .sourceTimeout x0 => Sys2Proof.Machine.execSourceTimeout x0 s
  | .frameInstant => Sys2Proof.Machine.execFrameInstant s
  | .inklineTime => Sys2Proof.Machine.execInklineTime s
  | .captureWindowOpen => Sys2Proof.Machine.execCaptureWindowOpen s
  | .windowDeadline => Sys2Proof.Machine.execWindowDeadline s
  | .frameClose => Sys2Proof.Machine.execFrameClose s
  | .armGo x0 x1 => Sys2Proof.Machine.execArmGo x0 x1 s
  | .armCheckDone => Sys2Proof.Machine.execArmCheckDone s
  | .programWindowWrite x0 x1 x2 => Sys2Proof.Machine.execProgramWindowWrite x0 x1 x2 s
  | .sliceWrite x0 x1 x2 => Sys2Proof.Machine.execSliceWrite x0 x1 x2 s
  | .lmDirWrite x0 x1 x2 => Sys2Proof.Machine.execLmDirWrite x0 x1 x2 s
  | .lmCheckDone x0 => Sys2Proof.Machine.execLmCheckDone x0 s
  | .lmCtlWrite x0 x1 x2 => Sys2Proof.Machine.execLmCtlWrite x0 x1 x2 s
  | .reedStall x0 x1 => Sys2Proof.Machine.execReedStall x0 x1 s
  | .reedTrainRetry x0 => Sys2Proof.Machine.execReedTrainRetry x0 s
  | .reedHello x0 x1 x2 => Sys2Proof.Machine.execReedHello x0 x1 x2 s
  | .reedHop x0 x1 x2 x3 x4 x5 => Sys2Proof.Machine.execReedHop x0 x1 x2 x3 x4 x5 s
  | .reedTick x0 x1 x2 x3 x4 x5 => Sys2Proof.Machine.execReedTick x0 x1 x2 x3 x4 x5 s
  | .tickSend => Sys2Proof.Machine.execTickSend s
  | .routeTimeout x0 => Sys2Proof.Machine.execRouteTimeout x0 s
  | .masterLoss => Sys2Proof.Machine.execMasterLoss s
  | .reedElect x0 x1 x2 => Sys2Proof.Machine.execReedElect x0 x1 x2 s
  | .electionSettle => Sys2Proof.Machine.execElectionSettle s
  | .reedState x0 x1 x2 => Sys2Proof.Machine.execReedState x0 x1 x2 s
  | .reedAbdicate x0 x1 x2 => Sys2Proof.Machine.execReedAbdicate x0 x1 x2 s
  | .abdicateWrite x0 x1 => Sys2Proof.Machine.execAbdicateWrite x0 x1 s
  | .uplinkStallAbdicate => Sys2Proof.Machine.execUplinkStallAbdicate s
  | .abdicateTimeout => Sys2Proof.Machine.execAbdicateTimeout s
  | .reedReport x0 x1 x2 => Sys2Proof.Machine.execReedReport x0 x1 x2 s
  | .reportSend => Sys2Proof.Machine.execReportSend s
  | .reedInk x0 x1 x2 => Sys2Proof.Machine.execReedInk x0 x1 x2 s
  | .inkGo x0 x1 => Sys2Proof.Machine.execInkGo x0 x1 s
  | .reedFlush x0 x1 x2 => Sys2Proof.Machine.execReedFlush x0 x1 x2 s
  | .reedFlushSend x0 => Sys2Proof.Machine.execReedFlushSend x0 s
  | .cutTimeout => Sys2Proof.Machine.execCutTimeout s
  | .reedAlarm x0 x1 x2 => Sys2Proof.Machine.execReedAlarm x0 x1 x2 s
  | .reedWave x0 x1 x2 => Sys2Proof.Machine.execReedWave x0 x1 x2 s
  | .registrationTimer => Sys2Proof.Machine.execRegistrationTimer s
  | .peatLogWrite x0 x1 x2 x3 => Sys2Proof.Machine.execPeatLogWrite x0 x1 x2 x3 s
  | .iwCursorWrite x0 x1 x2 => Sys2Proof.Machine.execIwCursorWrite x0 x1 x2 s
  | .iwNext x0 x1 x2 => Sys2Proof.Machine.execIwNext x0 x1 x2 s
  | .iwDump x0 x1 => Sys2Proof.Machine.execIwDump x0 x1 s
  | .historyDumpMessage => Sys2Proof.Machine.execHistoryDumpMessage s
  | .scrubRead x0 x1 x2 => Sys2Proof.Machine.execScrubRead x0 x1 x2 s
  | .ctlWrite x0 x1 => Sys2Proof.Machine.execCtlWrite x0 x1 s
  | .ctlArm x0 x1 x2 x3 x4 => Sys2Proof.Machine.execCtlArm x0 x1 x2 x3 x4 s
  | .ctlInk x0 x1 x2 => Sys2Proof.Machine.execCtlInk x0 x1 x2 s
  | .ctlLease x0 x1 x2 x3 x4 => Sys2Proof.Machine.execCtlLease x0 x1 x2 x3 x4 s
  | .ctlAssign x0 x1 x2 x3 => Sys2Proof.Machine.execCtlAssign x0 x1 x2 x3 s
  | .ctlTeardown x0 x1 x2 => Sys2Proof.Machine.execCtlTeardown x0 x1 x2 s
  | .ctlSubmaster x0 x1 => Sys2Proof.Machine.execCtlSubmaster x0 x1 s
  | .ctlKeepalive x0 x1 x2 x3 => Sys2Proof.Machine.execCtlKeepalive x0 x1 x2 x3 s
  | .ctlReparent x0 x1 x2 x3 x4 => Sys2Proof.Machine.execCtlReparent x0 x1 x2 x3 x4 s
  | .ctlRelay x0 x1 x2 => Sys2Proof.Machine.execCtlRelay x0 x1 x2 s
  | .ctlEpoch x0 x1 x2 x3 => Sys2Proof.Machine.execCtlEpoch x0 x1 x2 x3 s
  | .ctlTcut x0 x1 x2 x3 x4 x5 => Sys2Proof.Machine.execCtlTcut x0 x1 x2 x3 x4 x5 s
  | .ctlPrepare x0 x1 x2 => Sys2Proof.Machine.execCtlPrepare x0 x1 x2 s
  | .ctlAlmack x0 x1 x2 => Sys2Proof.Machine.execCtlAlmack x0 x1 x2 s
  | .ctlTgrant x0 x1 x2 x3 x4 => Sys2Proof.Machine.execCtlTgrant x0 x1 x2 x3 x4 s
  | .configAckRx x0 x1 => Sys2Proof.Machine.execConfigAckRx x0 x1 s
  | .configRepeat x0 x1 x2 => Sys2Proof.Machine.execConfigRepeat x0 x1 x2 s
  | .keepaliveSend => Sys2Proof.Machine.execKeepaliveSend s
  | .parentTimeout => Sys2Proof.Machine.execParentTimeout s
  | .childTimeout x0 => Sys2Proof.Machine.execChildTimeout x0 s
  | .almackTimeout => Sys2Proof.Machine.execAlmackTimeout s
  | .u0LinkFault => Sys2Proof.Machine.execU0LinkFault s
  | .reparentTimeout => Sys2Proof.Machine.execReparentTimeout s
  | .reparentRetry => Sys2Proof.Machine.execReparentRetry s
  | .cfReturn x0 x1 => Sys2Proof.Machine.execCfReturn x0 x1 s
  | .submasterPromote x0 => Sys2Proof.Machine.execSubmasterPromote x0 s
  | .prepareTimeout x0 => Sys2Proof.Machine.execPrepareTimeout x0 s
  | .trayCutTimeout x0 => Sys2Proof.Machine.execTrayCutTimeout x0 s
  | .regLeaf x0 => Sys2Proof.Machine.execRegLeaf x0 s
  | .regMemberReport x0 => Sys2Proof.Machine.execRegMemberReport x0 s
  | .regPolornaz x0 => Sys2Proof.Machine.execRegPolornaz x0 s
  | .cellIngress x0 x1 x2 x3 x4 => Sys2Proof.Machine.execCellIngress x0 x1 x2 x3 x4 s
  | .controlAdmit x0 => Sys2Proof.Machine.execControlAdmit x0 s
  | .ingressFrame x0 => Sys2Proof.Machine.execIngressFrame x0 s
  | .ingressReduction x0 => Sys2Proof.Machine.execIngressReduction x0 s
  | .ingressAlarm x0 => Sys2Proof.Machine.execIngressAlarm x0 s
  | .ingressFlush x0 x1 => Sys2Proof.Machine.execIngressFlush x0 x1 s
  | .cutReportRx x0 => Sys2Proof.Machine.execCutReportRx x0 s
  | .traceRecordRx x0 => Sys2Proof.Machine.execTraceRecordRx x0 s
  | .historyDumpRx x0 => Sys2Proof.Machine.execHistoryDumpRx x0 s
  | .snapshotDrainRx x0 => Sys2Proof.Machine.execSnapshotDrainRx x0 s
  | .alarmOutput => Sys2Proof.Machine.execAlarmOutput s
  | .alRptrWrite x0 x1 => Sys2Proof.Machine.execAlRptrWrite x0 x1 s
  | .vdRptrWrite x0 x1 => Sys2Proof.Machine.execVdRptrWrite x0 x1 s
  | .mbRptrWrite x0 x1 => Sys2Proof.Machine.execMbRptrWrite x0 x1 s
  | .livenessEval => Sys2Proof.Machine.execLivenessEval s
  | .livenessProbe x0 => Sys2Proof.Machine.execLivenessProbe x0 s
  | .disagreeTick x0 => Sys2Proof.Machine.execDisagreeTick x0 s
  | .blotterRecord x0 x1 x2 x3 => Sys2Proof.Machine.execBlotterRecord x0 x1 x2 x3 s
  | .blotterTimeout x0 x1 x2 x3 => Sys2Proof.Machine.execBlotterTimeout x0 x1 x2 x3 s
  | .mailboxCommit x0 x1 x2 => Sys2Proof.Machine.execMailboxCommit x0 x1 x2 s
  | .progLoad => Sys2Proof.Machine.execProgLoad s
  | .progEnable => Sys2Proof.Machine.execProgEnable s
  | .progDisable => Sys2Proof.Machine.execProgDisable s
  | .progUnload => Sys2Proof.Machine.execProgUnload s
  | .modelLoad => Sys2Proof.Machine.execModelLoad s
  | .modelLoadDone x0 => Sys2Proof.Machine.execModelLoadDone x0 s
  | .modelUnload => Sys2Proof.Machine.execModelUnload s
  | .stageRegionDone x0 x1 => Sys2Proof.Machine.execStageRegionDone x0 x1 s
  | .groupDecl => Sys2Proof.Machine.execGroupDecl s
  | .configAlloc => Sys2Proof.Machine.execConfigAlloc s
  | .configStart => Sys2Proof.Machine.execConfigStart s
  | .configChange => Sys2Proof.Machine.execConfigChange s
  | .configGrow => Sys2Proof.Machine.execConfigGrow s
  | .configShrink => Sys2Proof.Machine.execConfigShrink s
  | .configTeardown => Sys2Proof.Machine.execConfigTeardown s
  | .configAccept => Sys2Proof.Machine.execConfigAccept s
  | .configCancel => Sys2Proof.Machine.execConfigCancel s
  | .configInkline => Sys2Proof.Machine.execConfigInkline s
  | .configRelease => Sys2Proof.Machine.execConfigRelease s
  | .testGrant => Sys2Proof.Machine.execTestGrant s
  | .noticeFence => Sys2Proof.Machine.execNoticeFence s
  | .noticeUnfence => Sys2Proof.Machine.execNoticeUnfence s
  | .noticeTarget => Sys2Proof.Machine.execNoticeTarget s
  | .noticePrior x0 => Sys2Proof.Machine.execNoticePrior x0 s
  | .noticePhase => Sys2Proof.Machine.execNoticePhase s
  | .progMsg => Sys2Proof.Machine.execProgMsg s
  | .trayInkline => Sys2Proof.Machine.execTrayInkline s
  | .snapshotCopyDone => Sys2Proof.Machine.execSnapshotCopyDone s
  | .leafwaitExpiry => Sys2Proof.Machine.execLeafwaitExpiry s
  | .snapshotDrainDone => Sys2Proof.Machine.execSnapshotDrainDone s
  | .restoreGo x0 x1 => Sys2Proof.Machine.execRestoreGo x0 x1 s
  | .restoreDone => Sys2Proof.Machine.execRestoreDone s
  | .peatStoreWrite x0 x1 x2 x3 x4 => Sys2Proof.Machine.execPeatStoreWrite x0 x1 x2 x3 x4 s
  | .psSave x0 x1 => Sys2Proof.Machine.execPsSave x0 x1 s
  | .saveminExpiry => Sys2Proof.Machine.execSaveminExpiry s
  | .psOosclr x0 x1 => Sys2Proof.Machine.execPsOosclr x0 x1 s
  | .timeCellSend x0 x1 => Sys2Proof.Machine.execTimeCellSend x0 x1 s
  | .ptpSyncRx x0 x1 x2 x3 x4 x5 => Sys2Proof.Machine.execPtpSyncRx x0 x1 x2 x3 x4 x5 s
  | .ptpFollowUpRx x0 x1 x2 x3 x4 => Sys2Proof.Machine.execPtpFollowUpRx x0 x1 x2 x3 x4 s
  | .ptpDelayReqRx x0 x1 x2 x3 x4 => Sys2Proof.Machine.execPtpDelayReqRx x0 x1 x2 x3 x4 s
  | .ptpDelayRespRx x0 x1 x2 x3 x4 => Sys2Proof.Machine.execPtpDelayRespRx x0 x1 x2 x3 x4 s
  | .ptpAnnounceRx x0 x1 x2 => Sys2Proof.Machine.execPtpAnnounceRx x0 x1 x2 s
  | .ptpSyncSend x0 x1 x2 => Sys2Proof.Machine.execPtpSyncSend x0 x1 x2 s
  | .ptpAnnounceSend x0 x1 => Sys2Proof.Machine.execPtpAnnounceSend x0 x1 s
  | .ptpDelayReqSend x0 x1 x2 => Sys2Proof.Machine.execPtpDelayReqSend x0 x1 x2 s
  | .holdoverThreshold => Sys2Proof.Machine.execHoldoverThreshold s
  | .toutPulse x0 => Sys2Proof.Machine.execToutPulse x0 s
  | .toutOneshotWrite x0 x1 x2 x3 => Sys2Proof.Machine.execToutOneshotWrite x0 x1 x2 x3 s
  | .triggerInputEdge x0 x1 x2 => Sys2Proof.Machine.execTriggerInputEdge x0 x1 x2 s
  | .tinDataRead x0 x1 => Sys2Proof.Machine.execTinDataRead x0 x1 s
  | .govStep x0 x1 => Sys2Proof.Machine.execGovStep x0 x1 s
  | .speedMonitor x0 x1 => Sys2Proof.Machine.execSpeedMonitor x0 x1 s
  | .tempSample x0 => Sys2Proof.Machine.execTempSample x0 s
  | .thermTripShutdown => Sys2Proof.Machine.execThermTripShutdown s
  | .ceilStep => Sys2Proof.Machine.execCeilStep s
  | .meshLinkDown x0 x1 x2 => Sys2Proof.Machine.execMeshLinkDown x0 x1 x2 s
  | .stationWatchdog x0 x1 => Sys2Proof.Machine.execStationWatchdog x0 x1 s
  | .stationStall x0 => Sys2Proof.Machine.execStationStall x0 s
  | .arrivalAgeExpiry x0 x1 => Sys2Proof.Machine.execArrivalAgeExpiry x0 x1 s
  | .inklineTrigger x0 x1 x2 x3 => Sys2Proof.Machine.execInklineTrigger x0 x1 x2 x3 s
  | .timeTrigger x0 x1 => Sys2Proof.Machine.execTimeTrigger x0 x1 s
  | .dispatch x0 x1 => Sys2Proof.Machine.execDispatch x0 x1 s
  | .waitComplete x0 x1 => Sys2Proof.Machine.execWaitComplete x0 x1 s
  | .treeResult x0 x1 x2 => Sys2Proof.Machine.execTreeResult x0 x1 x2 s
  | .stationAlarmCredit x0 x1 => Sys2Proof.Machine.execStationAlarmCredit x0 x1 s
  | .bar2Read x0 x1 => Sys2Proof.Machine.execBar2Read x0 x1 s
  | .bar2Write x0 x1 => Sys2Proof.Machine.execBar2Write x0 x1 s
  | .portModeWrite x0 x1 x2 => Sys2Proof.Machine.execPortModeWrite x0 x1 x2 s
  | .linkDrop x0 => Sys2Proof.Machine.execLinkDrop x0 s
  | .linkUp x0 => Sys2Proof.Machine.execLinkUp x0 s
  | .pzPorRise x0 x1 => Sys2Proof.Machine.execPzPorRise x0 x1 s
  | .railPowerGood x0 => Sys2Proof.Machine.execRailPowerGood x0 s
  | .powerUpStepDone x0 x1 x2 => Sys2Proof.Machine.execPowerUpStepDone x0 x1 x2 s
  | .railFault x0 => Sys2Proof.Machine.execRailFault x0 s
  | .pzPorFall => Sys2Proof.Machine.execPzPorFall s
  | .pzWarmReset x0 x1 => Sys2Proof.Machine.execPzWarmReset x0 x1 s
  | .perstAssert => Sys2Proof.Machine.execPerstAssert s
  | .perstRelease => Sys2Proof.Machine.execPerstRelease s
  | .pzRefclkLost => Sys2Proof.Machine.execPzRefclkLost s
  | .pzRefclkReturn => Sys2Proof.Machine.execPzRefclkReturn s
  | .i3cRegisterRead x0 => Sys2Proof.Machine.execI3cRegisterRead x0 s
  | .i3cRegisterWrite x0 x1 => Sys2Proof.Machine.execI3cRegisterWrite x0 x1 s
  | .i3cEntdaa x0 => Sys2Proof.Machine.execI3cEntdaa x0 s
  | .i3cSetdasa x0 x1 => Sys2Proof.Machine.execI3cSetdasa x0 x1 s
  | .i3cSetnewda x0 => Sys2Proof.Machine.execI3cSetnewda x0 s
  | .i3cRstdaa => Sys2Proof.Machine.execI3cRstdaa s
  | .i3cGetpid => Sys2Proof.Machine.execI3cGetpid s
  | .i3cGetbcr => Sys2Proof.Machine.execI3cGetbcr s
  | .i3cGetdcr => Sys2Proof.Machine.execI3cGetdcr s
  | .i3cGetstatus => Sys2Proof.Machine.execI3cGetstatus s
  | .i3cGetmwl => Sys2Proof.Machine.execI3cGetmwl s
  | .i3cGetmrl => Sys2Proof.Machine.execI3cGetmrl s
  | .i3cEnec => Sys2Proof.Machine.execI3cEnec s
  | .i3cDisec => Sys2Proof.Machine.execI3cDisec s
  | .jtagBypass => Sys2Proof.Machine.execJtagBypass s
  | .jtagIdcode => Sys2Proof.Machine.execJtagIdcode s
  | .jtagSamplePreload x0 x1 => Sys2Proof.Machine.execJtagSamplePreload x0 x1 s
  | .jtagExtest => Sys2Proof.Machine.execJtagExtest s
  | .jtagClamp => Sys2Proof.Machine.execJtagClamp s
  | .jtagHighz => Sys2Proof.Machine.execJtagHighz s
  | .refclkRestored => Sys2Proof.Machine.execRefclkRestored s
  | .reedRailError x0 x1 => Sys2Proof.Machine.execReedRailError x0 x1 s
  | .uplinkCellRx x0 => Sys2Proof.Machine.execUplinkCellRx x0 s
  | .rcFieldRead x0 x1 x2 => Sys2Proof.Machine.execRcFieldRead x0 x1 x2 s
  | .ptpAnnounceTimeout x0 x1 => Sys2Proof.Machine.execPtpAnnounceTimeout x0 x1 s
  | .msixHoldoffExpiry x0 => Sys2Proof.Machine.execMsixHoldoffExpiry x0 s
  | .advisoryRx x0 => Sys2Proof.Machine.execAdvisoryRx x0 s
  | .healthUpdateRx x0 x1 => Sys2Proof.Machine.execHealthUpdateRx x0 x1 s
  | .fenceNoticeRx x0 x1 => Sys2Proof.Machine.execFenceNoticeRx x0 x1 s
  | .memberProbeRx x0 => Sys2Proof.Machine.execMemberProbeRx x0 s
  | .pcieLinkChange x0 x1 x2 x3 => Sys2Proof.Machine.execPcieLinkChange x0 x1 x2 x3 s

end Sys2Proof.Machine
end

