-- ==== Sys2Proof/Machine/Step.lean ====
section
/-!
DEFINITION. Sys2Proof/Machine/Step.lean: a step takes the command at the front of the queue.
-/

namespace Sys2Proof.Machine

/-- One nanosecond of the devices' own oscillators in both parts: no row of the table is a tick (DESIGN CHOICE,
assumption log 4). -/
def idle (s : State) : State := (s.onLeaf Leaf.tick).onPz Pz.tick

/-- One step: the front command runs on the state with the queue's rest; an empty queue lets one nanosecond pass
(assumption log 4). -/
def step (s : State) : Host.Outcome State Fault Refusal :=
  match s.pending with
  | [] => .next (idle s)
  | c :: rest => exec c { s with pending := rest }

/-- `s` with the command that the word spells put at the front of its queue. -/
def State.withFetchWord (s : State) (nbits w : Nat) : State :=
  match decodeTableWord nbits w with
  | some c => { s with pending := c :: s.pending }
  | none => s

end Sys2Proof.Machine
end

