-- ==== Sys2Proof/WellFormed.lean ====
section
/-!
DEFINITION. Sys2Proof/WellFormed.lean: which commands are well formed: what the spec says of their operands beyond the
widths that their types carry. A meaning asks for none of it.
-/

namespace Sys2Proof

/-- A port of Polornaz: 0 to 15 downstream, 16 U0, 17 U1 (Table 18.13). -/
def portOk (p : BitVec 5) : Bool := decide (p.toNat < 18)

/-- A rail that Table 18.3 lists: 0 to 6. -/
def railOk (r : BitVec 3) : Bool := decide (r.toNat < 7)

/-- Counts of a front-end (R63): no line was high on more edges than there were, and each line stands once. -/
def countsOk (c : EdgeCounts) : Bool :=
  c.lines.all (fun l => decide (l.2 ≤ c.edges)) && decide ((c.lines.map Prod.fst).Nodup)

/-- Strobes of one edge (Table 2.3): one set of strobes per stream. -/
def strobesOk (s : List Strobe) : Bool := decide ((s.map Strobe.stream).Nodup)

/-- LEN of a cell: 1 to 240 bytes (Table 7.1). -/
def cellOk (c : Cell) : Bool := decide (1 ≤ c.payload.length ∧ c.payload.length ≤ 240)

/-- A wave: 1 to 64 features, one record each (Table 6.2, R143). -/
def waveOk (m : WaveMsg) : Bool := decide (1 ≤ m.recs.length ∧ m.recs.length ≤ 64)

/-- A record of a leaf image stays within what it names (Table 14.7). -/
def recordOk : ImgRec → Bool
  | .write off ws => decide (off.toNat + 4 * ws.length ≤ 65536)
  | .page _ off ws => decide (off.toNat + ws.length ≤ 2048)

/-- Every record of a leaf image. -/
def imageOk (rs : List ImgRec) : Bool := rs.all recordOk

/-- LIST of an acknowledgement: at most 56 fleet IDs (Table 14.4). -/
def ackOk (m : AckMsg) : Bool := decide (m.list.length ≤ 56)

/-- Times of a time cell: 64 bits of ns with a fraction of 1/16 ns (Table 5.2). -/
def timeCellOk (m : TimeCell) : Bool := decide (m.t1 < 2 ^ 68 ∧ m.t4 < 2 ^ 68)

/-- A slot of a command group: 0 to 8 (Table 3.4). -/
def slotOk (n : Option (BitVec 4)) : Bool :=
  match n with
  | some k => decide (k.toNat ≤ 8)
  | none => true

/-- A mesh link joins neighbours in the grid of four by four (R209, R215). -/
def neighbours (a b : BitVec 4) : Bool :=
  let x := a.toNat % 4; let y := a.toNat / 4; let u := b.toNat % 4; let v := b.toNat / 4
  (x == u && (y + 1 == v || v + 1 == y)) || (y == v && (x + 1 == u || u + 1 == x))

/-- A run of bytes that one access to BAR2 may name: at least one byte, within the 512 MiB. -/
def runOk (off len : Nat) : Bool := decide (1 ≤ len ∧ off + len ≤ 2 ^ 29)

/-- Operands of a command. -/
def operandsOk (i : Instr) : Bool :=
  match i with
  | .periodicItem _ c => countsOk c
  | .strobeItem _ c st => countsOk c && strobesOk st
  | .markerItem _ c st => countsOk c && strobesOk st
  | .evStopReq _ c st => countsOk c && strobesOk st
  | .cgControlWrite _ slot _ _ => slotOk slot
  | .forwardCell c => cellOk c
  | .timeCellRx m => timeCellOk m
  | .reedWave _ m _ => waveOk m
  | .scrubRead _ raw _ => raw.length == 36
  | .ctlWrite _ recs => imageOk recs
  | .ctlReparent port _ _ _ _ => portOk port
  | .ctlRelay port _ _ => portOk port
  | .ctlEpoch port _ _ _ => portOk port
  | .ctlTcut port _ _ _ _ _ => portOk port
  | .ctlPrepare port _ _ => portOk port
  | .ctlAlmack port _ _ => portOk port
  | .configAckRx _ m => ackOk m
  | .regPolornaz port => portOk port
  | .cellIngress port c _ _ _ => portOk port && cellOk c
  | .ingressAlarm port => portOk port
  | .traceRecordRx port => portOk port
  | .ptpDelayReqRx port _ _ _ _ => portOk port
  | .ptpSyncSend port _ _ => portOk port
  | .ptpAnnounceSend port _ => portOk port
  | .tempSample readings => readings.length == 18
  | .meshLinkDown src dst _ => neighbours src dst
  | .bar2Read off len => runOk off.toNat len.toNat
  | .bar2Write off data => runOk off.toNat data.length
  | .portModeWrite port _ _ => portOk port
  | .linkDrop port => portOk port
  | .linkUp port => portOk port
  | .railPowerGood rail => railOk rail
  | .railFault rail => railOk rail
  | .uplinkCellRx c => cellOk c
  | .advisoryRx port => portOk port
  | .add .. | .sub .. | .and .. | .or .. | .xor .. | .shl .. | .shr .. | .sra .. | .mul .. | .mulh .. | .mulhu ..
  | .min .. | .max .. | .minu .. | .maxu .. | .slt .. | .sltu .. | .seq .. | .addi .. | .andi .. | .ori .. | .xori ..
  | .shli .. | .shri .. | .srai .. | .lui .. | .ldB .. | .ldH .. | .ldW .. | .ldD .. | .stB .. | .stH .. | .stW ..
  | .stD .. | .amoAdd .. | .amoMin .. | .amoMax .. | .amoMinu .. | .amoMaxu .. | .amoSwap .. | .amoCas .. | .fence ..
  | .beq .. | .bne .. | .blt .. | .bge .. | .bltu .. | .bgeu .. | .jal .. | .jr .. | .keyF32 .. | .keyF16 ..
  | .keyBf16 .. | .keyS32 .. | .keyU32 .. | .unkeyF32 .. | .unkeyS32 .. | .capCnt .. | .capStart .. | .capEnd ..
  | .capStrm .. | .capVal .. | .capVtag .. | .capFresh .. | .capUpd .. | .capTagerr .. | .fldW .. | .fldInv ..
  | .fldRd .. | .redAdd .. | .treeLocal .. | .treeLaunch .. | .treeWait .. | .treeSum .. | .emitAlarm ..
  | .emitVerdict .. | .emitAdv .. | .emitTrace .. | .emitReply .. | .finish .. | .csrr .. | .csrw .. | .epCmp ..
  | .epWait .. | .epCfgcmp .. | .vadd .. | .vsub .. | .vmul .. | .vmin .. | .vmax .. | .vminu .. | .vmaxu ..
  | .vand .. | .vor .. | .vxor .. | .vshl .. | .vshr .. | .vsra .. | .vfadd .. | .vfmul .. | .vcmpEq .. | .vcmpLt ..
  | .vcmpLtu .. | .vcmpGe .. | .vcmpGeu .. | .vld .. | .vst .. | .vredSum .. | .vredMin .. | .vredMax ..
  | .vredMinu .. | .vredMaxu .. | .vredCnt .. | .vkeyF32 .. | .vkeyF16 .. | .vkeyBf16 .. | .vkeyS32 .. | .vkeyU32 ..
  | .vsplat .. | .vins .. | .vext .. | .vmov .. | .statMed .. | .statMad .. | .statQsAdd .. | .statQsQ ..
  | .statEwma .. | .strPop .. | .strPeek .. | .strSkip .. | .strLen .. | .strPush .. | .dgLd .. | .dgDiff ..
  | .dgTol .. | .rdxAdd .. | .rdxMin .. | .rdxMax .. | .rdxClose .. | .leafPowerOnReset .. | .leafPowerUp ..
  | .warmReset .. | .supplyMonitorReset .. | .hostIsoChange .. | .refclkLost .. | .reffreqWrite ..
  | .fallbackCalibrate .. | .markerHoldRelease .. | .coreApplyItem .. | .evStopAck .. | .evStopRelease ..
  | .markerTimeout .. | .controlWriteTimeout .. | .cgClear .. | .cgBind .. | .splitValueLowRead ..
  | .registerWrite .. | .valuePortHandshake .. | .digestBeat .. | .digestEngineBeat .. | .testGrantIn ..
  | .testDone .. | .testRefuse .. | .testResendIn .. | .testDue .. | .testOverdue .. | .testLateAdvisory ..
  | .testRoundTimeout .. | .heartbeatBeat .. | .heartbeatExpiry .. | .irqIdleRise .. | .holdoffExpiry ..
  | .irqClaim .. | .irqEoi .. | .uplinkCellStart .. | .ulShpWrite .. | .ulOvhWrite .. | .alarmCredit ..
  | .phaseStep .. | .holdExpiry .. | .sourceTimeout .. | .frameInstant .. | .inklineTime .. | .captureWindowOpen ..
  | .windowDeadline .. | .frameClose .. | .armGo .. | .armCheckDone .. | .programWindowWrite .. | .sliceWrite ..
  | .lmDirWrite .. | .lmCheckDone .. | .lmCtlWrite .. | .reedStall .. | .reedTrainRetry .. | .reedHello ..
  | .reedHop .. | .reedTick .. | .tickSend .. | .routeTimeout .. | .masterLoss .. | .reedElect ..
  | .electionSettle .. | .reedState .. | .reedAbdicate .. | .abdicateWrite .. | .uplinkStallAbdicate ..
  | .abdicateTimeout .. | .reedReport .. | .reportSend .. | .reedInk .. | .inkGo .. | .reedFlush ..
  | .reedFlushSend .. | .cutTimeout .. | .reedAlarm .. | .registrationTimer .. | .peatLogWrite .. | .iwCursorWrite ..
  | .iwNext .. | .iwDump .. | .historyDumpMessage .. | .ctlArm .. | .ctlInk .. | .ctlLease .. | .ctlAssign ..
  | .ctlTeardown .. | .ctlSubmaster .. | .ctlKeepalive .. | .ctlTgrant .. | .configRepeat .. | .keepaliveSend ..
  | .parentTimeout .. | .childTimeout .. | .almackTimeout .. | .u0LinkFault .. | .reparentTimeout ..
  | .reparentRetry .. | .cfReturn .. | .submasterPromote .. | .prepareTimeout .. | .trayCutTimeout .. | .regLeaf ..
  | .regMemberReport .. | .controlAdmit .. | .ingressFrame .. | .ingressReduction .. | .ingressFlush ..
  | .cutReportRx .. | .historyDumpRx .. | .snapshotDrainRx .. | .alarmOutput .. | .alRptrWrite .. | .vdRptrWrite ..
  | .mbRptrWrite .. | .livenessEval .. | .livenessProbe .. | .disagreeTick .. | .blotterRecord ..
  | .blotterTimeout .. | .mailboxCommit .. | .progLoad .. | .progEnable .. | .progDisable .. | .progUnload ..
  | .modelLoad .. | .modelLoadDone .. | .modelUnload .. | .stageRegionDone .. | .groupDecl .. | .configAlloc ..
  | .configStart .. | .configChange .. | .configGrow .. | .configShrink .. | .configTeardown .. | .configAccept ..
  | .configCancel .. | .configInkline .. | .configRelease .. | .testGrant .. | .noticeFence .. | .noticeUnfence ..
  | .noticeTarget .. | .noticePrior .. | .noticePhase .. | .progMsg .. | .trayInkline .. | .snapshotCopyDone ..
  | .leafwaitExpiry .. | .snapshotDrainDone .. | .restoreGo .. | .restoreDone .. | .peatStoreWrite .. | .psSave ..
  | .saveminExpiry .. | .psOosclr .. | .timeCellSend .. | .ptpSyncRx .. | .ptpFollowUpRx .. | .ptpDelayRespRx ..
  | .ptpAnnounceRx .. | .ptpDelayReqSend .. | .holdoverThreshold .. | .toutPulse .. | .toutOneshotWrite ..
  | .triggerInputEdge .. | .tinDataRead .. | .govStep .. | .speedMonitor .. | .thermTripShutdown .. | .ceilStep ..
  | .stationWatchdog .. | .stationStall .. | .arrivalAgeExpiry .. | .inklineTrigger .. | .timeTrigger ..
  | .dispatch .. | .waitComplete .. | .treeResult .. | .stationAlarmCredit .. | .pzPorRise .. | .powerUpStepDone ..
  | .pzPorFall .. | .pzWarmReset .. | .perstAssert .. | .perstRelease .. | .pzRefclkLost .. | .pzRefclkReturn ..
  | .i3cRegisterRead .. | .i3cRegisterWrite .. | .i3cEntdaa .. | .i3cSetdasa .. | .i3cSetnewda .. | .i3cRstdaa ..
  | .i3cGetpid .. | .i3cGetbcr .. | .i3cGetdcr .. | .i3cGetstatus .. | .i3cGetmwl .. | .i3cGetmrl .. | .i3cEnec ..
  | .i3cDisec .. | .jtagBypass .. | .jtagIdcode .. | .jtagSamplePreload .. | .jtagExtest .. | .jtagClamp ..
  | .jtagHighz .. | .refclkRestored .. | .reedRailError .. | .rcFieldRead .. | .ptpAnnounceTimeout ..
  | .msixHoldoffExpiry .. | .healthUpdateRx .. | .fenceNoticeRx .. | .memberProbeRx .. | .pcieLinkChange .. => true

/-- A well-formed command: its operands are what the spec lets them be, and an instruction's unused fields are zero
(R240). -/
def WellFormed (i : Instr) : Bool := operandsOk i && jarUnused i

end Sys2Proof
end

