-- ==== Sys2Proof/Certificates/Slice0/Obligations.lean ====
section
/-!
DEFINITION. Sys2Proof/Certificates/Slice0/Obligations.lean: the statements of this model, and the words they use.
-/

namespace Sys2Proof.Claims

open Sys2Proof.Machine

/-! ## Words that several statements use -/

/-- A context of a station may issue an instruction (R237, R248, R251): it runs an activation, waits for nothing, its budget
is not used up, its pc lies in the code, and the instruction's unused fields are zero (R240). -/
def StReady (s : State) (i : Instr) (st : BitVec 6) (c : BitVec 2) (x : Ctx) : Prop :=
  s.pz.ctx st.toNat c.toNat = some x ∧ x.wait = none ∧ x.exec < x.image.budget ∧ x.pc < x.image.code.length ∧
  jarUnused i = true

/-- The context once the instruction has been counted and the pc stands at the next word (R93, R237). -/
def issued (x : Ctx) : Ctx := { x with exec := x.exec + 1, pc := x.pc + 1 }

/-- The state with a context of a station replaced, and nothing else changed. -/
def stNext (s : State) (st : BitVec 6) (c : BitVec 2) (x : Ctx) : State :=
  { s with pz := s.pz.setCtx st.toNat c.toNat (some x) }

/-- The running channel of the open window may issue an instruction of cost `n` (R90, R93, R227, R251): the budget suffices,
its word is one of the 64 and correct, and the instruction's fields are those of Jarend-L. -/
def QlReady (s : State) (i : Instr) (n : Nat) (w : Window) (c : Nat) : Prop :=
  s.leaf.quill.win = some w ∧ w.chan = some c ∧ w.exec + n ≤ slBudget (s.leaf.slice w.bank c) ∧ w.pc < 64 ∧
  s.leaf.isBad (progCw (bankPage w.bank + (64 * c + w.pc) / 2048) ((64 * c + w.pc) % 2048)) = false ∧
  jarUnused i = true ∧ jarRegsL i = true

/-- The window once an instruction of cost `n` has been counted. -/
def counted (w : Window) (n : Nat) : Window := { w with exec := w.exec + n, pc := w.pc + 1 }

/-- The state with the open window replaced, and nothing else changed. -/
def qlNext (s : State) (w : Window) : State :=
  { s with leaf := { s.leaf with quill := { s.leaf.quill with win := some w } } }

/-- One or zero. -/
def oneIf (c : Bool) : DWord := if c then 1 else 0

/-- The instructions of three registers (Table 11.1), each with its result on g[ra] and g[rb]. -/
def scalar3 : List ((Engine → FmtA → Instr) × (DWord → DWord → DWord)) :=
  [(.add, fun a b => a + b), (.sub, fun a b => a - b), (.and, fun a b => a &&& b), (.or, fun a b => a ||| b),
   (.xor, fun a b => a ^^^ b), (.shl, fun a b => a <<< (b &&& 63)), (.shr, fun a b => a >>> (b &&& 63)),
   (.sra, fun a b => a.sshiftRight (b &&& 63).toNat), (.mul, fun a b => a * b),
   (.mulh, fun a b => (a.signExtend 128 * b.signExtend 128).extractLsb' 64 64),
   (.mulhu, fun a b => (a.setWidth 128 * b.setWidth 128).extractLsb' 64 64),
   (.min, fun a b => if a.toInt < b.toInt then a else b), (.max, fun a b => if a.toInt < b.toInt then b else a),
   (.minu, fun a b => if a.toNat < b.toNat then a else b), (.maxu, fun a b => if a.toNat < b.toNat then b else a),
   (.slt, fun a b => oneIf (decide (a.toInt < b.toInt))), (.sltu, fun a b => oneIf (decide (a.toNat < b.toNat))),
   (.seq, fun a b => oneIf (decide (a = b)))]

/-- The instructions with an immediate value of format I, each with its result on g[ra] and IMM16. -/
def scalarImm : List ((Engine → FmtI → Instr) × (DWord → BitVec 16 → DWord)) :=
  [(.addi, fun a n => a + n.signExtend 64), (.andi, fun a n => a &&& n.setWidth 64),
   (.ori, fun a n => a ||| n.setWidth 64), (.xori, fun a n => a ^^^ n.setWidth 64),
   (.lui, fun _ n => n.signExtend 64 <<< 16)]

/-- The shifts by an immediate count, each with its result on g[ra] and the count. -/
def scalarShift : List ((Engine → FmtS → Instr) × (DWord → Nat → DWord)) :=
  [(.shli, fun a n => a <<< n), (.shri, fun a n => a >>> n), (.srai, fun a n => a.sshiftRight n)]

/-- The key instructions, each with its result on g[ra][31:0] (R252). -/
def keyRows : List ((Engine → FmtA → Instr) × (Word → DWord)) :=
  [(.keyF32, fun w => (if 0x7F800000 < (w &&& 0x7FFFFFFF).toNat then 0xFFFFFFFF
      else if w = 0x80000000 then 0x80000000 else if w.msb then ~~~ w else w ||| 0x80000000 : Word).setWidth 64),
   (.keyF16, fun w => (keyF32 (widenF16 (w.toNat % 65536))).setWidth 64),
   (.keyBf16, fun w => (keyF32 (w <<< 16)).setWidth 64),
   (.keyS32, fun w => (if w = 0x7FFFFFFF then 0xFFFFFFFE else w + 0x80000000 : Word).setWidth 64),
   (.keyU32, fun w => (if w = 0xFFFFFFFF then 0xFFFFFFFE else w : Word).setWidth 64),
   (.unkeyF32, fun k => (if k = 0xFFFFFFFF then 0x7FC00000 else if k.msb then k &&& 0x7FFFFFFF else ~~~ k : Word).setWidth 64),
   (.unkeyS32, fun k => (k + 0x80000000).signExtend 64)]

/-- The loads, with their size in bytes. -/
def loadRows : List ((Engine → FmtM → Instr) × Nat) := [(.ldB, 1), (.ldH, 2), (.ldW, 4), (.ldD, 8)]

/-- The stores, with their size in bytes. -/
def storeRows : List ((Engine → FmtM → Instr) × Nat) := [(.stB, 1), (.stH, 2), (.stW, 4), (.stD, 8)]

/-- Address of a load or store of `n` bytes (Table 10.7): g[ra] plus OFF14, sign-extended, times n. -/
def memAddr (b : DWord) (f : FmtM) (n : Nat) : Nat := (b + f.off.signExtend 64 * BitVec.ofNat 64 n).toNat

/-- Memory that a write of `n` bytes at `a` may reach while a snapshot is under way (R359): the images of its pages not yet
copied that the write touches. -/
def drained (z : Pz) (a n b : Nat) : Bool :=
  match z.snap.now with
  | none => false
  | some sn => sn.pages.any (fun pg => meets a n (4096 * pg) 4096 &&
      decide (z.snapBase + rangeOff sn.ranges (4096 * pg) ≤ b ∧ b < z.snapBase + rangeOff sn.ranges (4096 * pg) + 4096))

/-- The atomic updates (Table 11.1), each with what it stores for the old word and g[rb]; `amo.cas` stands apart. -/
def amoRows : List ((Engine → FmtA → Instr) × (DWord → DWord → DWord)) :=
  [(.amoAdd, fun o b => o + b), (.amoMin, fun o b => if o.toInt < b.toInt then o else b),
   (.amoMax, fun o b => if o.toInt < b.toInt then b else o), (.amoMinu, fun o b => if o.toNat < b.toNat then o else b),
   (.amoMaxu, fun o b => if o.toNat < b.toNat then b else o), (.amoSwap, fun _ b => b)]

/-- The conditional branches, each with its condition (Table 11.2). -/
def branchRows : List ((Engine → FmtB → Instr) × (DWord → DWord → Bool)) :=
  [(.beq, fun a b => decide (a = b)), (.bne, fun a b => decide (a ≠ b)), (.blt, fun a b => decide (a.toInt < b.toInt)),
   (.bge, fun a b => decide (b.toInt ≤ a.toInt)), (.bltu, fun a b => decide (a.toNat < b.toNat)),
   (.bgeu, fun a b => decide (b.toNat ≤ a.toNat))]

/-- Lane operations of three vector registers (Table 11.6). -/
def vec3Rows : List ((Engine → FmtV → Instr) × (Word → Word → Word)) :=
  [(.vadd, fun a b => a + b), (.vsub, fun a b => a - b), (.vmul, fun a b => a * b),
   (.vmin, fun a b => if a.toInt < b.toInt then a else b), (.vmax, fun a b => if a.toInt < b.toInt then b else a),
   (.vminu, fun a b => if a.toNat < b.toNat then a else b), (.vmaxu, fun a b => if a.toNat < b.toNat then b else a),
   (.vand, fun a b => a &&& b), (.vor, fun a b => a ||| b), (.vxor, fun a b => a ^^^ b),
   (.vshl, fun a b => a <<< (b &&& 31)), (.vshr, fun a b => a >>> (b &&& 31)),
   (.vsra, fun a b => a.sshiftRight (b &&& 31).toNat), (.vfadd, f32Add), (.vfmul, f32Mul)]

/-- Comparisons of vector registers. -/
def vcmpRows : List ((Engine → FmtV → Instr) × (Word → Word → Bool)) :=
  [(.vcmpEq, fun a b => decide (a = b)), (.vcmpLt, fun a b => decide (a.toInt < b.toInt)),
   (.vcmpLtu, fun a b => decide (a.toNat < b.toNat)), (.vcmpGe, fun a b => decide (b.toInt ≤ a.toInt)),
   (.vcmpGeu, fun a b => decide (b.toNat ≤ a.toNat))]

/-- Key conversions per lane. -/
def vkeyRows : List ((Engine → FmtV → Instr) × (Word → Word)) :=
  [(.vkeyF32, keyF32), (.vkeyF16, fun w => keyF32 (widenF16 (w.toNat % 65536))),
   (.vkeyBf16, fun w => keyF32 (w <<< 16)), (.vkeyS32, keyS32), (.vkeyU32, keyU32)]

/-- Reductions of a vector register over the lanes of a mask (Table 11.6), with no lane given by the list's end. -/
def vredRows : List ((Engine → FmtX → Instr) × (List Word → DWord)) :=
  [(.vredSum, fun ls => BitVec.ofInt 64 (ls.map (fun w => w.toInt)).sum),
   (.vredMin, fun ls => BitVec.ofInt 64 (ls.foldl (fun m w => min m w.toInt) 0x7FFFFFFF)),
   (.vredMax, fun ls => BitVec.ofInt 64 (ls.foldl (fun m w => max m w.toInt) (-0x80000000))),
   (.vredMinu, fun ls => BitVec.ofNat 64 (ls.foldl (fun m w => min m w.toNat) 0xFFFFFFFF)),
   (.vredMaxu, fun ls => BitVec.ofNat 64 (ls.foldl (fun m w => max m w.toNat) 0)),
   (.vredCnt, fun ls => BitVec.ofNat 64 ls.length)]

/-- The lanes of vS in km, in lane order. -/
def lanesIn (x : Ctx) (v k : Nat) : List Word := ((List.range 64).filter (fun i => x.on k i)).map (fun i => x.ln v i)

/-- A block of `n` bytes of memory that a station program may read: aligned, granted, present, correct. -/
def Readable (s : State) (x : Ctx) (a n al : Nat) : Prop :=
  s.pz.accessFault x a n al false = none ∧ s.pz.badIn a n = none

/-- A block that a station program may write, each of its words correct. -/
def Writable (s : State) (x : Ctx) (a n al : Nat) : Prop :=
  s.pz.accessFault x a n al true = none ∧ s.pz.badIn a n = none

/-- `k` stands at sorted place `j` of a list of numbers: at most `j` entries lie below it, and more than `j` at or below. -/
def AtRank (ks : List Nat) (j k : Nat) : Prop :=
  k ∈ ks ∧ (ks.filter (fun y => decide (y < k))).length ≤ j ∧ j < (ks.filter (fun y => decide (y ≤ k))).length

/-- Keys of a vector register that a statistics instruction takes: lanes of a mask, zero for all, that are not the NaN key. -/
def pickKeys (x : Ctx) (v : Nat) (m : DWord) : List Nat :=
  ((List.range 64).filter (fun i => (decide (m = 0) || m.getLsbD i) && decide (x.ln v i ≠ 0xFFFFFFFF))).map
    (fun i => (x.ln v i).toNat)

/-- A number of `n` bytes in memory, least significant first (R10). -/
def num (z : Pz) (a n : Nat) : Nat := ofLe (memBytes z.mem a n)

/-- Whether a quantity `t` is the smallest whole number at least KTOL times the square root of V (R195), with V given as a
fraction of 2^17. -/
def LeastTolerance (k v t : Nat) : Prop := k * k * v ≤ t * t * 2 ^ 17 ∧ ∀ u, u < t → u * u * 2 ^ 17 < k * k * v

/-- A number held at the largest value of a field. -/
def held (f : Fld) (n : Nat) : Nat := min n (2 ^ (f.hi + 1 - f.lo) - 1)

/-- A field that counts once, held at its largest value. -/
def leafCounts (s t : State) (f : Fld) : Prop := t.leaf.fld f = held f (s.leaf.fld f + 1)

/-- The same of Polornaz. -/
def pzCounts (s t : State) (f : Fld) : Prop := t.pz.fld f = held f (s.pz.fld f + 1)

/-- One more message waits in an uplink class queue of the leaf. -/
def queuedOne (s t : State) (c ty : Nat) : Prop :=
  ∃ q, tget t.leaf.ul.queues c = tget s.leaf.ul.queues c ++ [q] ∧ q.msg.ty.toNat = ty ∧ q.sent = 0

/-- A register of Polornaz that a row names is reached, in the secure world (R382). -/
def Admitted (s : State) (p : Port) (off : Nat) : Prop :=
  s.pz.verdict p (viewAddr p off) = .pass ∧ s.pz.secure p (viewAddr p off) = true

/-- The message alone in the mailbox's queue, from a slot and without a reply record asked for. -/
def Alone (s : State) (m : MbMsg) (n : BitVec 4) (ty op : Nat) : Prop :=
  s.pz.mb.queue = [m] ∧ m.mtype.toNat = ty ∧ m.op = op ∧ m.src = .slot n ∧ m.reply = false

/-- The mailbox slot is given back with a status: OWN is clear, STATUS written (R243). -/
def Answered (t : State) (n : BitVec 4) (st : Nat) : Prop :=
  bits (tget t.pz.mb.words (1024 * n.toNat)).toNat 31 31 = 0 ∧ bits (tget t.pz.mb.words (1024 * n.toNat)).toNat 30 24 = st

/-- A configuration message that Polornaz has not acted on. -/
def FreshPz (s : State) (h : CtlHead) (op : Nat) : Prop := s.pz.known h op = false

/-- What leaves the device in a step, in order. -/
def Leaves (s t : State) (os : List PzOut) : Prop := ∃ tail, t.pz.out = s.pz.out ++ os ++ tail

/-! ## Jarend: scalar instructions -/

/-- The instructions of three registers write their result to rd, and the context changes in nothing else but its count and
its pc; on the Quill engine the result is valid exactly when its sources are. -/
def ScalarRegisterResult : Prop :=
  ∀ p ∈ scalar3, ∀ (s : State) (f : FmtA),
    (∀ st c x, StReady s (p.1 (.station st c) f) st c x →
      exec (p.1 (.station st c) f) s =
        .next (stNext s st c ((issued x).put f.rd.toNat (p.2 (x.rg f.ra.toNat) (x.rg f.rb.toNat))))) ∧
    (∀ w c, QlReady s (p.1 .quill f) 1 w c →
      exec (p.1 .quill f) s = .next (qlNext s ((counted w 1).result f.rd.toNat
        (p.2 (w.g f.ra.toNat) (w.g f.rb.toNat)) [f.ra.toNat, f.rb.toNat])))

/-- The instructions with an immediate value, sign-extended or zero-extended as Table 11.1 says. -/
def ScalarImmediateResult : Prop :=
  (∀ p ∈ scalarImm, ∀ (s : State) (f : FmtI),
    (∀ st c x, StReady s (p.1 (.station st c) f) st c x →
      exec (p.1 (.station st c) f) s = .next (stNext s st c ((issued x).put f.rd.toNat (p.2 (x.rg f.ra.toNat) f.imm)))) ∧
    (∀ w c, QlReady s (p.1 .quill f) 1 w c → ∃ srcs, (∀ r ∈ srcs, r = f.ra.toNat) ∧
      exec (p.1 .quill f) s = .next (qlNext s ((counted w 1).result f.rd.toNat (p.2 (w.g f.ra.toNat) f.imm) srcs)))) ∧
  (∀ p ∈ scalarShift, ∀ (s : State) (f : FmtS),
    (∀ st c x, StReady s (p.1 (.station st c) f) st c x →
      exec (p.1 (.station st c) f) s =
        .next (stNext s st c ((issued x).put f.rd.toNat (p.2 (x.rg f.ra.toNat) f.n.toNat)))) ∧
    (∀ w c, QlReady s (p.1 .quill f) 1 w c →
      exec (p.1 .quill f) s = .next (qlNext s ((counted w 1).result f.rd.toNat
        (p.2 (w.g f.ra.toNat) f.n.toNat) [f.ra.toNat]))))

/-- The key instructions write the inkkey of Table 12.1, and `unkey` inverts it; none of them faults. -/
def KeyInstructionResult : Prop :=
  ∀ p ∈ keyRows, ∀ (s : State) (f : FmtA),
    (∀ st c x, StReady s (p.1 (.station st c) f) st c x →
      exec (p.1 (.station st c) f) s =
        .next (stNext s st c ((issued x).put f.rd.toNat (p.2 ((x.rg f.ra.toNat).setWidth 32))))) ∧
    (∀ w c, QlReady s (p.1 .quill f) 1 w c →
      exec (p.1 .quill f) s = .next (qlNext s ((counted w 1).result f.rd.toNat
        (p.2 ((w.g f.ra.toNat).setWidth 32)) [f.ra.toNat])))

/-! ## Jarend: memory -/

/-- A load writes the bytes at its address, least significant first and zero-extended; one that is misaligned faults with
ALIGN before its access is judged, one outside the granted regions with ACCESS, and a fault writes nothing (R248). -/
def LoadReadsGrantedBytes : Prop :=
  ∀ p ∈ loadRows, ∀ (s : State) (f : FmtM) (st : BitVec 6) (c : BitVec 2) (x : Ctx),
    StReady s (p.1 (.station st c) f) st c x →
      let a := memAddr (x.rg f.ra.toNat) f p.2
      (Readable s x a p.2 p.2 →
        exec (p.1 (.station st c) f) s =
          .next (stNext s st c ((issued x).put f.r.toNat (BitVec.ofNat 64 (ofLe (memBytes s.pz.mem a p.2)))))) ∧
      (a % p.2 ≠ 0 → exec (p.1 (.station st c) f) s =
        .next { s with pz := s.pz.faultAct st.toNat c.toNat (issued x) 4 a }) ∧
      (a % p.2 = 0 → x.image.grants a p.2 false = false → exec (p.1 (.station st c) f) s =
        .next { s with pz := s.pz.faultAct st.toNat c.toNat (issued x) 3 a })

/-- A load of the Quill engine reads the constant space, pages 16 to 63; from 0x6_0000 on, or misaligned, the channel stops
with LAST_FLT 0b011 (Table 4.5). -/
def LeafLoadReadsConstantSpace : Prop :=
  ∀ p ∈ loadRows, ∀ (s : State) (f : FmtM) (w : Window) (c : Nat), QlReady s (p.1 .quill f) 1 w c →
    let a := memAddr (w.g f.ra.toNat) f p.2
    (a % p.2 = 0 → a < 0x60000 → s.leaf.isBad (constCw a) = false →
      exec (p.1 .quill f) s = .next (qlNext s ((counted w 1).result f.r.toNat
        (BitVec.ofNat 64 (ofLe (slice (leB 8 ((tget s.leaf.quill.pages (2048 * 16 + a / 4)).toNat +
          (tget s.leaf.quill.pages (2048 * 16 + a / 4 + 1)).toNat * 2 ^ 32)) (a % 4) p.2))) [f.ra.toNat]))) ∧
    (a % p.2 ≠ 0 ∨ 0x60000 ≤ a →
      exec (p.1 .quill f) s = .next { s with leaf := s.leaf.stopChan 3 c (counted w 1) })

/-- A store writes its bytes at its address and nowhere else: every other byte of memory reads as before, but for the images
of snapshot pages that drain-ahead copies first; no register, flag or accumulator of any context changes. -/
def StoreWritesItsBytesAlone : Prop :=
  ∀ p ∈ storeRows, ∀ (s : State) (f : FmtM) (st : BitVec 6) (c : BitVec 2) (x : Ctx),
    StReady s (p.1 (.station st c) f) st c x →
      let a := memAddr (x.rg f.ra.toNat) f p.2
      Writable s x a p.2 p.2 → ∃ t, exec (p.1 (.station st c) f) s = .next t ∧
        (∀ i, i < p.2 → tget t.pz.mem (a + i) = (x.rg f.r.toNat).extractLsb' (8 * i) 8) ∧
        (∀ b, b < a ∨ a + p.2 ≤ b → drained s.pz a p.2 b = false → tget t.pz.mem b = tget s.pz.mem b) ∧
        t.pz.ctxs = (stNext s st c (issued x)).pz.ctxs ∧ t.pz.slots = s.pz.slots ∧ t.leaf = s.leaf

/-- A store keeps memory in its canonical form, whatever it stores. -/
def StoreKeepsMemoryCanonical : Prop :=
  ∀ p ∈ storeRows, ∀ (s t : State) (e : Engine) (f : FmtM), Memory.wf s.pz.mem = true →
    exec (p.1 e f) s = .next t → Memory.wf t.pz.mem = true

/-! ## Jarend: control -/

/-- A conditional branch goes OFF16 words on from its own word when its condition holds and else to the next word, whatever
its target; a taken one that leaves the code faults with ILLEGAL. -/
def BranchGoesWhereItSays : Prop :=
  ∀ p ∈ branchRows, ∀ (s : State) (f : FmtB),
    (∀ st c x, StReady s (p.1 (.station st c) f) st c x →
      let t : Int := x.pc + f.off.toInt
      (p.2 (x.rg f.ra.toNat) (x.rg f.rb.toNat) = false →
        exec (p.1 (.station st c) f) s = .next (stNext s st c (issued x))) ∧
      (p.2 (x.rg f.ra.toNat) (x.rg f.rb.toNat) = true → 0 ≤ t → t < x.image.code.length →
        exec (p.1 (.station st c) f) s = .next (stNext s st c { issued x with pc := t.toNat })) ∧
      (p.2 (x.rg f.ra.toNat) (x.rg f.rb.toNat) = true → t < 0 ∨ (x.image.code.length : Int) ≤ t →
        exec (p.1 (.station st c) f) s =
          .next { s with pz := s.pz.faultAct st.toNat c.toNat (issued x) 1 (4 * x.pc) })) ∧
    (∀ w c, QlReady s (p.1 .quill f) 1 w c →
      let t : Int := w.pc + f.off.toInt
      (p.2 (w.g f.ra.toNat) (w.g f.rb.toNat) = false →
        exec (p.1 .quill f) s = .next (qlNext s (counted w 1))) ∧
      (p.2 (w.g f.ra.toNat) (w.g f.rb.toNat) = true → 0 ≤ t → t < 64 →
        exec (p.1 .quill f) s = .next (qlNext s { counted w 1 with pc := t.toNat })) ∧
      (p.2 (w.g f.ra.toNat) (w.g f.rb.toNat) = true → t < 0 ∨ 64 ≤ t →
        exec (p.1 .quill f) s = .next { s with leaf := s.leaf.stopChan 3 c (counted w 1) }))

/-- `jal` links in g31 and `jr` in rd the byte address of the next word, and both jump; a target that is not a whole word or
lies outside the code faults. `fence` completes at once in this model (assumption log 3), and `end` ends the activation. -/
def JumpLinkFenceAndEnd : Prop :=
  (∀ (s : State) (off : BitVec 26) (st : BitVec 6) (c : BitVec 2) (x : Ctx),
    StReady s (.jal (.station st c) off) st c x →
      let t : Int := x.pc + off.toInt
      (0 ≤ t → t < x.image.code.length → exec (.jal (.station st c) off) s =
        .next (stNext s st c { (issued x).put 31 (BitVec.ofNat 64 (4 * (x.pc + 1))) with pc := t.toNat })) ∧
      (t < 0 ∨ (x.image.code.length : Int) ≤ t → exec (.jal (.station st c) off) s =
        .next { s with pz := s.pz.faultAct st.toNat c.toNat (issued x) 1 (4 * x.pc) })) ∧
  (∀ (s : State) (f : FmtA) (st : BitVec 6) (c : BitVec 2) (x : Ctx),
    StReady s (.jr (.station st c) f) st c x →
      let a := (x.rg f.ra.toNat).toNat
      (a % 4 = 0 → a / 4 < x.image.code.length → exec (.jr (.station st c) f) s =
        .next (stNext s st c { (issued x).put f.rd.toNat (BitVec.ofNat 64 (4 * (x.pc + 1))) with pc := a / 4 })) ∧
      (a % 4 ≠ 0 ∨ x.image.code.length ≤ a / 4 → exec (.jr (.station st c) f) s =
        .next { s with pz := s.pz.faultAct st.toNat c.toNat (issued x) 1 (4 * x.pc) })) ∧
  (∀ (s : State) (f : FmtX) (st : BitVec 6) (c : BitVec 2) (x : Ctx),
    (StReady s (.fence (.station st c) f) st c x →
      exec (.fence (.station st c) f) s = .next (stNext s st c (issued x))) ∧
    (StReady s (.finish (.station st c) f) st c x → ∃ t, exec (.finish (.station st c) f) s = .next t ∧
      t.pz.ctx st.toNat c.toNat = none ∧ t.pz.mem = s.pz.mem ∧ t.leaf = s.leaf)) ∧
  (∀ (s : State) (f : FmtX) (w : Window) (c : Nat), QlReady s (.finish .quill f) 1 w c →
    ∃ t, exec (.finish .quill f) s = .next t ∧ t.leaf.fld (GlR.QL_CHST_DONE.at (4 * c)) = 1 ∧
      (∃ v, t.leaf.quill.win = some v ∧ v.chan ≠ some c ∧ v.total = w.total + w.exec + 3) ∧ t.pz = s.pz)

/-- With its budget used up a context faults with BUDGET and a channel stops as overrun; past the last word, and for a word
outside the profile, they fault with ILLEGAL. -/
def IssueFaults : Prop :=
  ∀ (s : State) (f : FmtA),
    (∀ st c x, s.pz.ctx (st : BitVec 6).toNat (c : BitVec 2).toNat = some x → x.wait = none →
      (x.image.budget ≤ x.exec → exec (.add (.station st c) f) s =
        .next { s with pz := s.pz.faultAct st.toNat c.toNat x 6 (4 * x.pc) }) ∧
      (x.exec < x.image.budget → x.image.code.length ≤ x.pc → exec (.add (.station st c) f) s =
        .next { s with pz := s.pz.faultAct st.toNat c.toNat x 1 (4 * x.pc) }) ∧
      (∀ g : FmtC, x.exec < x.image.budget → x.pc < x.image.code.length → exec (.fldW (.station st c) g) s =
        .next { s with pz := s.pz.faultAct st.toNat c.toNat (issued x) 1 (4 * x.pc) })) ∧
    (∀ w c, s.leaf.quill.win = some w → w.chan = some c →
      (slBudget (s.leaf.slice w.bank c) ≤ w.exec → exec (.add .quill f) s =
        .next { s with leaf := s.leaf.stopChan 1 c w }) ∧
      (w.exec < slBudget (s.leaf.slice w.bank c) → 64 ≤ w.pc → exec (.add .quill f) s =
        .next { s with leaf := s.leaf.stopChan 3 c w }) ∧
      (∀ g : FmtM, QlReady s (.stD .quill g) 1 w c → exec (.stD .quill g) s =
        .next { s with leaf := s.leaf.stopChan 3 c (counted w 1) }))

/-- A fault ends its activation: it writes no memory, counts once in FLT and in the station's FAULTS, shows its code in
LAST_FLT, and leaves the leaf alone. -/
def FaultEndsActivation : Prop :=
  ∀ (z : Pz) (st : BitVec 6) (c : BitVec 2) (x : Ctx) (code addr : Nat), code < 16 →
    let t := z.faultAct st.toNat c.toNat x code addr
    t.ctx st.toNat c.toNat = none ∧ t.mem = z.mem ∧
    t.fld (PzR.PG_STAT_LAST_FLT.at (slotOff st.toNat x.slot.toNat)) = code ∧
    t.fld (PzR.ST_STAT_FAULTS.at (0x400 * st.toNat)) = min (z.fld (PzR.ST_STAT_FAULTS.at (0x400 * st.toNat)) + 1) 0xFFFF ∧
    t.time = z.time ∧ t.routes = z.routes ∧ t.models = z.models

/-! ## Jarend: capture, fields, waves and the local model -/

/-- A group read takes its slot from the sample set (R253): `cap.cnt` a counter, `cap.start` and `cap.end` a latch, `cap.strm`
the bound stream; a bank not connected reads zero, a group not bound reads zero in the views of commands; a slot above 8
faults. The value is valid when g[ra] is, and nothing but the register changes. -/
def GroupReadTakesSampleSet : Prop :=
  ∀ (s : State) (f : FmtC) (w : Window) (c : Nat),
    let g := ((w.g f.ra.toNat).toNat + f.idx.toNat) % 256
    let n := f.slot.toNat
    let set := tget s.leaf.cap.sample (g / 16)
    let key := 9 * (g % 16) + n
    let bound := s.leaf.flag (GlR.CG_CTL_CMD_EN.at (0x50 * g))
    let got : Nat → State := fun v => qlNext s ((counted w 1).result f.rd.toNat (BitVec.ofNat 64 v) [f.ra.toNat])
    n ≤ 8 → s.leaf.bankOn (g / 16) = true → s.leaf.isBad (.sample (BitVec.ofNat 4 (g / 16))) = false →
    (QlReady s (.capCnt .quill f) 1 w c → exec (.capCnt .quill f) s = .next (got (tget set.cnt key).toNat)) ∧
    (QlReady s (.capStart .quill f) 1 w c → exec (.capStart .quill f) s =
      .next (got (if bound then (tget set.startL key).toNat else 0))) ∧
    (QlReady s (.capEnd .quill f) 1 w c → exec (.capEnd .quill f) s =
      .next (got (if bound then (tget set.endL key).toNat else 0))) ∧
    (QlReady s (.capStrm .quill f) 1 w c → exec (.capStrm .quill f) s =
      .next (got (if bound then streamSlot (tget set.streams (s.leaf.fld (GlR.CG_CTL_CMD.at (0x50 * g)))) n else 0)))

/-- The group reads of a bank that is not connected give zero, valid with g[ra], and those of a slot above 8 stop the channel
as ILLEGAL. -/
def GroupReadEdges : Prop :=
  ∀ p ∈ ([.capCnt, .capStart, .capEnd, .capStrm] : List (Engine → FmtC → Instr)), ∀ (s : State) (f : FmtC) (w : Window) (c : Nat),
    QlReady s (p .quill f) 1 w c →
    let g := ((w.g f.ra.toNat).toNat + f.idx.toNat) % 256
    (8 < f.slot.toNat → exec (p .quill f) s = .next { s with leaf := s.leaf.stopChan 3 c (counted w 1) }) ∧
    (f.slot.toNat ≤ 8 → s.leaf.bankOn (g / 16) = false → s.leaf.isBad (.sample (BitVec.ofNat 4 (g / 16))) = false →
      exec (p .quill f) s = .next (qlNext s ((counted w 1).result f.rd.toNat 0 [f.ra.toNat])))

/-- A port read takes the sample of the instant: the value and its type tag, whether one came in the period, how many came
in all; `cap.tagerr` reads the sticky flag and clears it. A port without a value, or not connected, reads zero and invalid,
and its type tag reads 7. -/
def PortReadTakesSample : Prop :=
  ∀ (s : State) (f : FmtC) (w : Window) (c : Nat),
    let i := ((w.g f.ra.toNat).toNat + f.idx.toNat) % 256
    let v := tget s.leaf.cap.sampleVals i
    let there := i < 64 ∧ bit s.leaf.hard.vpEn.toNat i = true
    let got : DWord → State := fun d => qlNext s ((counted w 1).result f.rd.toNat d [f.ra.toNat])
    let none' : State := qlNext s ((counted w 1).putInval f.rd.toNat 0 false)
    (∀ t x, there → v.val = some (t, x) →
      (QlReady s (.capVal .quill f) 1 w c → exec (.capVal .quill f) s = .next (got (x.setWidth 64))) ∧
      (QlReady s (.capVtag .quill f) 1 w c → exec (.capVtag .quill f) s =
        .next (qlNext s ((counted w 1).put f.rd.toNat (t.setWidth 64))))) ∧
    (¬ there ∨ v.val = none →
      (QlReady s (.capVal .quill f) 1 w c → exec (.capVal .quill f) s = .next none') ∧
      (QlReady s (.capVtag .quill f) 1 w c → exec (.capVtag .quill f) s =
        .next (qlNext s ((counted w 1).put f.rd.toNat 7)))) ∧
    (there →
      (QlReady s (.capFresh .quill f) 1 w c → exec (.capFresh .quill f) s = .next (got (oneIf v.fresh))) ∧
      (QlReady s (.capUpd .quill f) 1 w c → exec (.capUpd .quill f) s = .next (got (v.upd.setWidth 64))) ∧
      (QlReady s (.capTagerr .quill f) 1 w c → ∃ t, exec (.capTagerr .quill f) s = .next t ∧
        t.leaf.quill.win = some ((counted w 1).result f.rd.toNat (oneIf (tget s.leaf.cap.vals i).tagErr) [f.ra.toNat]) ∧
        (tget t.leaf.cap.vals i).tagErr = false ∧ (tget t.leaf.cap.vals i).val = (tget s.leaf.cap.vals i).val ∧
        t.leaf.regs = s.leaf.regs)) ∧
    (¬ there →
      (QlReady s (.capFresh .quill f) 1 w c → exec (.capFresh .quill f) s = .next none') ∧
      (QlReady s (.capUpd .quill f) 1 w c → exec (.capUpd .quill f) s = .next none') ∧
      (QlReady s (.capTagerr .quill f) 1 w c → exec (.capTagerr .quill f) s = .next none'))

/-- A field written with `fld.w` reads back with `fld.rd` as long as its register was valid; `fld.inv` and an invalid register
leave it invalid; a field outside the channel's range stops the channel with LAST_FLT 0b010 and is not written. -/
def FieldsKeepWhatIsWritten : Prop :=
  (∀ (s : State) (f : FmtC) (w : Window) (c : Nat), QlReady s (.fldW .quill f) 1 w c →
    let sl := s.leaf.slice w.bank c
    let j := ((w.g f.ra.toNat).toNat + f.idx.toNat) % 256
    (slFcnt sl ≤ j → exec (.fldW .quill f) s = .next { s with leaf := s.leaf.stopChan 2 c (counted w 1) }) ∧
    (j < slFcnt sl → ∃ t v, exec (.fldW .quill f) s = .next t ∧ t.leaf.quill.win = some v ∧
      (v.fields.find? (fun p => p.1 == slFbase sl + j)).map Prod.snd =
        (if w.valid f.rd.toNat then some ((w.g f.rd.toNat).setWidth 32) else none) ∧
      slFbase sl + j ∈ v.written ∧
      (∀ k, k ≠ slFbase sl + j → v.fields.find? (fun p => p.1 == k) = w.fields.find? (fun p => p.1 == k)) ∧
      v.regs = w.regs ∧ v.inval = w.inval ∧ v.pc = w.pc + 1)) ∧
  (∀ (s : State) (f : FmtC) (w : Window) (c : Nat), QlReady s (.fldInv .quill f) 1 w c →
    let sl := s.leaf.slice w.bank c
    let j := ((w.g f.ra.toNat).toNat + f.idx.toNat) % 256
    j < slFcnt sl → ∃ t v, exec (.fldInv .quill f) s = .next t ∧ t.leaf.quill.win = some v ∧
      v.fields.find? (fun p => p.1 == slFbase sl + j) = none ∧ slFbase sl + j ∈ v.written ∧ v.regs = w.regs) ∧
  (∀ (s : State) (f : FmtC) (w : Window) (c : Nat), QlReady s (.fldRd .quill f) 1 w c →
    let k := ((w.g f.ra.toNat).toNat + f.idx.toNat) % 256
    exec (.fldRd .quill f) s = .next (qlNext s (match w.fields.find? (fun p => p.1 == k) with
      | some (_, v) => (counted w 1).result f.rd.toNat (v.setWidth 64) [f.ra.toNat]
      | none => (counted w 1).putInval f.rd.toNat 0 false)))

/-- `red.add` adds a contribution to its feature: one to the count, the value to the sum, the key to the least and greatest; a
feature at or above WAVE_F, or a contribution past the 1,023rd, is dropped and counted; without RED the channel stops. -/
def WaveContributionCounts : Prop :=
  ∀ (s : State) (f : FmtC) (w : Window) (c : Nat), QlReady s (.redAdd .quill f) 1 w c →
    let i := ((w.g f.ra.toNat).toNat + f.idx.toNat) % 256
    let old := (w.waves.find? (fun p => p.1 == i)).map Prod.snd
    let g := w.g f.rd.toNat
    (slRed (s.leaf.slice w.bank c) = false →
      exec (.redAdd .quill f) s = .next { s with leaf := s.leaf.stopChan 3 c (counted w 1) }) ∧
    (slRed (s.leaf.slice w.bank c) = true → w.valid f.rd.toNat = false →
      exec (.redAdd .quill f) s = .next (qlNext s (counted w 1))) ∧
    (slRed (s.leaf.slice w.bank c) = true → w.valid f.rd.toNat = true → i < s.leaf.chain.waveF.toNat →
      (∀ y, old = some y → y.count < 1023) → ∃ v x, exec (.redAdd .quill f) s = .next (qlNext s v) ∧
      (v.waves.find? (fun p => p.1 == i)).map Prod.snd = some x ∧
      (old = none → x = ⟨1, (g.extractLsb' 0 32).toInt, (g.extractLsb' 32 32).toNat, (g.extractLsb' 32 32).toNat⟩) ∧
      (∀ y, old = some y → x = ⟨y.count + 1, y.sum + (g.extractLsb' 0 32).toInt,
        min y.kmin (g.extractLsb' 32 32).toNat, max y.kmax (g.extractLsb' 32 32).toNat⟩)) ∧
    (slRed (s.leaf.slice w.bank c) = true → w.valid f.rd.toNat = true →
      s.leaf.chain.waveF.toNat ≤ i ∨ (∃ y, old = some y ∧ 1023 ≤ y.count) →
      exec (.redAdd .quill f) s =
        .next (qlNext (s.onLeaf (fun l => l.addSat GlR.CH_WAVE_DROP 1)) { counted w 1 with wdrop := true }))

/-- `tree.local` counts 1 + D, and faults without a directory entry or while D is 0; a tree of one leaf node at index e gives
its score and class. -/
def LocalTreeOfOneNode : Prop :=
  ∀ (s : State) (f : FmtX) (w : Window) (c : Nat), QlReady s (.treeLocal .quill f) (1 + s.leaf.lmD) w c →
    let e := s.leaf.lmDir (bits (w.g f.ra.toNat).toNat 13 0)
    let n := s.leaf.lmNode (bits e 13 0)
    (s.leaf.lmD = 0 ∨ bit e 31 = false → exec (.treeLocal .quill f) s =
      .next { s with leaf := s.leaf.stopChan 3 c (counted w (1 + s.leaf.lmD)) }) ∧
    (0 < s.leaf.lmD → bit e 31 = true → s.leaf.isBad (modelCw (bits e 13 0)) = false → ndLeaf n = true →
      exec (.treeLocal .quill f) s = .next (qlNext s ((counted w (1 + s.leaf.lmD)).result f.rd.toNat
        (BitVec.ofNat 64 ((ndScore n).toNat + ndClass n * 2 ^ 32)) [f.ra.toNat])))

/-! ## Jarend: vectors -/

/-- A vector instruction acts on the lanes that its mask selects, keeps the others, and changes no other register. -/
def VectorLaneResult : Prop :=
  (∀ p ∈ vec3Rows, ∀ (s : State) (f : FmtV) (st : BitVec 6) (c : BitVec 2) (x : Ctx),
    StReady s (p.1 (.station st c) f) st c x → ∃ y, exec (p.1 (.station st c) f) s = .next (stNext s st c y) ∧
      (∀ i, i < 64 → y.ln f.vd.toNat i =
        if x.on f.km.toNat i then p.2 (x.ln f.va.toNat i) (x.ln f.vb.toNat i) else x.ln f.vd.toNat i) ∧
      (∀ r, r ≠ f.vd.toNat → tget y.v r = tget x.v r) ∧ y.g = x.g ∧ y.k = x.k ∧ y.pc = x.pc + 1 ∧ y.exec = x.exec + 1) ∧
  (∀ p ∈ vkeyRows, ∀ (s : State) (f : FmtV) (st : BitVec 6) (c : BitVec 2) (x : Ctx),
    StReady s (p.1 (.station st c) f) st c x → ∃ y, exec (p.1 (.station st c) f) s = .next (stNext s st c y) ∧
      (∀ i, i < 64 → y.ln f.vd.toNat i =
        if x.on f.km.toNat i then p.2 (x.ln f.va.toNat i) else x.ln f.vd.toNat i) ∧
      (∀ r, r ≠ f.vd.toNat → tget y.v r = tget x.v r) ∧ y.g = x.g ∧ y.k = x.k)

/-- A comparison sets bit i of kd for each lane of its mask whose condition holds, and clears the others; kd of 8 or above
faults with REGISTER, and a write of k0 is discarded. -/
def VectorCompareWritesMask : Prop :=
  ∀ p ∈ vcmpRows, ∀ (s : State) (f : FmtV) (st : BitVec 6) (c : BitVec 2) (x : Ctx),
    StReady s (p.1 (.station st c) f) st c x →
      (8 ≤ f.vd.toNat → exec (p.1 (.station st c) f) s =
        .next { s with pz := s.pz.faultAct st.toNat c.toNat (issued x) 2 (4 * x.pc) }) ∧
      (f.vd.toNat = 0 → exec (p.1 (.station st c) f) s = .next (stNext s st c (issued x))) ∧
      (0 < f.vd.toNat → f.vd.toNat < 8 → ∃ y, exec (p.1 (.station st c) f) s = .next (stNext s st c y) ∧
        (∀ i, i < 64 → (y.kr f.vd.toNat).getLsbD i =
          (x.on f.km.toNat i && p.2 (x.ln f.va.toNat i) (x.ln f.vb.toNat i))) ∧
        (∀ r, r ≠ f.vd.toNat → y.kr r = x.kr r) ∧ y.v = x.v ∧ y.g = x.g)

/-- `vld` loads the lanes of its mask, and `vst` stores them and leaves every other byte of memory as it was, but for what
drain-ahead copies. -/
def VectorMemory : Prop :=
  ∀ (s : State) (f : FmtW) (st : BitVec 6) (c : BitVec 2) (x : Ctx),
    let a := (x.rg f.ra.toNat + f.off.signExtend 64 * 256).toNat
    (StReady s (.vld (.station st c) f) st c x → Readable s x a 256 4 →
      ∃ y, exec (.vld (.station st c) f) s = .next (stNext s st c y) ∧
        (∀ i, i < 64 → y.ln f.v.toNat i = if x.on f.km.toNat i
          then BitVec.ofNat 32 (ofLe (memBytes s.pz.mem (a + 4 * i) 4)) else x.ln f.v.toNat i) ∧
        (∀ r, r ≠ f.v.toNat → tget y.v r = tget x.v r) ∧ y.g = x.g ∧ y.k = x.k) ∧
    (StReady s (.vst (.station st c) f) st c x → Writable s x a 256 4 → s.pz.snap.now = none →
      ∃ t, exec (.vst (.station st c) f) s = .next t ∧
        (∀ i j, i < 64 → j < 4 → x.on f.km.toNat i = true →
          tget t.pz.mem (a + 4 * i + j) = (x.ln f.v.toNat i).extractLsb' (8 * j) 8) ∧
        (∀ i j, i < 64 → j < 4 → x.on f.km.toNat i = false → tget t.pz.mem (a + 4 * i + j) = tget s.pz.mem (a + 4 * i + j)) ∧
        (∀ b, b < a ∨ a + 256 ≤ b → tget t.pz.mem b = tget s.pz.mem b) ∧
        t.pz.ctxs = (stNext s st c (issued x)).pz.ctxs)

/-- A reduction folds the lanes of its mask into rd. -/
def VectorReduction : Prop :=
  ∀ p ∈ vredRows, ∀ (s : State) (f : FmtX) (st : BitVec 6) (c : BitVec 2) (x : Ctx),
    StReady s (p.1 (.station st c) f) st c x → exec (p.1 (.station st c) f) s =
      .next (stNext s st c ((issued x).put f.rd.toNat (p.2 (lanesIn x f.sel.toNat f.km.toNat))))

/-- `vsplat` fills every lane, `vins` one lane, `vext` reads one, `vmov` copies a register; a v-register field of 16 or above
in `vmov` faults with REGISTER. -/
def VectorMoves : Prop :=
  ∀ (s : State) (f : FmtX) (st : BitVec 6) (c : BitVec 2) (x : Ctx),
    (StReady s (.vsplat (.station st c) f) st c x → ∃ y, exec (.vsplat (.station st c) f) s = .next (stNext s st c y) ∧
      (∀ i, i < 64 → y.ln f.sel.toNat i = (x.rg f.ra.toNat).setWidth 32) ∧ y.g = x.g ∧ y.k = x.k ∧
      ∀ r, r ≠ f.sel.toNat → tget y.v r = tget x.v r) ∧
    (StReady s (.vins (.station st c) f) st c x → ∃ y, exec (.vins (.station st c) f) s = .next (stNext s st c y) ∧
      (∀ i, i < 64 → y.ln f.sel.toNat i =
        if i = (x.rg f.rd.toNat).toNat % 64 then (x.rg f.ra.toNat).setWidth 32 else x.ln f.sel.toNat i) ∧
      y.g = x.g ∧ y.k = x.k ∧ ∀ r, r ≠ f.sel.toNat → tget y.v r = tget x.v r) ∧
    (StReady s (.vext (.station st c) f) st c x → exec (.vext (.station st c) f) s = .next (stNext s st c
      ((issued x).put f.rd.toNat ((x.ln f.sel.toNat ((x.rg f.ra.toNat).toNat % 64)).setWidth 64)))) ∧
    (StReady s (.vmov (.station st c) f) st c x →
      (16 ≤ f.rd.toNat → exec (.vmov (.station st c) f) s =
        .next { s with pz := s.pz.faultAct st.toNat c.toNat (issued x) 2 (4 * x.pc) }) ∧
      (f.rd.toNat < 16 → ∃ y, exec (.vmov (.station st c) f) s = .next (stNext s st c y) ∧
        (∀ i, i < 64 → y.ln f.rd.toNat i = x.ln f.sel.toNat i) ∧ y.g = x.g ∧
        ∀ r, r ≠ f.rd.toNat → tget y.v r = tget x.v r))

/-- The group reads of the Quill engine, of banks that are connected and of those that are not. -/
def GroupReadInstructions : Prop := GroupReadTakesSampleSet ∧ GroupReadEdges

/-- Contributions to a wave, and the local model's traversal where it is one node deep. -/
def WaveAndLocalTree : Prop := WaveContributionCounts ∧ LocalTreeOfOneNode

/-! ## Jarend: statistics, reductions, digests -/

/-- `stat.med` gives the lower median of the selected keys and their number, `stat.mad` the median and the lower median of the
distances from it; without a key they give the NaN key and zero. -/
def MedianOfLanes : Prop :=
  ∀ (s : State) (f : FmtX) (st : BitVec 6) (c : BitVec 2) (x : Ctx),
    let ks := pickKeys x f.sel.toNat (x.rg f.ra.toNat)
    let j := (ks.length - 1) / 2
    let put : Nat → State := fun v => stNext s st c ((issued x).put f.rd.toNat (BitVec.ofNat 64 v))
    (StReady s (.statMed (.station st c) f) st c x →
      (ks = [] → exec (.statMed (.station st c) f) s = .next (put 0xFFFFFFFF)) ∧
      (ks ≠ [] → ∃ m, AtRank ks j m ∧ exec (.statMed (.station st c) f) s = .next (put (m + ks.length * 2 ^ 32)))) ∧
    (StReady s (.statMad (.station st c) f) st c x →
      (ks = [] → exec (.statMad (.station st c) f) s = .next (put 0xFFFFFFFF)) ∧
      (ks ≠ [] → ∃ m d, AtRank ks j m ∧ AtRank (ks.map (fun k : Nat => ((k : Int) - m).natAbs)) j d ∧
        exec (.statMad (.station st c) f) s = .next (put (m + d * 2 ^ 32))))

/-- `stat.qs.add` without a halving point adds every key that is not the NaN key to its bin and to N, both saturating, and
answers how many; `stat.qs.q` answers the upper edge of the first bin whose cumulative count reaches the rank, and the NaN
key for an empty sketch. -/
def SketchCountsAndRanks : Prop :=
  ∀ (s : State) (f : FmtX) (st : BitVec 6) (c : BitVec 2) (x : Ctx),
    let a := (x.rg f.ra.toNat).toNat
    let cnt : Pz → Nat → Nat := fun z b => num z (a + 0x100 + 4 * b) 4
    let lo := num s.pz a 4
    let sh := min 20 (num s.pz (a + 4) 1)
    (StReady s (.statQsAdd (.station st c) f) st c x → Writable s x a 16640 256 → Readable s x a 16640 256 →
      s.pz.snap.now = none → num s.pz (a + 0xC) 4 = 0 → ∃ t, exec (.statQsAdd (.station st c) f) s = .next t ∧
        let ks := pickKeys x f.sel.toNat 0
        (∀ b, b < 4096 → cnt t.pz b =
          min 0xFFFFFFFF (cnt s.pz b + (ks.filter (fun k => decide (sketchBin lo sh k = b))).length)) ∧
        num t.pz (a + 8) 4 = min 0xFFFFFFFF (num s.pz (a + 8) 4 + ks.length) ∧
        (∀ b, b < a ∨ a + 16640 ≤ b → tget t.pz.mem b = tget s.pz.mem b) ∧
        t.pz.ctxs = (stNext s st c ((issued x).put f.rd.toNat (BitVec.ofNat 64 ks.length))).pz.ctxs) ∧
    (StReady s (.statQsQ (.station st c) f) st c x → Readable s x a 16640 256 →
      let n := num s.pz (a + 8) 4
      let r := max 1 (((x.rg f.rd.toNat).toNat % 65536 * n + 65535) / 65536)
      let upto : Nat → Nat := fun b => ((List.range (b + 1)).map (cnt s.pz)).sum
      let put : Word → State := fun w => stNext s st c ((issued x).put f.rd.toNat (w.setWidth 64))
      (n = 0 → exec (.statQsQ (.station st c) f) s = .next (put 0xFFFFFFFF)) ∧
      (∀ b, 0 < n → b < 4096 → r ≤ upto b → (∀ b', b' < b → upto b' < r) →
        exec (.statQsQ (.station st c) f) s = .next (put (BitVec.ofNat 32 (binEdge lo sh b)))))

/-- `stat.ewma` updates mean and variance of every lane that is not the NaN key, in fp32, and answers how many lanes. -/
def EwmaUpdatesLanes : Prop :=
  ∀ (s : State) (f : FmtX) (st : BitVec 6) (c : BitVec 2) (x : Ctx),
    let a := (x.rg f.ra.toNat).toNat
    let sh := max 1 ((x.rg f.rd.toNat).toNat % 16)
    let al : Word := BitVec.ofNat 32 ((127 - sh) * 2 ^ 23)
    let mean : Pz → Nat → Word := fun z i => BitVec.ofNat 32 (num z (a + 4 * i) 4)
    let var : Pz → Nat → Word := fun z i => BitVec.ofNat 32 (num z (a + 256 + 4 * i) 4)
    StReady s (.statEwma (.station st c) f) st c x → Writable s x a 512 256 → Readable s x a 512 256 →
    s.pz.snap.now = none → ∃ t, exec (.statEwma (.station st c) f) s = .next t ∧
      (∀ i, i < 64 → x.ln f.sel.toNat i ≠ 0xFFFFFFFF →
        let d := f32Add (unkeyF32 (x.ln f.sel.toNat i)) (mean s.pz i ^^^ 0x80000000)
        mean t.pz i = f32Add (mean s.pz i) (f32Mul al d) ∧
        var t.pz i = f32Mul (f32Add 0x3F800000 (al ^^^ 0x80000000)) (f32Add (var s.pz i) (f32Mul al (f32Mul d d)))) ∧
      (∀ i, i < 64 → x.ln f.sel.toNat i = 0xFFFFFFFF → mean t.pz i = mean s.pz i ∧ var t.pz i = var s.pz i) ∧
      (∀ b, b < a ∨ a + 512 ≤ b → tget t.pz.mem b = tget s.pz.mem b) ∧
      t.pz.ctxs = (stNext s st c ((issued x).put f.rd.toNat
        (BitVec.ofNat 64 ((List.range 64).filter (fun i => decide (x.ln f.sel.toNat i ≠ 0xFFFFFFFF))).length))).pz.ctxs

/-- The reductions of a block: `rdx.add` adds to count and sum of the selected lanes, `rdx.min` and `rdx.max` fold their keys,
`rdx.close` copies the block to the 1,536 bytes after it, resets it and answers the sum of its counts. -/
def BlockReduction : Prop :=
  ∀ (s : State) (f : FmtX) (st : BitVec 6) (c : BitVec 2) (x : Ctx),
    let a := (x.rg f.ra.toNat).toNat
    let m := x.rg f.rd.toNat
    let on : Nat → Bool := fun i => decide (m = 0) || m.getLsbD i
    let v : Nat → Word := fun i => x.ln f.sel.toNat i
    let same : Pz → Nat → Nat → Prop := fun z lo hi => ∀ b, b < lo ∨ hi ≤ b → tget z.mem b = tget s.pz.mem b
    s.pz.snap.now = none →
    (StReady s (.rdxAdd (.station st c) f) st c x → Writable s x a 1536 256 → Readable s x a 1536 256 →
      ∃ t, exec (.rdxAdd (.station st c) f) s = .next t ∧ same t.pz a (a + 1536) ∧ ∀ i, i < 64 →
        num t.pz (a + 24 * i) 4 = (num s.pz (a + 24 * i) 4 + b2n (on i)) % 2 ^ 32 ∧
        num t.pz (a + 24 * i + 16) 8 = (num s.pz (a + 24 * i + 16) 8 +
          (if on i then ((v i).signExtend 64).toNat else 0)) % 2 ^ 64 ∧
        num t.pz (a + 24 * i + 4) 8 = num s.pz (a + 24 * i + 4) 8) ∧
    (StReady s (.rdxMin (.station st c) f) st c x → Writable s x a 1536 256 → Readable s x a 1536 256 →
      ∃ t, exec (.rdxMin (.station st c) f) s = .next t ∧ same t.pz a (a + 1536) ∧ ∀ i, i < 64 →
        num t.pz (a + 24 * i + 4) 4 = if on i then min (num s.pz (a + 24 * i + 4) 4) (v i).toNat
          else num s.pz (a + 24 * i + 4) 4) ∧
    (StReady s (.rdxMax (.station st c) f) st c x → Writable s x a 1536 256 → Readable s x a 1536 256 →
      ∃ t, exec (.rdxMax (.station st c) f) s = .next t ∧ same t.pz a (a + 1536) ∧ ∀ i, i < 64 →
        num t.pz (a + 24 * i + 8) 4 = if on i then max (num s.pz (a + 24 * i + 8) 4) (v i).toNat
          else num s.pz (a + 24 * i + 8) 4) ∧
    (StReady s (.rdxClose (.station st c) f) st c x → Writable s x a 3072 256 → Readable s x a 3072 256 →
      ∃ t, exec (.rdxClose (.station st c) f) s = .next t ∧ same t.pz a (a + 3072) ∧
        memBytes t.pz.mem (a + 1536) 1536 = memBytes s.pz.mem a 1536 ∧
        (∀ i, i < 64 → memBytes t.pz.mem (a + 24 * i) 24 =
          [0, 0, 0, 0, 0xFF, 0xFF, 0xFF, 0xFF, 0, 0, 0, 0, 0, 0, 0, 0, 0, 0, 0, 0, 0, 0, 0, 0]) ∧
        t.pz.ctxs = (stNext s st c ((issued x).put f.rd.toNat (BitVec.ofNat 64
          ((List.range 64).map (fun i => num s.pz (a + 24 * i) 4)).sum))).pz.ctxs)

/-! ## Jarend: streams, trees, epochs, emit -/

/-- `str.pop` copies the oldest item and removes it, `str.peek` leaves it, `str.skip` removes items, `str.len` counts them;
on an empty stream `str.pop` waits as class TW and `str.peek` answers 0; an unbound stream faults with STREAM. -/
def StreamAccess : Prop :=
  ∀ (s : State) (f : FmtX) (st : BitVec 6) (c : BitVec 2) (x : Ctx) (b : Bind),
    let a := (x.rg f.ra.toNat).toNat
    let q := s.pz.slot st.toNat x.slot.toNat
    let items := q.items f.sel.toNat
    q.active = some x.image →
    (x.image.bind f.sel.toNat = none → StReady s (.strPop (.station st c) f) st c x →
      exec (.strPop (.station st c) f) s = .next { s with pz := s.pz.faultAct st.toNat c.toNat (issued x) 7 (4 * x.pc) }) ∧
    (x.image.bind f.sel.toNat = some b →
      (StReady s (.strPop (.station st c) f) st c x → a % 64 = 0 → items = [] →
        exec (.strPop (.station st c) f) s =
          .next (stNext s st c { issued x with wait := some (.strPop (.station st c) f, s.pz.now) })) ∧
      (∀ it rest, items = it :: rest → StReady s (.strPop (.station st c) f) st c x →
        s.pz.accessFault x a it.bytes.length 64 true = none → s.pz.badIn a it.bytes.length = none → a % 64 = 0 →
        ∃ t, exec (.strPop (.station st c) f) s = .next t ∧ memBytes t.pz.mem a it.bytes.length = it.bytes ∧
          (t.pz.slot st.toNat x.slot.toNat).items f.sel.toNat = rest ∧
          ∃ y, t.pz.ctx st.toNat c.toNat = some y ∧ y.g = ((issued x).put f.rd.toNat
            (BitVec.ofNat 64 it.bytes.length)).g ∧ y.pc = x.pc + 1) ∧
      (StReady s (.strPeek (.station st c) f) st c x → a % 64 = 0 → items = [] →
        exec (.strPeek (.station st c) f) s = .next (stNext s st c ((issued x).put f.rd.toNat 0))) ∧
      (∀ it rest, items = it :: rest → StReady s (.strPeek (.station st c) f) st c x →
        s.pz.accessFault x a it.bytes.length 64 true = none → s.pz.badIn a it.bytes.length = none → a % 64 = 0 →
        ∃ t, exec (.strPeek (.station st c) f) s = .next t ∧ memBytes t.pz.mem a it.bytes.length = it.bytes ∧
          (t.pz.slot st.toNat x.slot.toNat).items f.sel.toNat = items ∧
          t.pz.ctxs = (stNext s st c ((issued x).put f.rd.toNat (BitVec.ofNat 64 it.bytes.length))).pz.ctxs) ∧
      (StReady s (.strSkip (.station st c) f) st c x → (∀ it ∈ items, it.ask = none) →
        ∃ t, exec (.strSkip (.station st c) f) s = .next t ∧
          (t.pz.slot st.toNat x.slot.toNat).items f.sel.toNat = items.drop a ∧
          t.pz.ctxs = (stNext s st c ((issued x).put f.rd.toNat (BitVec.ofNat 64 (min a items.length)))).pz.ctxs ∧
          t.pz.mem = s.pz.mem) ∧
      (StReady s (.strLen (.station st c) f) st c x → exec (.strLen (.station st c) f) s =
        .next (stNext s st c ((issued x).put f.rd.toNat (BitVec.ofNat 64 items.length)))))

/-- `str.push` offers 64 bytes to the lowest PEER stream of a slot: they enter while it has room and rd is 1, else they are
dropped, counted, and rd is 0; without a PEER stream it faults with STREAM. -/
def PeerPushAndDrop : Prop :=
  ∀ (s : State) (f : FmtX) (st : BitVec 6) (c : BitVec 2) (x : Ctx), StReady s (.strPush (.station st c) f) st c x →
    let a := (x.rg f.ra.toNat).toNat
    let t' := bits (x.rg f.rd.toNat).toNat 13 8
    let p := bits (x.rg f.rd.toNat).toNat 3 0
    let q := s.pz.slot t' p
    (∀ im, q.active = some im → im.lowest 6 = none → exec (.strPush (.station st c) f) s =
      .next { s with pz := s.pz.faultAct st.toNat c.toNat (issued x) 7 (4 * x.pc) }) ∧
    (∀ im d b, q.active = some im → im.lowest 6 = some (d, b) → Readable s x a 64 64 →
      ((q.items d).length < b.depth → ∃ t, exec (.strPush (.station st c) f) s = .next t ∧
        (t.pz.slot t' p).items d = q.items d ++ [⟨memBytes s.pz.mem a 64, s.pz.now, none⟩] ∧
        t.pz.ctxs = (stNext s st c ((issued x).put f.rd.toNat 1)).pz.ctxs ∧ t.pz.mem = s.pz.mem) ∧
      (b.depth ≤ (q.items d).length → exec (.strPush (.station st c) f) s =
        .next (stNext (s.onPz (fun z => z.addMod (PzR.PG_DROP_COUNT.at (slotOff t' p)) 1)) st c
          ((issued x).put f.rd.toNat 0))))

/-- `tree.launch` reads its features and the model's active trees, answers the slot's next tag and counts it outstanding;
without room in the TREE stream it waits; `tree.wait` completes once no tag up to its limit is outstanding, and `tree.sum`
pops n items and adds their scores, or answers 0 for n out of 1 to 64. -/
def LaunchWaitAndSum : Prop :=
  ∀ (s : State) (f : FmtX) (st : BitVec 6) (c : BitVec 2) (x : Ctx),
    let a := (x.rg f.ra.toNat).toNat
    let q := s.pz.slot st.toNat x.slot.toNat
    q.active = some x.image →
    (∀ m d b, StReady s (.treeLaunch (.station st c) f) st c x → f.sel.toNat < 8 →
      s.pz.modelOf (x.image.models.getD f.sel.toNat 0) = some m → x.image.lowest 5 = some (d, b) →
      Readable s x a (4 * m.nf) 4 →
      ((q.items d).length + q.out.length < b.depth → s.pz.storeUsed (st.toNat / 4) + 4 * m.nf ≤ 8388608 →
        ∃ t l, exec (.treeLaunch (.station st c) f) s = .next t ∧ t.pz.launches = s.pz.launches ++ [l] ∧
          l.tag = q.tag ∧ l.model = m.id ∧ l.trees = m.old ++ m.trees ∧
          l.feats = (List.range m.nf).map (fun i => BitVec.ofNat 32 (num s.pz (a + 4 * i) 4)) ∧
          (t.pz.slot st.toNat x.slot.toNat).tag = q.tag + 1 ∧
          (t.pz.slot st.toNat x.slot.toNat).out = q.out ++ [q.tag] ∧
          t.pz.ctxs = (stNext s st c ((issued x).put f.rd.toNat (q.tag.setWidth 64))).pz.ctxs) ∧
      (b.depth ≤ (q.items d).length + q.out.length → exec (.treeLaunch (.station st c) f) s =
        .next (stNext s st c { issued x with wait := some (.treeLaunch (.station st c) f, s.pz.now) }))) ∧
    (StReady s (.treeWait (.station st c) f) st c x →
      ((∀ t ∈ q.out, laterCfg t ((x.rg f.ra.toNat).setWidth 16) = true) → exec (.treeWait (.station st c) f) s =
        .next (stNext s st c ((issued x).put f.rd.toNat (BitVec.ofNat 64 q.out.length)))) ∧
      ((∃ t ∈ q.out, laterCfg t ((x.rg f.ra.toNat).setWidth 16) = false) → exec (.treeWait (.station st c) f) s =
        .next (stNext s st c { issued x with wait := some (.treeWait (.station st c) f, s.pz.now) }))) ∧
    (∀ b, StReady s (.treeSum (.station st c) f) st c x → x.image.bind f.sel.toNat = some b →
      (a = 0 ∨ 64 < a → exec (.treeSum (.station st c) f) s = .next (stNext s st c ((issued x).put f.rd.toNat 0))) ∧
      (0 < a → a ≤ 64 → a ≤ (q.items f.sel.toNat).length → ∃ t, exec (.treeSum (.station st c) f) s = .next t ∧
        (t.pz.slot st.toNat x.slot.toNat).items f.sel.toNat = (q.items f.sel.toNat).drop a ∧
        t.pz.ctxs = (stNext s st c ((issued x).put f.rd.toNat ((f32Sum (((q.items f.sel.toNat).take a).map
          (fun i => BitVec.ofNat 32 (ofLe (slice i.bytes 0 4))))).setWidth 64))).pz.ctxs))

/-- `emit.alarm` takes a credit and answers 1, or is suppressed, counted and answers 0; a code below 0x0100 raises nothing
and answers 0; on a leaf the channel needs ALM. -/
def EmitAlarmTakesCredit : Prop :=
  (∀ (s : State) (f : FmtX) (st : BitVec 6) (c : BitVec 2) (x : Ctx), StReady s (.emitAlarm (.station st c) f) st c x →
    let code := (x.rg f.ra.toNat).toNat % 65536
    let q := s.pz.slot st.toNat x.slot.toNat
    let ans : DWord → Tbl (Option Ctx) := fun v => (stNext s st c ((issued x).put f.rd.toNat v)).pz.ctxs
    (code < 0x100 → ∃ t, exec (.emitAlarm (.station st c) f) s = .next t ∧ t.pz.ctxs = ans 0 ∧ t.pz.alarmQ = s.pz.alarmQ ∧
      t.pz.slots = s.pz.slots ∧ t.pz.out = s.pz.out) ∧
    (0x100 ≤ code → q.spent < 64 → ∃ t, exec (.emitAlarm (.station st c) f) s = .next t ∧ t.pz.ctxs = ans 1 ∧
      (t.pz.slot st.toNat x.slot.toNat).spent = q.spent + 1 ∧ t.pz.ctl.aseq = s.pz.ctl.aseq + 1) ∧
    (0x100 ≤ code → 64 ≤ q.spent → ∃ t, exec (.emitAlarm (.station st c) f) s = .next t ∧ t.pz.ctxs = ans 0 ∧
      (t.pz.slot st.toNat x.slot.toNat).supp = true ∧ t.pz.alarmQ = s.pz.alarmQ ∧
      t.pz.fld (PzR.ST_EGDROP_ALMSUPP.at (0x400 * st.toNat)) =
        min (s.pz.fld (PzR.ST_EGDROP_ALMSUPP.at (0x400 * st.toNat)) + 1) 0xFFFF)) ∧
  (∀ (s : State) (f : FmtX) (w : Window) (c : Nat), QlReady s (.emitAlarm .quill f) 1 w c →
    slAlm (s.leaf.slice w.bank c) = false →
    exec (.emitAlarm .quill f) s = .next { s with leaf := s.leaf.stopChan 3 c (counted w 1) })

/-- A program's record body out of range sends nothing, answers 0 and makes a record; a good verdict or advisory whose
queue has room goes out and answers 1; `emit.reply` answers the message popped last once, and 0 when none wants a reply. -/
def EmitRecords : Prop :=
  (∀ p ∈ ([(false, .emitVerdict), (true, .emitAdv)] : List (Bool × (Engine → FmtX → Instr))),
    ∀ (s : State) (f : FmtX) (st : BitVec 6) (c : BitVec 2) (x : Ctx), StReady s (p.2 (.station st c) f) st c x →
    let a := (x.rg f.ra.toNat).toNat
    let w := num s.pz a 4
    Readable s x a 4 4 →
    (w % 65536 < 8 ∨ 1024 < w % 65536 → ∃ t, exec (p.2 (.station st c) f) s = .next t ∧ t.pz.out = s.pz.out ∧
      t.pz.recQ = s.pz.recQ ∧ t.pz.ctxs = (stNext s st c ((issued x).put f.rd.toNat 0)).pz.ctxs) ∧
    (8 ≤ w % 65536 → w % 65536 ≤ 1024 → 0x80 ≤ w / 65536 → w / 65536 ≤ 0xBF → Readable s x a (w % 65536) 4 →
      (s.pz.recQ.filter (fun r => !r.1)).length < 3584 → s.pz.recQ.length < 4096 →
      ∃ t, exec (p.2 (.station st c) f) s = .next t ∧ t.pz.ctl.rseq = s.pz.ctl.rseq + 1 ∧
        t.pz.ctxs = (stNext s st c ((issued x).put f.rd.toNat 1)).pz.ctxs ∧ t.pz.mem = s.pz.mem)) ∧
  (∀ (s : State) (f : FmtX) (st : BitVec 6) (c : BitVec 2) (x : Ctx), StReady s (.emitTrace (.station st c) f) st c x →
    let a := (x.rg f.ra.toNat).toNat
    let w := num s.pz a 4
    4 ≤ w % 65536 → w % 65536 ≤ 4072 → 1 ≤ w / 65536 → w / 65536 ≤ 0xCF → Readable s x a 4 4 →
    Readable s x a (w % 65536) 4 → ∃ t, exec (.emitTrace (.station st c) f) s = .next t ∧ t.freeCtr = s.freeCtr + 1 ∧
      t.pz.mem = s.pz.mem ∧ ∃ v, (v = 0 ∨ v = 1) ∧
        t.pz.ctxs = (stNext s st c ((issued x).put f.rd.toNat v)).pz.ctxs ∧
        (v = 1 → tget t.pz.ctl.tseqs st.toNat = tget s.pz.ctl.tseqs st.toNat + 1) ∧
        (v = 0 → t.pz.fld (PzR.ST_EGDROP_TRACE.at (0x400 * st.toNat)) =
          min (s.pz.fld (PzR.ST_EGDROP_TRACE.at (0x400 * st.toNat)) + 1) 0xFFFF)) ∧
  (∀ (s : State) (f : FmtX) (st : BitVec 6) (c : BitVec 2) (x : Ctx), StReady s (.emitReply (.station st c) f) st c x →
    Readable s x (x.rg f.ra.toNat).toNat 56 4 →
    (x.cur = none → exec (.emitReply (.station st c) f) s = .next (stNext s st c ((issued x).put f.rd.toNat 0))) ∧
    (∀ m, x.cur = some m → ∃ t y, exec (.emitReply (.station st c) f) s = .next t ∧ t.pz.ctx st.toNat c.toNat = some y ∧
      y.cur = none ∧ m ∉ y.asks ∧ y.g = ((issued x).put f.rd.toNat 1).g))

/-! ## The leaf: resets and isolation -/

/-- A power-on reset, or the supply monitor's, puts every register at its reset value, discards what the leaf held, and keeps
what is hardened or blown (R56, R62); a leaf held in reset powers up to READY with cause 1; a warm reset keeps the program
pages and re-runs the sequence; none of them reaches Polornaz. -/
def LeafResets : Prop :=
  ∀ (s : State),
    (∀ i ∈ [Instr.leafPowerOnReset, Instr.supplyMonitorReset], ∃ t, exec i s = .next t ∧
      (∀ o, t.leaf.reg o = glReset o) ∧ t.leaf.cap = default ∧ t.leaf.quill = default ∧ t.leaf.time = default ∧
      t.leaf.iw = default ∧ t.leaf.ul = default ∧ t.leaf.peat = s.leaf.peat ∧ t.leaf.hard = s.leaf.hard ∧
      t.leaf.pins.porN = false ∧ t.pz = s.pz) ∧
    (s.leaf.pins.porN = false → ∃ t, exec .leafPowerUp s = .next t ∧ t.leaf.flag GlR.IDENT_STATUS_READY = true ∧
      t.leaf.fld GlR.IDENT_STATUS_RESET_CAUSE = 1 ∧ t.leaf.pins.porN = true ∧ t.leaf.hard = s.leaf.hard) ∧
    (s.leaf.pins.porN = true → exec .leafPowerUp s = .next s) ∧
    (∀ cause torn, s.leaf.pins.porN = true → ∃ t, exec (.warmReset cause torn) s = .next t ∧
      t.leaf.flag GlR.IDENT_STATUS_READY = true ∧ t.leaf.hard = s.leaf.hard ∧
      t.leaf.fld GlR.IDENT_STATUS_RESET_CAUSE = (if cause = 3 then 3 else 2) ∧
      (∀ k, k < 2048 * 40 → tget t.leaf.quill.pages k = tget s.leaf.quill.pages k) ∧
      t.leaf.quill.win = none ∧ t.leaf.quill.arming = none ∧ t.leaf.pins.hostIsoN = s.leaf.pins.hostIsoN) ∧
    (∀ cause torn, s.leaf.pins.porN = false → exec (.warmReset cause torn) s = .next s)

/-- The level of `host_iso_n` is shown in HOST_ISO; while it is low the banks' lines, their strobes and the value ports are
idle (R51, R79). -/
def HostIsolation : Prop :=
  ∀ (s : State),
    (∀ level, ∃ t, exec (.hostIsoChange level) s = .next t ∧ t.leaf.pins.hostIsoN = level ∧
      t.leaf.flag GlR.IDENT_STATUS_HOST_ISO = !level ∧ t.pz = s.pz) ∧
    (s.leaf.pins.hostIsoN = false →
      (∀ i tag data, exec (.valuePortHandshake i tag data) s = .next s) ∧
      (∀ b c st, exec (.strobeItem b c st) s = exec (.strobeItem b { c with lines := [] } []) s))

/-! ## The leaf: event capture -/

/-- An edge counts in its front-end, and with a strobe, a marker, a stop request or the 256th edge it makes an item, which
enters the crossing queue while an ordinary entry is free; the counts start again at zero (R65, R66). -/
def FrontEndMakesItems : Prop :=
  ∀ (s : State) (b : BitVec 4) (c : EdgeCounts) (st : List Strobe),
    let f := tget s.leaf.cap.front b.toNat
    s.leaf.bankOn b.toNat = true → s.leaf.pins.hostIsoN = true →
    f.hold = [] → f.queue.length < 28 → f.stopReq = false →
    (f.edges + c.edges < 256 → ∃ t, exec (.periodicItem b c) s = .next t ∧
      (tget t.leaf.cap.front b.toNat).edges = f.edges + c.edges ∧ (tget t.leaf.cap.front b.toNat).queue = f.queue ∧
      t.leaf.cap.core = s.leaf.cap.core ∧ t.leaf.regs = s.leaf.regs) ∧
    (256 ≤ f.edges + c.edges → ∃ t it, exec (.periodicItem b c) s = .next t ∧
      (tget t.leaf.cap.front b.toNat).queue = f.queue ++ [it] ∧ it.edges = f.edges + c.edges ∧ it.markers = [] ∧
      (tget t.leaf.cap.front b.toNat).edges = 0 ∧ (tget t.leaf.cap.front b.toNat).lines = []) ∧
    (s.leaf.strobesAt b.toNat st ≠ [] → ∃ t it, exec (.strobeItem b c st) s = .next t ∧
      (tget t.leaf.cap.front b.toNat).queue = f.queue ++ [it] ∧ it.edges = f.edges + c.edges ∧ it.markers = [] ∧
      it.starts = ((s.leaf.strobesAt b.toNat st).filter (fun x => x.start)).map (fun x => x.stream) ∧
      (tget t.leaf.cap.front b.toNat).toMark = f.toMark) ∧
    (f.toMark ≠ [] → ∃ t it, exec (.markerItem b c st) s = .next t ∧
      (tget t.leaf.cap.front b.toNat).queue = f.queue ++ [it] ∧ it.markers = f.toMark ∧
      (tget t.leaf.cap.front b.toNat).toMark = []) ∧
    (∃ t it, exec (.evStopReq b c st) s = .next t ∧ (tget t.leaf.cap.front b.toNat).queue = f.queue ++ [it] ∧
      (tget t.leaf.cap.front b.toNat).stopReq = true ∧ (tget t.leaf.cap.front b.toNat).edges = 0)

/-- The stop handshake (R40): the acknowledgement rises once everything sampled has crossed, its release starts the clock;
a marker item that waits enters once an entry is free; a bank that stopped without the handshake has its markers taken by the
core after the timeout, with HELD in its groups, and its control writes acknowledged with CLR_PEND. -/
def BankClockStops : Prop :=
  ∀ (s : State) (b : BitVec 4),
    let f := tget s.leaf.cap.front b.toNat
    (∀ stopped, f.stopReq = true → f.queue = [] → f.hold = [] → f.edges = 0 → ∃ t, exec (.evStopAck b stopped) s = .next t ∧
      (tget t.leaf.cap.front b.toNat).stopAck = true ∧
      (stopped = true → (tget t.leaf.cap.front b.toNat).clk = .stoppedAck)) ∧
    (∀ stopped, f.stopReq = false ∨ f.queue ≠ [] → ∃ t, exec (.evStopAck b stopped) s = .next t ∧
      (tget t.leaf.cap.front b.toNat).stopAck = f.stopAck) ∧
    (∃ t, exec (.evStopRelease b) s = .next t ∧ (tget t.leaf.cap.front b.toNat).clk = .running ∧
      (tget t.leaf.cap.front b.toNat).stopReq = false ∧ (tget t.leaf.cap.front b.toNat).queue = f.queue) ∧
    (∀ it rest, f.hold = it :: rest → f.queue.length < 32 → ∃ t, exec (.markerHoldRelease b) s = .next t ∧
      (tget t.leaf.cap.front b.toNat).queue = f.queue ++ [it] ∧ (tget t.leaf.cap.front b.toNat).hold = rest) ∧
    (∀ g, g ∈ bankGroups b.toNat → (∃ m ∈ f.toMark, ∃ n, m = .instant n) → ∃ t, exec (.markerTimeout b) s = .next t ∧
      (tget t.leaf.cap.front b.toNat).clk = .stoppedDead ∧ t.leaf.flag (GlR.CG_STAT_HELD.at (0x50 * g)) = true) ∧
    (∀ ch, BankMarker.control ch ∈ f.toMark → ∃ t, exec (.controlWriteTimeout b) s = .next t ∧
      t.leaf.flag (GlR.CG_STAT_CLR_PEND.at (0x50 * ch.group.toNat)) = true ∧ t.leaf.cap.core = s.leaf.cap.core)

/-- What the core does with the oldest item: it leaves the queue, an enabled slot of an enabled group gains its counts modulo
2^48, streams become those of the item, and an instant marker copies the bank into the sample set (R63, R68, R76). -/
def CoreAppliesItems : Prop :=
  ∀ (s : State) (b : BitVec 4) (it : Item) (rest : List Item),
    (tget s.leaf.cap.front b.toNat).queue = it :: rest → it.fins = [] → it.starts = [] → it.streams = [] →
    (it.markers = [] → ∃ t, exec (.coreApplyItem b) s = .next t ∧ (tget t.leaf.cap.front b.toNat).queue = rest ∧
      (∀ g n, g ∈ bankGroups b.toNat → n < 9 →
        let old := (tget (tget s.leaf.cap.core b.toNat).cnt (9 * (g % 16) + n)).toNat
        let k := if n = 0 then it.edges else tget it.lines (s.leaf.fld (GlR.CG_HI_LINE.at (0x50 * g + 8 * n)))
        (tget (tget t.leaf.cap.core b.toNat).cnt (9 * (g % 16) + n)).toNat =
          if s.leaf.flag (GlR.CG_CTL_EN.at (0x50 * g)) && s.leaf.flag (GlR.CG_HI_EN.at (0x50 * g + 8 * n))
          then (old + k) % 2 ^ 48 else old) ∧
      t.leaf.cap.sample = s.leaf.cap.sample) ∧
    (∀ m, it.markers = [.instant m] → b ∈ s.leaf.cap.instWait → ∃ t, exec (.coreApplyItem b) s = .next t ∧
      tget t.leaf.cap.sample b.toNat = tget t.leaf.cap.core b.toNat ∧ b ∉ t.leaf.cap.instWait)

/-- Writes of a group's control word: a binding to a stream of another bank is refused with BIND_ERR and leaves CMD_EN and
CMD, otherwise the fields, or a clear, go to the bank in a control marker; a bank whose clock stopped after the handshake
takes them at once (R70 to R73); a slot's settings go the same way. -/
def GroupControlWrites : Prop :=
  ∀ (s : State) (g : BitVec 8) (p : Port) (data : Word),
    let d := 0x50 * g.toNat
    let b := g.toNat / 16
    let f := tget s.leaf.cap.front b
    s.leaf.verdict p (0x4048 + d) true = .pass → s.leaf.bankOn b = true → f.clk = .running →
    (data.getLsbD 27 = false ∨ s.leaf.streamBank (bits data.toNat 26 23) = b →
      ∃ t, exec (.cgControlWrite g none p data) s = .next t ∧
        (tget t.leaf.cap.front b).toMark = f.toMark ++ [.control ⟨g, some data, none, data.getLsbD 20⟩] ∧
        t.leaf.fld (GlR.CG_CTL_VIEW.at d) = bits data.toNat 30 28 ∧
        t.leaf.fld (GlR.CG_CTL_USER_RD.at d) = bits data.toNat 21 21 ∧
        t.leaf.fld (GlR.CG_CTL_EN.at d) = s.leaf.fld (GlR.CG_CTL_EN.at d)) ∧
    (s.leaf.streamBank (bits data.toNat 26 23) ≠ b → ∃ t, exec (.cgBind g p data) s = .next t ∧
      t.leaf.flag (GlR.CG_STAT_BIND_ERR.at d) = true ∧ t.leaf.fld (GlR.CG_CTL_CMD.at d) = s.leaf.fld (GlR.CG_CTL_CMD.at d)) ∧
    (s.leaf.streamBank (bits data.toNat 26 23) = b → ∃ t ch w, exec (.cgBind g p data) s = .next t ∧
      (tget t.leaf.cap.front b).toMark = f.toMark ++ [.control ch] ∧ ch.ctl = some w ∧ w.getLsbD 27 = true ∧
      bits w.toNat 26 23 = bits data.toNat 26 23 ∧ ch.group = g) ∧
    (∃ t ch, exec (.cgClear g p data) s = .next t ∧ (tget t.leaf.cap.front b).toMark = f.toMark ++ [.control ch] ∧
      ch.clr = true ∧ ch.group = g ∧ ch.slot = none) ∧
    (∀ n : BitVec 4, n.toNat ≤ 8 → s.leaf.verdict p (0x4004 + d + 8 * n.toNat) true = .pass →
      ∃ t, exec (.cgControlWrite g (some n) p data) s = .next t ∧
        (tget t.leaf.cap.front b).toMark = f.toMark ++ [.control ⟨g, none, some (n.toNat, data), false⟩] ∧
        t.leaf.regs = s.leaf.regs)

/-- A handshake of a connected value port (R41, R82): tags 0 to 2 keep the word, 3 and 4 its low half, 5 and 6 set the sticky
tag error, and with 5 to 7 the port holds no value; other ports stay as they were. -/
def ValuePortHolds : Prop :=
  ∀ (s : State) (i : BitVec 6) (tag : BitVec 3) (data : Word),
    s.leaf.pins.hostIsoN = true → bit s.leaf.hard.vpEn.toNat i.toNat = true →
    ∃ t, exec (.valuePortHandshake i tag data) s = .next t ∧
      let v := tget s.leaf.cap.vals i.toNat
      let v' := tget t.leaf.cap.vals i.toNat
      (tag.toNat ≤ 2 → v'.val = some (tag, data)) ∧ (tag = 3 ∨ tag = 4 → v'.val = some (tag, data &&& 0xFFFF)) ∧
      (5 ≤ tag.toNat → v'.val = none) ∧ v'.tagErr = (v.tagErr || decide (tag = 5 ∨ tag = 6)) ∧
      v'.upd = v.upd + 1 ∧ v'.fresh = true ∧
      (∀ j, j ≠ i.toNat → tget t.leaf.cap.vals j = tget s.leaf.cap.vals j) ∧
      t.leaf.cap.sampleVals = s.leaf.cap.sampleVals ∧ t.leaf.regs = s.leaf.regs ∧ t.pz = s.pz

/-! ## The leaf: digest taps, tests, heartbeat, interrupts -/

/-- A beat on a tap that is connected and enabled is buffered with the number of beats discarded before it; with 64 beats
waiting it is discarded and counted; on a tap that is off nothing happens (R42, R51). -/
def BeatsAreBuffered : Prop :=
  ∀ (s : State) (t : BitVec 2) (data : BitVec 256) (sop eop : Bool) (fmt : BitVec 3) (tid : BitVec 16),
    let on := s.leaf.pins.hostIsoN && s.leaf.hard.tapEn.getLsbD t.toNat && bit (s.leaf.fld GlR.DG_CTL_TAP_EN) t.toNat
    let p := tget s.leaf.taps t.toNat
    (on = false → exec (.digestBeat t data sop eop fmt tid) s = .next s) ∧
    (on = true → p.buf.length < 64 → ∃ u, exec (.digestBeat t data sop eop fmt tid) s = .next u ∧
      (tget u.leaf.taps t.toNat).buf = p.buf ++ [⟨p.discs, data, sop, eop, fmt, tid⟩] ∧
      (tget u.leaf.taps t.toNat).discs = 0 ∧ (tget u.leaf.taps t.toNat).tensor = p.tensor ∧ u.leaf.regs = s.leaf.regs) ∧
    (on = true → 64 ≤ p.buf.length → ∃ u, exec (.digestBeat t data sop eop fmt tid) s = .next u ∧
      (tget u.leaf.taps t.toNat).buf = p.buf ∧ (tget u.leaf.taps t.toNat).discs = p.discs + 1 ∧
      u.leaf.fld (GlR.DG_DISC_COUNT.at (4 * t.toNat)) =
        (s.leaf.fld (GlR.DG_DISC_COUNT.at (4 * t.toNat)) + 1) % 2 ^ 32)

/-- What the engine does with the oldest beat of a tap, with no gap before it (R182 to R191): a first beat opens a tensor of
the epoch, key and entry of that moment; a further beat joins the digest; a beat outside a tensor counts as an orphan; the last
beat closes the tensor, whose record takes the tap's next TSEQ, or is dropped when 16 already wait. -/
def EngineTakesBeats : Prop :=
  ∀ (s : State) (t : BitVec 2) (b : Beat) (rest : List Beat),
    let p := tget s.leaf.taps t.toNat
    (p.buf = [] → exec (.digestEngineBeat t) s = .next s) ∧
    (p.buf = b :: rest → b.gap = 0 →
      (b.sop = false → p.tensor = none → ∃ u, exec (.digestEngineBeat t) s = .next u ∧
        (tget u.leaf.taps t.toNat).buf = rest ∧ leafCounts s u (GlR.DG_TAPST_ORPHAN.at (4 * t.toNat))) ∧
      (b.sop = true → b.eop = false → p.tensor = none → s.leaf.isTest t.toNat b.tid.toNat = false →
        ∀ e, s.leaf.entryFor t.toNat b.tid.toNat = some e → ∃ u x, exec (.digestEngineBeat t) s = .next u ∧
        (tget u.leaf.taps t.toNat).buf = rest ∧ (tget u.leaf.taps t.toNat).tensor = some x ∧ x.beats = 1 ∧
        x.entry = some e ∧ x.tid = b.tid ∧ x.fmt = b.fmt ∧ x.epoch = s.leaf.epoch ∧ x.key = s.leaf.keyInForce 0) ∧
      (∀ x, b.sop = false → b.eop = false → p.tensor = some x → (x.entry.isSome ∨ x.test = true) → x.beats < 2 ^ 28 →
        ∃ u x', exec (.digestEngineBeat t) s = .next u ∧ (tget u.leaf.taps t.toNat).buf = rest ∧
        (tget u.leaf.taps t.toNat).tensor = some x' ∧ x'.beats = x.beats + 1 ∧
        x'.hash = (List.range 4).foldl
          (fun h w => exactWord x.key.toNat h (b.data.extractLsb' (64 * w) 64).toNat) x.hash ∧
        x'.entry = x.entry ∧ x'.epoch = x.epoch ∧ u.leaf.regs = s.leaf.regs) ∧
      (∀ x, b.sop = false → b.eop = true → p.tensor = some x → (x.entry.isSome ∨ x.test = true) →
        s.leaf.isBad (.tap t) = false → ∃ u, exec (.digestEngineBeat t) s = .next u ∧
        (tget u.leaf.taps t.toNat).tensor = none ∧
        (s.leaf.tapQueued t.toNat < 16 → (tget u.leaf.taps t.toNat).tseq = p.tseq + 1 ∧ queuedOne s u 3 0x0B) ∧
        (16 ≤ s.leaf.tapQueued t.toNat → leafCounts s u (GlR.DG_TAPST_RECDROP.at (4 * t.toNat)) ∧
          u.leaf.ul.queues = s.leaf.ul.queues)))

/-- Messages from the test controller (R47, R51, R199 to R203): with the host isolated or no port fitted, nothing; with a full
queue, discarded, counted and answered with RESEND; a grant for a due unit starts a round with the next round number and sends
RUN to each of its units; a DONE leaves the others awaited or ends the round; a non-zero status or a REFUSE aborts it; a RESEND
has the last message sent again. -/
def TestMessages : Prop :=
  ∀ (s : State) (w : DWord) (full : Bool),
    let n := w.toNat
    let u := bits n 59 56
    let on := s.leaf.pins.hostIsoN && s.leaf.hard.testEn
    (∀ i ∈ [Instr.testGrantIn w full, .testDone w full, .testRefuse w full, .testResendIn w full],
      (on = false → exec i s = .next s) ∧
      (on = true → full = true → ∃ t, exec i s = .next t ∧ leafCounts s t GlR.TS_STAT_TPDROP ∧
        t.leaf.out = s.leaf.out ++ [.test 0x4000000000000000] ∧ t.leaf.test = s.leaf.test)) ∧
    (on = true → full = false →
      (bits n 63 60 = 0x8 → u ≠ 15 → s.leaf.isDue u = true → s.leaf.roundRuns u = false →
        tget s.leaf.test.repeats u = none → ∃ t r, exec (.testGrantIn w full) s = .next t ∧
        tget t.leaf.test.rounds u = some r ∧ r.unit.toNat = u ∧ r.waiting = r.unit :: r.others ∧
        r.round = s.leaf.test.rcount ∧ t.leaf.test.rcount = s.leaf.test.rcount + 1 ∧ r.window = bits n 55 32 ∧
        r.start = s.leaf.time.clk ∧ (s.leaf.unitFld GlR.TS_UNIT_STATE u = 0 → r.stress = 0) ∧
        t.leaf.out = s.leaf.out ++ (r.unit :: r.others).map (fun x =>
          .test (BitVec.ofNat 64 (runWord x.toNat r.stress.toNat r.round.toNat r.seed.toNat)))) ∧
      (bits n 63 60 = 0x8 → u ≠ 15 → s.leaf.isDue u = false → ∃ t, exec (.testGrantIn w full) s = .next t ∧
        leafCounts s t GlR.TS_STAT_IGNORED ∧ t.leaf.test = s.leaf.test ∧ t.leaf.out = s.leaf.out) ∧
      (bits n 63 60 = 0x9 → s.leaf.roundOf (BitVec.ofNat 4 u) = none → ∃ t, exec (.testDone w full) s = .next t ∧
        leafCounts s t GlR.TS_STAT_IGNORED ∧ t.leaf.test = s.leaf.test) ∧
      (∀ r, bits n 63 60 = 0x9 → s.leaf.roundOf (BitVec.ofNat 4 u) = some r → r.round.toNat = bits n 31 16 →
        let left := r.waiting.filter (· != BitVec.ofNat 4 u)
        ∃ t, exec (.testDone w full) s = .next t ∧
        (bits n 15 0 ≠ 0 → tget t.leaf.test.rounds r.unit.toNat = none ∧ leafCounts s t GlR.TS_STAT_ABORTS ∧
          t.leaf.out = s.leaf.out ++
            [.test (BitVec.ofNat 64 (0x3 * 2 ^ 60 + r.unit.toNat * 2 ^ 56 + r.round.toNat * 2 ^ 32))]) ∧
        (bits n 15 0 = 0 → left ≠ [] → tget t.leaf.test.rounds r.unit.toNat = some { r with waiting := left } ∧
          t.leaf.regs = s.leaf.regs) ∧
        (bits n 15 0 = 0 → left = [] → r.others ≠ [] → t.leaf.unitFld GlR.TS_UNIT_DUE r.unit.toNat = 0 ∧
          t.leaf.unitFld GlR.TS_UNIT_OVERDUE r.unit.toNat = 0)) ∧
      (∀ r, bits n 63 60 = 0xA → s.leaf.roundOf (BitVec.ofNat 4 u) = some r → ∃ t, exec (.testRefuse w full) s = .next t ∧
        tget t.leaf.test.rounds r.unit.toNat = none ∧ leafCounts s t GlR.TS_STAT_ABORTS) ∧
      (∀ x, bits n 63 60 = 0xB → s.leaf.test.lastOut = some x → ∃ t, exec (.testResendIn w full) s = .next t ∧
        t.leaf.out = s.leaf.out ++ [.test x] ∧ t.leaf.test = s.leaf.test ∧ t.leaf.regs = s.leaf.regs))

/-- A unit's test interval (R198, R203, R204): a fitted unit becomes due and the controller and the tray are told; a due unit
becomes overdue, and a Healthy one Watched; an overdue Watched or Suspect unit is reported again; a round whose units have not
all answered in time is aborted. -/
def UnitDueAndOverdue : Prop :=
  ∀ (s : State) (u : BitVec 4),
    let l := s.leaf
    (l.hard.testEn = true → l.flag GlR.TS_CTL_EN = true → l.fitted u.toNat = true → l.isDue u.toNat = false →
      ∃ t, exec (.testDue u) s = .next t ∧ t.leaf.isDue u.toNat = true ∧ queuedOne s t 1 0x0A ∧
      t.leaf.out = l.out ++ [.test (BitVec.ofNat 64 (2 ^ 60 + u.toNat * 2 ^ 56))]) ∧
    (l.fitted u.toNat = false ∨ l.isDue u.toNat = true → exec (.testDue u) s = .next s) ∧
    (l.isDue u.toNat = true → l.unitFld GlR.TS_UNIT_OVERDUE u.toNat = 0 → ∃ t, exec (.testOverdue u) s = .next t ∧
      t.leaf.unitFld GlR.TS_UNIT_OVERDUE u.toNat = 1 ∧ leafCounts s t GlR.TS_STAT_LATE_EV ∧
      (l.unitFld GlR.TS_UNIT_STATE u.toNat = 0 → t.leaf.unitFld GlR.TS_UNIT_STATE u.toNat = 1 ∧ queuedOne s t 1 0x0A) ∧
      (l.unitFld GlR.TS_UNIT_STATE u.toNat ≠ 0 → t.leaf.ul = l.ul)) ∧
    (l.isDue u.toNat = false → exec (.testOverdue u) s = .next s) ∧
    (l.unitFld GlR.TS_UNIT_OVERDUE u.toNat = 1 → l.unitFld GlR.TS_UNIT_STATE u.toNat = 1 ∨
        l.unitFld GlR.TS_UNIT_STATE u.toNat = 2 → ∃ t, exec (.testLateAdvisory u) s = .next t ∧ queuedOne s t 1 0x0A ∧
      t.leaf.regs = l.regs) ∧
    (l.unitFld GlR.TS_UNIT_OVERDUE u.toNat ≠ 1 → exec (.testLateAdvisory u) s = .next s) ∧
    (∀ r, tget l.test.rounds u.toNat = some r →
      (r.waiting ≠ [] → ∃ t, exec (.testRoundTimeout u) s = .next t ∧ leafCounts s t GlR.TS_STAT_ABORTS ∧
        tget t.leaf.test.rounds r.unit.toNat = none) ∧
      (r.waiting = [] → exec (.testRoundTimeout u) s = .next s))

/-- A health update from the tray (R202, R205): the unit's state, condition and cell become those told; a clean or charged
round is over; a disputed one runs again with its seed while its window lasts. -/
def HealthUpdates : Prop :=
  ∀ (s : State) (m : HealthMsg) (blows : List Blow),
    let u := m.unit.toNat
    ∃ t, exec (.healthUpdateRx m blows) s = .next t ∧
      t.leaf.unitFld GlR.TS_UNIT_STATE u = m.state.toNat ∧ t.leaf.unitFld GlR.TS_UNIT_COND u = b2n m.cond ∧
      t.leaf.unitFld GlR.TS_UNIT_CTBIN u = m.ctbin.toNat ∧ t.leaf.unitFld GlR.TS_UNIT_CSIG u = m.csig.toNat ∧
      t.leaf.unitFld GlR.TS_UNIT_CLEAN u = m.clean.toNat ∧
      t.pz = s.pz ∧
      (∀ r, tget s.leaf.test.rounds u = some r → r.round = m.round → r.waiting = [] → tget s.leaf.test.repeats u = none →
        (m.fate = .clean ∨ m.fate = .charged → tget t.leaf.test.rounds u = none) ∧
        (m.fate = .disputed → s.leaf.time.clk < r.start + 1000 * r.window → ∃ r', tget t.leaf.test.rounds u = some r' ∧
          r'.seed = r.seed ∧ r'.round = r.round ∧ r'.stress = r.stress ∧ r'.waiting = r'.unit :: r'.others))

/-- The heartbeat watch (R46, R393): a counted transition adds one to BEATS, and while the watch runs ends a run of missed
intervals and a hang; an interval that runs out counts as missed, and at the limit the host is hung and an alarm is raised. -/
def HeartbeatWatch : Prop :=
  ∀ (s : State),
    let l := s.leaf
    (l.pins.hostIsoN = true → l.hard.hbEn = true → (∀ k, l.hb.lastTog = some k → k + 100 ≤ l.time.clk) →
      ∃ t, exec .heartbeatBeat s = .next t ∧ t.leaf.hb.lastTog = some l.time.clk ∧
      t.leaf.fld GlR.HB_BEATS_COUNT = (l.fld GlR.HB_BEATS_COUNT + 1) % 2 ^ 32 ∧
      (l.hbRuns = true → t.leaf.fld GlR.HB_STAT_MISSED = 0 ∧ t.leaf.flag GlR.HB_STAT_HUNG = false ∧
        t.leaf.hb.ival = l.time.clk ∧ t.leaf.hb.lastBeat = l.time.ns ∧ t.leaf.hb.iso = false)) ∧
    (l.pins.hostIsoN = false ∨ l.hard.hbEn = false → exec .heartbeatBeat s = .next s) ∧
    (∀ k, l.hb.lastTog = some k → l.time.clk < k + 100 → exec .heartbeatBeat s = .next s) ∧
    (l.hbRuns = false → exec .heartbeatExpiry s = .next s) ∧
    (l.hbRuns = true → ∃ t, exec .heartbeatExpiry s = .next t ∧ leafCounts s t GlR.HB_STAT_MISSED ∧
      t.leaf.hb.ival = l.time.clk ∧
      (held GlR.HB_STAT_MISSED (l.fld GlR.HB_STAT_MISSED + 1) = max 1 l.hb.miss → l.flag GlR.HB_STAT_HUNG = false →
        t.leaf.flag GlR.HB_STAT_HUNG = true ∧ leafCounts s t GlR.HB_STAT_HANGS ∧ t.leaf.hb.hungAt = l.time.ns ∧
        0 < tget t.leaf.irq.cnt 450) ∧
      (held GlR.HB_STAT_MISSED (l.fld GlR.HB_STAT_MISSED + 1) ≠ max 1 l.hb.miss →
        t.leaf.fld GlR.HB_STAT_HUNG = l.fld GlR.HB_STAT_HUNG ∧ t.leaf.irq = l.irq))

/-- The source that a claim takes (R370): a claimable alarm-class source of the highest priority and, among those, of the
lowest number; with none, the claimable source of the lowest number. -/
def ClaimTakesTheHighest : Prop :=
  ∀ (l : Leaf) (k : Nat), Tbl.wf (fun _ => 0) l.irq.cnt = true →
    (l.bestClaim k = none ↔ ∀ src, l.claimable k src = false) ∧
    (∀ src, l.bestClaim k = some src → l.claimable k src = true ∧ ∀ o, l.claimable k o = true →
      (448 ≤ src ∧ (o < 448 ∨ l.priOf o < l.priOf src ∨ (l.priOf o = l.priOf src ∧ src ≤ o))) ∨
      (src < 448 ∧ o < 448 ∧ src ≤ o))

/-- Claims, ends of interrupt and holdoff (R370, R371, R374): a claim answers the source and its count, clears the count and
puts the source in service; a claim with nothing to take answers 0xFFFF; an end takes the source off, an end of another counts
as bad; the holdoff ends when the target turns idle or its time is over. -/
def InterruptService : Prop :=
  ∀ (s : State) (k : BitVec 3) (p : Port),
    let l := s.leaf
    let tg := tget l.irq.targets k.toNat
    (l.verdict p (0xD00 + 0x20 * k.toNat) false = .pass →
      (l.bestClaim k.toNat = none → ∃ t, exec (.irqClaim k p) s = .next t ∧ t.leaf.rdata = 0xFFFF ∧ t.leaf.irq = l.irq) ∧
      (∀ src, l.bestClaim k.toNat = some src → ∃ t, exec (.irqClaim k p) s = .next t ∧
        t.leaf.rdata = BitVec.ofNat 32 (tget l.irq.cnt src * 65536 + src) ∧ tget t.leaf.irq.cnt src = 0 ∧
        (∀ o, o ≠ src → tget t.leaf.irq.cnt o = tget l.irq.cnt o) ∧
        (448 ≤ src → (tget t.leaf.irq.targets k.toNat).stack = (src, l.priOf src) :: tg.stack) ∧
        (src < 448 → (tget t.leaf.irq.targets k.toNat).nasvc = some src) ∧ t.leaf.regs = l.regs)) ∧
    (∀ data : Word, l.verdict p (0xD04 + 0x20 * k.toNat) true = .pass →
      (∀ pr rest, tg.stack = (bits data.toNat 8 0, pr) :: rest → ∃ t, exec (.irqEoi k p data) s = .next t ∧
        (tget t.leaf.irq.targets k.toNat).stack = rest ∧ t.leaf.regs = l.regs) ∧
      (tg.stack = [] → tg.nasvc = some (bits data.toNat 8 0) → ∃ t, exec (.irqEoi k p data) s = .next t ∧
        (tget t.leaf.irq.targets k.toNat).nasvc = none ∧ t.leaf.regs = l.regs) ∧
      ((∀ src pr rest, tg.stack = (src, pr) :: rest → src ≠ bits data.toNat 8 0) →
        (tg.stack = [] → tg.nasvc ≠ some (bits data.toNat 8 0)) → ∃ t, exec (.irqEoi k p data) s = .next t ∧
        leafCounts s t (GlR.IRQ_TSTAT_BADEOI.at (0x20 * k.toNat)) ∧ t.leaf.irq = l.irq)) ∧
    (∀ stays, ∃ t, exec (.irqIdleRise k stays) s = .next t ∧ (tget t.leaf.irq.targets k.toNat).hold = none ∧
      t.leaf.pins.irqIdle.getLsbD k.toNat = stays ∧ t.leaf.irq.cnt = l.irq.cnt) ∧
    (∃ t, exec (.holdoffExpiry k) s = .next t ∧ (tget t.leaf.irq.targets k.toNat).hold = none ∧
      (tget t.leaf.irq.targets k.toNat).stack = tg.stack ∧ (tget t.leaf.irq.targets k.toNat).nasvc = tg.nasvc ∧
      t.leaf.irq.cnt = l.irq.cnt ∧ t.leaf.pins = l.pins)

/-! ## The leaf: registers, time base, uplink -/

/-- The field bits of a leaf register word after a write of the secure world (Table 0.5). -/
def writtenBits (f : RegField) (old new : Nat) : Nat :=
  match f.acc with
  | .rw | .srw => bits new f.hi f.lo
  | .w1c => bits old f.hi f.lo &&& ((2 ^ (f.hi + 1 - f.lo) - 1) ^^^ bits new f.hi f.lo)
  | .ro | .wo | .rc | .rwp => bits old f.hi f.lo

/-- Leaf registers whose write sets stored fields and does nothing else: SEC, time control and status, servo, weights, Quill
control, status, arming epoch and page, digest control, test control and bins. -/
def leafPlain : List Nat :=
  [0x400, 0x404, 0x408, 0x1000, 0x1004, 0x1020, 0x3024, 0x9000, 0x9004, 0x9008, 0x9020, 0xA000, 0xD000, 0xD004, 0xD008, 0xD00C]

/-- Registers of Polornaz of the same kind: clock ratio of die 0, governor and thermal control, scrub control, BAR2 window 0,
staging rate, mailbox control and secure types, verdict and liveness control. -/
def pzPlain : List Nat :=
  [0x10100, 0x10200, 0x10300, 0x10400, 0x10800, 0x30000, 0x60000, 0x60014, 0x70000, 0x70004]

/-- Reads of the leaf (R11 to R17, R44): a refused one answers zero, and counts where it is a violation; one let through answers
the fields of the register, clears those that a read clears, and leaves every other register. -/
def LeafReads : Prop :=
  ∀ (s : State) (p : Port) (addr : BitVec 26),
    let off := addr.toNat
    ∀ i ∈ [Instr.splitValueLowRead .leaf p addr, .rcFieldRead .leaf p addr],
      (s.leaf.verdict p off false = .silent → ∃ t, exec i s = .next t ∧ t.leaf.rdata = 0 ∧ t.leaf.regs = s.leaf.regs) ∧
      (∀ b, s.leaf.verdict p off false = .violation b → ∃ t, exec i s = .next t ∧ t.leaf.rdata = 0 ∧
        leafCounts s t (GlR.SEC_VIOL_COUNT.at (4 * b))) ∧
      (∀ r, s.leaf.verdict p off false = .pass → p.ns = false → off < 0xE000 → ¬ (0xD00 ≤ off ∧ off < 0xE00 ∧ off % 0x20 = 0) →
        findRow glRows off = some r → s.leaf.caps.find? (fun c => c.1 == capKey p off) = none →
        ∃ t, exec i s = .next t ∧ t.leaf.rdata = BitVec.ofNat 32 (r.show false (s.leaf.view false off)) ∧
        (∀ f ∈ r.flds, bits (t.leaf.reg off).toNat f.hi f.lo =
          if f.acc = .rc then 0 else bits (s.leaf.reg off).toNat f.hi f.lo) ∧
        (∀ o, o ≠ off → t.leaf.reg o = s.leaf.reg o) ∧ t.pz = s.pz)

/-- A read of the lower half of aligned time keeps the upper half for the same requester, and a read of the upper half answers
what was kept (R11). -/
def SplitReads : Prop :=
  ∀ (s : State) (p : Port), p.ns = false →
    (s.leaf.verdict p 0x1010 false = .pass → s.leaf.caps.find? (fun c => c.1 == capKey p 0x1010) = none →
      ∃ t, exec (.splitValueLowRead .leaf p 0x1010) s = .next t ∧ t.leaf.rdata = BitVec.ofNat 32 s.leaf.time.ns ∧
      t.leaf.caps.find? (fun c => c.1 == capKey p 0x1014) =
        some (capKey p 0x1014, BitVec.ofNat 32 (s.leaf.time.ns / 2 ^ 32))) ∧
    (∀ v, s.leaf.verdict p 0x1014 false = .pass →
      s.leaf.caps.find? (fun c => c.1 == capKey p 0x1014) = some (capKey p 0x1014, v) →
      ∃ t, exec (.rcFieldRead .leaf p 0x1014) s = .next t ∧ t.leaf.rdata = v ∧
      t.leaf.caps.find? (fun c => c.1 == capKey p 0x1014) = none)

/-- Writes of registers in the secure world (R10 to R17): one that is refused changes nothing or counts as a violation; one let
through sets each field by its access code and leaves every other register; in either part. -/
def RegisterWrites : Prop :=
  ∀ (s : State) (p : Port) (addr : BitVec 26) (data : Word),
    (s.leaf.verdict p addr.toNat true = .silent → exec (.registerWrite .leaf p addr data) s = .next s) ∧
    (∀ b, s.leaf.verdict p addr.toNat true = .violation b → ∃ t, exec (.registerWrite .leaf p addr data) s = .next t ∧
      leafCounts s t (GlR.SEC_VIOL_COUNT.at (4 * b))) ∧
    (∀ r, addr.toNat ∈ leafPlain → p.ns = false → s.leaf.verdict p addr.toNat true = .pass →
      findRow glRows addr.toNat = some r → ∃ t, exec (.registerWrite .leaf p addr data) s = .next t ∧
      (∀ f ∈ r.flds, bits (t.leaf.reg addr.toNat).toNat f.hi f.lo =
        writtenBits f (s.leaf.reg addr.toNat).toNat data.toNat) ∧
      (∀ o, o ≠ addr.toNat → t.leaf.reg o = s.leaf.reg o) ∧ t.pz = s.pz) ∧
    (s.pz.verdict p addr = .silent → exec (.registerWrite .pz p addr data) s = .next s) ∧
    (∀ b, s.pz.verdict p addr = .violation b → ∃ t, exec (.registerWrite .pz p addr data) s = .next t ∧
      pzCounts s t (PzR.SEC_VIOL_COUNT.at (4 * b))) ∧
    (∀ r, barOff addr ∈ pzPlain → s.pz.secure p addr = true → s.pz.verdict p addr = .pass →
      findRow pzRows (barOff addr) = some r → ∃ t, exec (.registerWrite .pz p addr data) s = .next t ∧
      (∀ f ∈ r.flds, bits (t.pz.reg (barOff addr)).toNat f.hi f.lo =
        writtenBits f (s.pz.reg (barOff addr)).toNat data.toNat) ∧
      (∀ o, o ≠ barOff addr → t.pz.reg o = s.pz.reg o) ∧ t.leaf = s.leaf)

/-- The reference clock and its rate (R52, R106, R107): a lost reference stops the time base, keeps its value, zeroes LOCKRUN and
raises alarm code 2; a restored one lets it go on; KHZ takes a value from 25,000 to 200,000 and no other. -/
def ReferenceClock : Prop :=
  ∀ (s : State),
    (∃ t, exec .refclkLost s = .next t ∧ t.leaf.pins.refclk = false ∧ t.leaf.timeRuns = false ∧
      t.leaf.flag GlR.IDENT_STATUS_REFCLK_LOST = true ∧ t.leaf.fld GlR.TM_STAT_LOCKRUN = 0 ∧
      t.leaf.time.ns = s.leaf.time.ns ∧ (s.leaf.time.everRan = true → t.leaf.time.lockWait = true) ∧
      0 < tget t.leaf.irq.cnt 448) ∧
    (∃ t, exec .refclkRestored s = .next t ∧ t.leaf.pins.refclk = true ∧ t.leaf.time = s.leaf.time ∧
      t.leaf.regs = s.leaf.regs) ∧
    (∀ p data, s.leaf.verdict p 0x1008 true = .pass →
      (25000 ≤ bits data.toNat 17 0 → bits data.toNat 17 0 ≤ 200000 → ∃ t, exec (.reffreqWrite p data) s = .next t ∧
        t.leaf.fld GlR.TM_REFFREQ_KHZ = bits data.toNat 17 0 ∧ t.leaf.flag GlR.TM_STAT_NOFREQ = false ∧
        t.leaf.time.ns = s.leaf.time.ns ∧ t.leaf.timeRuns = s.leaf.pins.refclk) ∧
      (bits data.toNat 17 0 < 25000 ∨ 200000 < bits data.toNat 17 0 → exec (.reffreqWrite p data) s = .next s)) ∧
    (∀ r, (s.leaf.timeRuns = true → ∃ t, exec (.fallbackCalibrate r) s = .next t ∧ t.leaf.time.ratio = r ∧
        t.leaf.time.ns = s.leaf.time.ns) ∧
      (s.leaf.timeRuns = false → exec (.fallbackCalibrate r) s = .next s))

/-- The sources of the servo (R109, R114 to R117): an exchange that is accepted counts and makes UPLINK usable; a source without a
sample is no longer usable, and from LOCKED with none left the servo holds; HOLD runs out into FREE; a phase step is applied while no
window is open, and only then. -/
def SourcesAndServo : Prop :=
  ∀ (s : State),
    (∀ m, s.leaf.timeRuns = false ∨ s.leaf.exchange m = none → exec (.timeCellRx m) s = .next s) ∧
    (∀ m th sum, s.leaf.timeRuns = true → s.leaf.exchange m = some (th, sum) → ∃ t, exec (.timeCellRx m) s = .next t ∧
      t.leaf.fld GlR.TM_EXCH_EXCH = (s.leaf.fld GlR.TM_EXCH_EXCH + 1) % 2 ^ 16 ∧
      t.leaf.time.lastUp = some s.leaf.time.clk ∧ t.leaf.time.upTheta = some th ∧
      (s.leaf.isMaster = true ∨ s.leaf.fld GlR.TM_CTL_SRC ≠ 2 → t.leaf.fld GlR.TM_STAT_SOURCE = 1) ∧
      t.leaf.time.ns = s.leaf.time.ns) ∧
    (∀ m t3, s.leaf.time.t3.find? (fun p => p.1 == m.fseq) = some (m.fseq, t3) → s.leaf.hard.tmMode = false →
      m.rUp ≠ 0xFFFFFFFF → m.rDn ≠ 0xFFFFFFFF → s.leaf.time.sums = [] →
      let dn : Int := m.t2 - m.t1 - 16 * m.rDn.toNat
      let up : Int := m.t4 - t3 - 16 * m.rUp.toNat
      s.leaf.exchange m = some ((dn - up + m.asym.toInt) / 2, dn + up)) ∧
    (∀ reed, ∃ t, exec (.sourceTimeout reed) s = .next t ∧
      (reed = true → t.leaf.time.lastTick = none ∧ t.leaf.time.lastUp = s.leaf.time.lastUp) ∧
      (reed = false → t.leaf.time.lastUp = none ∧ t.leaf.time.lastTick = s.leaf.time.lastTick) ∧
      t.leaf.fld GlR.TM_STAT_SOURCE = (if t.leaf.upUsable then 1 else if t.leaf.reedUsable then 2 else 0) ∧
      (t.leaf.fld GlR.TM_STAT_SOURCE = 0 → s.leaf.fld GlR.TM_STAT_STATE = svLocked →
        t.leaf.fld GlR.TM_STAT_STATE = svHold ∧ t.leaf.time.holdAt = s.leaf.time.clk) ∧
      (t.leaf.fld GlR.TM_STAT_SOURCE ≠ 0 → t.leaf.fld GlR.TM_STAT_STATE = s.leaf.fld GlR.TM_STAT_STATE)) ∧
    (s.leaf.fld GlR.TM_STAT_STATE = svHold → ∃ t, exec .holdExpiry s = .next t ∧
      t.leaf.fld GlR.TM_STAT_STATE = svFree ∧ t.leaf.flag GlR.TM_STAT_LOSTLOCK = true ∧
      t.leaf.fld GlR.TM_STAT_LOCKRUN = 0) ∧
    (s.leaf.fld GlR.TM_STAT_STATE ≠ svHold → exec .holdExpiry s = .next s) ∧
    (s.leaf.time.stepPend = none ∨ s.leaf.quill.win.isSome ∨ s.leaf.quill.pend ≠ [] → exec .phaseStep s = .next s) ∧
    (∀ th free, s.leaf.time.stepPend = some (th, free) → s.leaf.quill.win = none → s.leaf.quill.pend = [] →
      (0 ≤ th ∨ s.leaf.time.inks = []) → ∃ t, exec .phaseStep s = .next t ∧
      t.leaf.time.ns = ((s.leaf.time.ns : Int) - th).toNat ∧ t.leaf.time.stepPend = none ∧
      t.leaf.time.clk = s.leaf.time.clk ∧ (free = false → t.leaf.flag GlR.TM_STAT_STEPPED = true))

/-- Alarm credit (R171): a credit is earned while the time base runs, or at the tenth tick while it does not, up to 64; a suppressed
alarm that waits takes it at once and leaves on the Alarm class. -/
def AlarmCredits : Prop :=
  ∀ (s : State),
    (s.leaf.timeRuns = false → s.leaf.ul.tickCnt < 10 → exec .alarmCredit s = .next s) ∧
    (s.leaf.timeRuns = true ∨ 10 ≤ s.leaf.ul.tickCnt →
      (s.leaf.ul.supp = false → ∃ t, exec .alarmCredit s = .next t ∧ t.leaf.ul.tickCnt = 0 ∧
        t.leaf.fld GlR.UL_ALM_CREDIT = min 64 (s.leaf.fld GlR.UL_ALM_CREDIT + 1) ∧ t.leaf.ul.queues = s.leaf.ul.queues) ∧
      (s.leaf.ul.supp = true → ∃ t, exec .alarmCredit s = .next t ∧ t.leaf.ul.supp = false ∧ queuedOne s t 0 2 ∧
        t.leaf.fld GlR.UL_ALM_CREDIT = min 64 (s.leaf.fld GlR.UL_ALM_CREDIT + 1) - 1 ∧
        t.leaf.fld GlR.UL_ALM_SEQ = (s.leaf.fld GlR.UL_ALM_SEQ + 1) % 2 ^ 16))

/-- The uplink (R165 to R169, R172, R48, R161): with nothing waiting nothing leaves; an Alarm cell that the ceiling allows leaves before
any other, and with its check code inverted where a byte fails its parity (R390); a Control cell that its bucket and the ceiling allow leaves when no Alarm waits; a write of a shaper or of OVH fills the
buckets; a chain master stores a good cell for its tray, or drops it with its store full; a good cell for this leaf completes a
message. -/
def UplinkCells : Prop :=
  ∀ (s : State),
    let l := s.leaf
    (∀ par, (∀ c, tget l.ul.queues c = [] ∧ tget l.ul.fwd c = []) → ∃ t, exec (.uplinkCellStart par) s = .next t ∧
      t.leaf.out = l.out ∧ t.leaf.regs = l.regs ∧ t.leaf.ul.queues = l.ul.queues) ∧
    (∀ q rest, tget l.ul.queues 2 = [] → tget l.ul.queues 0 = q :: rest → tget l.ul.fwd 0 = [] → q.msg.cls = 0 →
      l.refill.ceilOk 0 q.cell = true → ∃ t dst, exec (.uplinkCellStart false) s = .next t ∧ t.leaf.out = l.out ++ [.cell dst q.cell] ∧
      tget t.leaf.ul.queues 0 = (if q.cell.eom then rest else { q with sent := q.sent + 1 } :: rest) ∧
      t.leaf.fld GlR.UL_TXCNT_CELLS = (l.fld GlR.UL_TXCNT_CELLS + 1) % 2 ^ 32) ∧
    (∀ q rest, tget l.ul.queues 2 = [] → tget l.ul.queues 0 = q :: rest → tget l.ul.fwd 0 = [] → q.msg.cls = 0 →
      l.refill.ceilOk 0 q.cell = true → ∃ t dst, exec (.uplinkCellStart true) s = .next t ∧
      t.leaf.out = l.out ++ [.cell dst { q.cell with ccrc := ~~~q.cell.ccrc }] ∧ leafCounts s t GlR.EC_STAT_PAR) ∧
    (∀ q rest, tget l.ul.queues 2 = [] → tget l.ul.queues 0 = [] → tget l.ul.fwd 0 = [] → tget l.ul.fwd 1 = [] →
      tget l.ul.queues 1 = q :: rest → q.msg.cls = 1 → l.refill.bucketOk 1 q.cell = true → l.refill.ceilOk 1 q.cell = true →
      ∃ t dst, exec (.uplinkCellStart false) s = .next t ∧ t.leaf.out = l.out ++ [.cell dst q.cell] ∧
      tget t.leaf.ul.queues 1 = (if q.cell.eom then rest else { q with sent := q.sent + 1 } :: rest)) ∧
    (∀ (c : BitVec 2) p data, l.verdict p (0x3014 + 4 * c.toNat) true = .pass → ∃ t, exec (.ulShpWrite c p data) s = .next t ∧
      bits (t.leaf.shp (c.toNat + 1)) 15 0 = bits data.toNat 15 0 ∧
      t.leaf.rate (c.toNat + 1) = (if bits data.toNat 31 16 = 0 then l.rate (c.toNat + 1) else bits data.toNat 31 16) ∧
      t.leaf.tokens (c.toNat + 1) = byteUnits (t.leaf.burst (c.toNat + 1))) ∧
    (∀ p data, l.verdict p 0x3000 true = .pass →
      (bits data.toNat 5 0 ≤ 32 → ∃ t, exec (.ulOvhWrite p data) s = .next t ∧ t.leaf.ovh = bits data.toNat 5 0 ∧
        t.leaf.ceilTokens = byteUnits t.leaf.ceilCap ∧ ∀ c, t.leaf.tokens c = byteUnits (t.leaf.burst c)) ∧
      (32 < bits data.toNat 5 0 → exec (.ulOvhWrite p data) s = .next s)) ∧
    (∀ x : Cell, l.isMaster = false ∨ l.pins.ulRxReady = false → exec (.forwardCell x) s = .next s) ∧
    (∀ x : Cell, l.isMaster = true → l.pins.ulRxReady = true → x.cls.toNat < 5 → x.cls ≠ 0 → cellGood x = true →
      l.fwdBroken x = false →
      ((tget l.ul.fwd x.cls.toNat).length < fwdSlots x.cls.toNat → ∃ t f, exec (.forwardCell x) s = .next t ∧
        tget t.leaf.ul.fwd x.cls.toNat = tget l.ul.fwd x.cls.toNat ++ [f] ∧ f.cell = x ∧ f.clk = l.time.clk) ∧
      (fwdSlots x.cls.toNat ≤ (tget l.ul.fwd x.cls.toNat).length → ∃ t, exec (.forwardCell x) s = .next t ∧
        t.leaf.ul.fwd = l.ul.fwd ∧ t.leaf.flag GlR.UL_STAT_FDROP = true)) ∧
    (∀ x : Cell, l.pins.ulRxReady = true →
      (cellGood x = false → ∃ t, exec (.uplinkCellRx x) s = .next t ∧ t.leaf.ul.rxBad = l.ul.rxBad + 1 ∧
        t.leaf.ready = l.ready ∧ tget t.leaf.ul.asm x.cls.toNat = []) ∧
      (cellGood x = true → x.fleet = l.fleet → x.som = true → x.eom = true → ∃ t, exec (.uplinkCellRx x) s = .next t ∧
        t.leaf.ready = l.ready ++ [⟨x.fleet, x.cls, x.ty, x.ink, x.mark, x.payload⟩])) ∧
    (∀ x : Cell, l.pins.ulRxReady = false → exec (.uplinkCellRx x) s = .next s)

/-! ## The leaf: the Quill engine's tables, windows, the Inkline -/

/-- Arming and the slice table (R94, R95): GO starts the check of the arming written and clears an earlier one; the check ends armed or
with the first condition that fails, and an ARM message gets its answer; a slice entry is written in the inactive bank and disarms it. -/
def ArmingAndSlices : Prop :=
  ∀ (s : State),
    let l := s.leaf
    (∀ p data, l.verdict p 0x900C true = .pass →
      (bit data.toNat 31 = true → ∃ t, exec (.armGo p data) s = .next t ∧ t.leaf.quill.arming = none ∧
        t.leaf.quill.checking = some (⟨l.reg 0x9008, data.setWidth 16, BitVec.ofNat 3 (l.fld GlR.QL_CTL_PEND_PN)⟩, none) ∧
        t.leaf.flag GlR.QL_CTL_ARMED = false) ∧
      (bit data.toNat 31 = false → ∃ t, exec (.armGo p data) s = .next t ∧ t.leaf.quill = l.quill ∧
        t.leaf.fld GlR.QL_ARM_CFG_CFG_EP = bits data.toNat 15 0)) ∧
    (l.quill.checking = none → exec .armCheckDone s = .next s) ∧
    (∀ a ask, l.quill.checking = some (a, ask) → ∃ t, exec .armCheckDone s = .next t ∧ t.leaf.quill.checking = none ∧
      t.leaf.fld GlR.QL_STAT_ARM_ERR = l.armErr a ∧
      (l.armErr a = 0 → t.leaf.quill.arming = some a ∧ t.leaf.flag GlR.QL_CTL_ARMED = true) ∧
      (l.armErr a ≠ 0 → t.leaf.quill.arming = none ∧ t.leaf.flag GlR.QL_STAT_ARM_FAIL = true) ∧
      (ask.isSome → queuedOne s t 1 9) ∧ (ask = none → t.leaf.ul = l.ul)) ∧
    (∀ (c : BitVec 8) p data, l.verdict p (0x9400 + 4 * c.toNat) true = .pass → ∃ t, exec (.sliceWrite c p data) s = .next t ∧
      tget (t.leaf.slices (!l.actBank)) c.toNat = (data &&& 0xFFFFFE00) ∧
      (∀ k, k ≠ c.toNat → tget (t.leaf.slices (!l.actBank)) k = tget (l.slices (!l.actBank)) k) ∧
      t.leaf.slices l.actBank = l.slices l.actBank ∧ t.leaf.flag GlR.QL_CTL_ARMED = false ∧
      (l.flag GlR.QL_CTL_ARMED = true → t.leaf.quill.arming = none ∧ t.leaf.flag GlR.QL_STAT_DISARM = true))

/-- The program window (R94, R287, R378, R424): a word of an inactive program page is stored, one of an active page is dropped with ACTWR,
one of a hidden region counts as a violation; a directory entry with VALID at 0 is stored at once, one with VALID waits for a check on a
free lane, or is refused with BUSY. -/
def ProgramWindow : Prop :=
  ∀ (s : State) (w : BitVec 11) (p : Port) (data : Word),
    let l := s.leaf
    let pg := l.fld GlR.QL_PAGE_PAGE
    let e := (pg - 40) * 2048 + w.toNat
    l.verdict p (0xE000 + 4 * w.toNat) true = .pass →
    ∀ i ∈ [Instr.programWindowWrite w p data, .lmDirWrite w p data],
      (l.windowHidden p = true → ∃ t, exec i s = .next t ∧ leafCounts s t (GlR.SEC_VIOL_COUNT.at 28) ∧
        t.leaf.quill = l.quill) ∧
      (l.windowHidden p = false → pg < 16 → decide (8 ≤ pg) = l.actBank → ∃ t, exec i s = .next t ∧
        t.leaf.quill = l.quill ∧ t.leaf.flag GlR.QL_STAT_ACTWR = true) ∧
      (l.windowHidden p = false → pg < 16 → decide (8 ≤ pg) ≠ l.actBank → l.isBad (progCw pg w.toNat) = false →
        ∃ t, exec i s = .next t ∧ t.leaf.pageWord pg w.toNat = data ∧
        (∀ k, k ≠ 2048 * pg + w.toNat → tget t.leaf.quill.pages k = tget l.quill.pages k) ∧
        t.leaf.flag GlR.QL_CTL_ARMED = false) ∧
      (l.windowHidden p = false → 40 ≤ pg → pg < 48 →
        (data.msb = false → ∃ t, exec i s = .next t ∧ t.leaf.pageWord pg w.toNat = data ∧
          t.leaf.quill.lmLanes = l.quill.lmLanes.filter (fun x => x.2.1 != e)) ∧
        (data.msb = true → (∃ k, 1 ≤ k ∧ k ≤ 7 ∧ ∀ x ∈ l.quill.lmLanes, x.1 ≠ k) → ∃ t k, exec i s = .next t ∧
          1 ≤ k ∧ k ≤ 7 ∧ (k, (e, data)) ∈ t.leaf.quill.lmLanes ∧ t.leaf.quill.pages = l.quill.pages) ∧
        (data.msb = true → (∀ k, 1 ≤ k → k ≤ 7 → ∃ x ∈ l.quill.lmLanes, x.1 = k ∧ x.2.1 ≠ e) → ∃ t, exec i s = .next t ∧
          t.leaf.quill = l.quill ∧ t.leaf.flag GlR.QL_LM_STAT_BUSY = true))

/-- The local model (R287, R288): the check of a directory entry stores it, or sets CHKFAIL with its cause; D is taken while no entry is
VALID and at most 32, and refused with DERR while one is; STAGE falling makes the new ID the ID; the status flags clear by writing ones. -/
def LocalModel : Prop :=
  ∀ (s : State),
    let l := s.leaf
    (∀ k : BitVec 3, l.quill.lmLanes.find? (fun x => x.1 == k.toNat) = none → exec (.lmCheckDone k) s = .next s) ∧
    (∀ (k : BitVec 3) e w, l.quill.lmLanes.find? (fun x => x.1 == k.toNat) = some (k.toNat, (e, w)) → e < 16384 →
      ∃ t, exec (.lmCheckDone k) s = .next t ∧
      t.leaf.quill.lmLanes = l.quill.lmLanes.filter (fun x => x.1 != k.toNat) ∧
      (l.lmCheck e w.toNat = 0 → t.leaf.lmDir e = w.toNat) ∧
      (l.lmCheck e w.toNat ≠ 0 → t.leaf.quill.pages = l.quill.pages ∧ t.leaf.flag GlR.QL_LM_STAT_CHKFAIL = true ∧
        t.leaf.fld GlR.QL_LM_STAT_ERR = l.lmCheck e w.toNat ∧ t.leaf.fld GlR.QL_LM_STAT_ETREE = e)) ∧
    (∀ (off : BitVec 2) p data, l.verdict p (0x9024 + 4 * off.toNat) true = .pass → ∃ t, exec (.lmCtlWrite off p data) s = .next t ∧
      (off = 0 → t.leaf.fld GlR.QL_LM_CTL_STAGE = bits data.toNat 31 31 ∧
        (l.lmValid = [] → bits data.toNat 29 24 ≤ 32 → t.leaf.lmD = bits data.toNat 29 24) ∧
        (l.lmValid ≠ [] → t.leaf.lmD = l.lmD ∧ t.leaf.flag GlR.QL_LM_STAT_DERR = true) ∧
        (l.flag GlR.QL_LM_CTL_STAGE = true → data.msb = false → t.leaf.reg 0x9028 = l.reg 0x902C)) ∧
      (off = 1 → t.leaf.reg 0x9028 = data) ∧ (off = 2 → t.leaf.reg 0x902C = data) ∧
      (off = 3 → t.leaf.reg 0x9030 = (l.reg 0x9030 &&& ~~~(data &&& 0x1E000000))))

/-- What closing a window leaves (R98, R101): no window, the next FSEQ, the frame in the Frame queue, and the window's contribution kept
for its wave. `tc` is aligned time at the close. -/
def FrameClosed (s t : State) (w : Window) : Prop :=
  let f := (s.leaf.fld GlR.QL_STAT_FSEQ + 1) % 2 ^ 16
  t.leaf.quill.win = none ∧ t.leaf.fld GlR.QL_STAT_FSEQ = f ∧
  (∃ q ∈ tget t.leaf.ul.queues 2, q.fseq = some (BitVec.ofNat 16 f) ∧ q.msg.ty = 1 ∧ q.msg.ink = w.epoch ∧ q.sent = 0) ∧
  (∃ c, t.leaf.quill.last = some c ∧ c.instant = w.instant ∧ c.epoch = w.epoch ∧ c.opened = true)

/-- A window's life (R88, R97, R98, R122): the instant of the time base is the next multiple of the period; it waits for a window unless
the leaf is idle or stopped; a window opens once every bank has applied the marker, at the first enabled channel; it closes when every
channel has had its turn, or at its deadline. -/
def WindowLife : Prop :=
  ∀ (s : State),
    let l := s.leaf
    let k := l.nextInstant
    (l.tickMode = true → exec .frameInstant s = .next s ∧ exec .windowDeadline s = .next s) ∧
    (l.tickMode = false → l.quill.win = none → l.quill.pend = [] → l.time.inks = [] →
      k % l.period = 0 ∧ l.time.ns ≤ k ∧ (∀ i, l.time.lastInst = some i → i < k) ∧
      ∃ t, exec .frameInstant s = .next t ∧ t.leaf.time.lastInst = some k ∧ t.leaf.time.ns = k ∧
      (l.idle = false → l.flag GlR.CH_STAT_STOPPED = false → ∃ w, t.leaf.quill.pend = [w] ∧ w.instant = k ∧
        w.epoch = l.epoch ∧ w.cfg = l.quill.actCfg ∧ w.bank = l.actBank ∧ w.fields = []) ∧
      (l.idle = true ∨ l.flag GlR.CH_STAT_STOPPED = true → t.leaf.quill.pend = [])) ∧
    (l.cap.instWait ≠ [] ∨ l.quill.win.isSome ∨ l.quill.pend = [] → exec .captureWindowOpen s = .next s) ∧
    (∀ w rest, l.cap.instWait = [] → l.quill.win = none → l.quill.pend = w :: rest → ∃ t w', exec .captureWindowOpen s = .next t ∧
      t.leaf.quill.win = some w' ∧ t.leaf.quill.pend = rest ∧ w'.instant = w.instant ∧ w'.epoch = w.epoch ∧
      w'.held = l.cap.heldNow ∧
      (enabledOf (l.slices w.bank) = [] → w'.chan = none) ∧
      (∀ c sl cs, enabledOf (l.slices w.bank) = (c, sl) :: cs → l.flag (GlR.QL_CHST_DIS.at (4 * c)) = false →
        w'.chan = some c ∧ w'.pc = 0 ∧ w'.exec = 0)) ∧
    (l.quill.win = none ∨ (∃ w, l.quill.win = some w ∧ w.chan.isSome) → exec .frameClose s = .next s) ∧
    (∀ w, l.quill.win = some w → w.chan = none → ∃ t, exec .frameClose s = .next t ∧ FrameClosed s t w ∧
      t.leaf.time = l.time) ∧
    (∀ w, l.tickMode = false → l.quill.win = some w → ∃ t, exec .windowDeadline s = .next t ∧ FrameClosed s t w ∧
      w.instant + periodNs w.pcode.toNat - 1000 ≤ t.leaf.time.ns ∧
      (w.chan.isSome → t.leaf.flag GlR.QL_STAT_DEADLINE = true))

/-- The Inkline at a leaf (R122, R123, R147, R150): its time applies the epoch in one step, with STOP, the committed config epoch and the
minor version agreed on; an epoch that is not later is dropped; a cut that has not completed 400 µs after T closes with what is missing. -/
def InklineAtLeaf : Prop :=
  ∀ (s : State),
    let l := s.leaf
    (l.timeRuns = false ∨ l.time.inks = [] → exec .inklineTime s = .next s) ∧
    (∀ m rest, l.timeRuns = true → l.time.inks = m :: rest → l.quill.win = none → l.quill.pend = [] →
      m.time.toNat ≤ l.nextInstant → ∃ t, exec .inklineTime s = .next t ∧ m.time.toNat ≤ t.leaf.time.ns ∧
      (laterInk m.epoch l.epoch = true → t.leaf.epoch = m.epoch ∧ t.leaf.time.inks = rest.filter (fun x => laterInk x.epoch m.epoch) ∧
        t.leaf.fld GlR.CH_STAT_STOPPED = b2n m.kind.stop ∧ t.leaf.fld GlR.CH_CUT_EP = m.epoch.toNat % 2 ^ 16 ∧
        t.leaf.fld GlR.CH_CUT_KIND = kindNum m.kind ∧ t.leaf.quill.newEp = true ∧
        t.leaf.chain.cfg = (if m.kind.commit then m.cfg else l.chain.cfg) ∧
        t.leaf.fld GlR.CH_STAT_EFF_MINOR = l.fld GlR.CH_STAT_NEXT_MINOR) ∧
      (m.epoch = l.epoch ∨ laterInk l.epoch m.epoch = true → t.leaf.epoch = l.epoch ∧ t.leaf.time.inks = rest ∧
        t.leaf.quill = l.quill)) ∧
    (l.chain.cut = none → exec .cutTimeout s = .next s) ∧
    (∀ c, l.chain.cut = some c → ∃ t, exec .cutTimeout s = .next t ∧ t.leaf.chain.cut = none ∧ t.leaf.chain.lastCut = c.epoch ∧
      queuedOne s t 1 6 ∧ t.leaf.fld GlR.CH_CUT_MISSING = popcount (c.posMask &&& ~~~(c.ontime ||| c.late)) ∧
      c.start + 400000 ≤ t.leaf.time.ns)

/-! ## The leaf: the Reed chain -/

/-- Something leaves the leaf on a Reed port. -/
def reedOut (s t : State) (p : Bool) (m : ReedMsg) (bad : Bool) : Prop := t.leaf.out = s.leaf.out ++ [.reed p m bad]

/-- Links (R131, R133): a stall or a rail error takes a wired port down, and a leaf with no port up is isolated; training sends HELLO;
a HELLO of the same MAJOR brings the port up, another is refused; what a port that is not wired receives has no effect. -/
def ReedLinks : Prop :=
  ∀ (s : State) (p : Bool),
    let l := s.leaf
    (∀ lost, ∀ i ∈ [Instr.reedStall p lost, .reedRailError p lost],
      (l.wired p = false → exec i s = .next s) ∧
      (l.wired p = true → ∃ t, exec i s = .next t ∧ (t.leaf.port p).st = .down ∧
        (t.leaf.port (!p)).st = (l.port (!p)).st ∧
        ((l.port p).st ≠ .down → leafCounts s t (GlR.CH_ERR_DOWNS.at (portOff p))) ∧
        (l.isUp (!p) = false → t.leaf.fld GlR.CH_STAT_ROLE = roleIsolated) ∧
        (l.isUp (!p) = true → t.leaf.fld GlR.CH_STAT_ROLE = l.fld GlR.CH_STAT_ROLE))) ∧
    (l.wired p = false ∨ l.isUp p = true → exec (.reedTrainRetry p) s = .next s) ∧
    (l.wired p = true → l.isUp p = false → ∃ t m, exec (.reedTrainRetry p) s = .next t ∧ (t.leaf.port p).st = .train ∧
      (t.leaf.port p).sent = true ∧ reedOut s t p (.hello m) false ∧ m.fleet = l.fleet ∧ m.pos = l.pins.pkgpos) ∧
    (∀ m ok, l.wired p = false → exec (.reedHello p m ok) s = .next s) ∧
    (∀ m, l.wired p = true → ∃ t, exec (.reedHello p m false) s = .next t ∧ leafCounts s t (GlR.CH_ERR_CRC.at (portOff p)) ∧
      t.leaf.chain = l.chain) ∧
    (∀ m, l.wired p = true → ∃ t, exec (.reedHello p m true) s = .next t ∧ t.leaf.reg (0x2040 + 2 * portOff p) = m.fleet ∧
      (l.isUp p = true → (t.leaf.port p).st = .up ∧ t.leaf.out = l.out) ∧
      (l.isUp p = false → bits m.version.toNat 7 4 = l.fld GlR.IDENT_VERSION_MAJOR → (t.leaf.port p).st = .up) ∧
      (l.isUp p = false → bits m.version.toNat 7 4 ≠ l.fld GlR.IDENT_VERSION_MAJOR → (t.leaf.port p).st = .down ∧
        t.leaf.flag GlR.CH_STAT_MAJOR_ERR = true))

/-- Ticks and routes (R112, R135, R149): a HOP leaves the neighbour's turnaround, its direction and a measurement; a TICK at a member
counts the hops and goes on with one more; the master's own TICK closes the ring; the master sends a TICK on each port that is up at the
next multiple of 50 µs; a route ends without ticks. -/
def ReedTicks : Prop :=
  ∀ (s : State) (p : Bool),
    let l := s.leaf
    (∀ z tw ok q zo, l.isUp p = false → exec (.reedHop p z tw ok q zo) s = .next s) ∧
    (∀ (z : BitVec 16) tw q zo, l.isUp p = true → ∃ t, exec (.reedHop p z tw true q zo) s = .next t ∧ (t.leaf.port p).toward = tw ∧
      (t.leaf.port p).nbrZ = z.toNat ∧ (t.leaf.port p).zs = (zo :: (l.port p).zs).take 256 ∧
      (t.leaf.port p).meas = (((q : Int) - z.toNat) / 2 :: (l.port p).meas).take 256) ∧
    (∀ z tw q zo, l.isUp p = true → ∃ t, exec (.reedHop p z tw false q zo) s = .next t ∧
      leafCounts s t (GlR.CH_ERR_CRC.at (portOff p)) ∧ (t.leaf.port p).toward = (l.port p).toward ∧
      (t.leaf.port p).meas = (l.port p).meas) ∧
    (∀ m ok hold q zo, l.isUp p = false → exec (.reedTick p m ok hold q zo) s = .next s) ∧
    (∀ m hold q zo, l.isUp p = true → l.isMaster = false → l.tickMode = false → ∃ t, exec (.reedTick p m true hold q zo) s = .next t ∧
      (t.leaf.port p).hops = some (m.hops.toNat + 1) ∧ (t.leaf.port p).tickAt = l.time.clk ∧
      (l.isUp (!p) = true → ∃ m', t.leaf.out.getLast? = some (.reed (!p) (.tick m') false) ∧ m'.hops = m.hops + 1)) ∧
    (∀ m hold q zo, l.isUp p = true → l.isMaster = true → ∃ t, exec (.reedTick p m true hold q zo) s = .next t ∧
      (m.time.toNat / 50000 * 50000 = l.chain.tickSent / 50000 * 50000 → t.leaf.flag GlR.CH_STAT_RING = true) ∧
      (m.time.toNat / 50000 * 50000 ≠ l.chain.tickSent / 50000 * 50000 →
        t.leaf.fld GlR.CH_STAT_RING = l.fld GlR.CH_STAT_RING)) ∧
    (l.isMaster = false → exec .tickSend s = .next s) ∧
    (l.isMaster = true → l.timeRuns = true →
      let k := (max l.time.ns (l.chain.tickSent + 1) + 49999) / 50000 * 50000
      ∃ t, exec .tickSend s = .next t ∧ t.leaf.chain.tickSent = k ∧ t.leaf.time.ns = k ∧
      (∀ q, l.isUp q = true → .reed q (.tick ⟨BitVec.ofNat 64 k, 0, 0⟩) false ∈ t.leaf.out)) ∧
    (l.isMaster = true → ∃ t, exec (.routeTimeout p) s = .next t ∧ t.leaf.flag GlR.CH_STAT_RING = false ∧ t.leaf.chain = l.chain) ∧
    (l.isMaster = false → ∃ t, exec (.routeTimeout p) s = .next t ∧ (t.leaf.port p).hops = none ∧
      (t.leaf.port (!p)).hops = (l.port (!p)).hops)

/-- What a leaf that starts an election holds (R139): ROLE electing, no route, itself as the candidate where it is eligible. -/
def Elects (s t : State) (elig : Bool) : Prop :=
  t.leaf.fld GlR.CH_STAT_ROLE = roleElecting ∧ t.leaf.flag GlR.CH_STAT_RING = false ∧
  t.leaf.chain.portA.hops = none ∧ t.leaf.chain.portB.hops = none ∧ t.leaf.chain.selfNamed = elig ∧
  t.leaf.chain.cand = (if elig then some (BitVec.ofNat 4 (t.leaf.fld GlR.CH_CTL_MPRI), s.leaf.pins.pkgpos) else none)

/-- Elections (R138 to R141): a member that loses its master, or hears its abdication, starts one; a master that is told to, or whose
uplink stalls, gives up its role and is not eligible; a candidate that is better replaces the one known; the leaf that named itself
becomes master with the latest epochs heard; a written abdication is over after its time. -/
def ReedElections : Prop :=
  ∀ (s : State) (p : Bool),
    let l := s.leaf
    (l.fld GlR.CH_STAT_ROLE = roleMember → ∃ t, exec .masterLoss s = .next t ∧ Elects s t l.eligible) ∧
    (l.fld GlR.CH_STAT_ROLE ≠ roleMember → exec .masterLoss s = .next s) ∧
    (∀ pos ok, l.isUp p = false ∨ l.isMaster = true → exec (.reedAbdicate p pos ok) s = .next s) ∧
    (∀ pos, l.isUp p = true → l.fld GlR.CH_STAT_ROLE = roleMember → pos ≠ l.pins.pkgpos → ∃ t,
      exec (.reedAbdicate p pos true) s = .next t ∧ Elects s t l.eligible) ∧
    (∀ ap data, l.verdict ap 0x2000 true = .pass →
      (l.isMaster = true → ∃ t, exec (.abdicateWrite ap data) s = .next t ∧ Elects s t false ∧
        t.leaf.chain.abdWrite = some l.time.clk) ∧
      (l.isMaster = false → ∃ t, exec (.abdicateWrite ap data) s = .next t ∧ t.leaf.chain = l.chain ∧
        t.leaf.fld GlR.CH_CTL_MPRI = bits data.toNat 31 28)) ∧
    (l.isMaster = true → l.holdsCell = true → ∃ t, exec .uplinkStallAbdicate s = .next t ∧ Elects s t false ∧
      t.leaf.chain.abdStall = true) ∧
    (l.isMaster = false ∨ l.holdsCell = false → exec .uplinkStallAbdicate s = .next s) ∧
    (l.chain.abdWrite = none → exec .abdicateTimeout s = .next s) ∧
    (∀ k, l.chain.abdWrite = some k → ∃ t, exec .abdicateTimeout s = .next t ∧ t.leaf.chain.abdWrite = none ∧
      k + 310000 ≤ t.leaf.time.clk ∧ t.leaf.fld GlR.CH_STAT_ROLE = l.fld GlR.CH_STAT_ROLE) ∧
    (l.fld GlR.CH_STAT_ROLE = roleElecting → l.chain.selfNamed = true → ∃ t, exec .electionSettle s = .next t ∧
      t.leaf.isMaster = true ∧ t.leaf.fld GlR.CH_STAT_MPOS = l.pins.pkgpos.toNat ∧ t.leaf.reg 0x2008 = l.fleet ∧
      t.leaf.epoch = l.chain.elEpoch ∧ t.leaf.chain.cfg = l.chain.elCfg ∧ l.chain.candAt + 100000 ≤ t.leaf.time.clk) ∧
    (l.fld GlR.CH_STAT_ROLE ≠ roleElecting ∨ l.chain.selfNamed = false → exec .electionSettle s = .next s) ∧
    (∀ m ok, l.isUp p = false → exec (.reedElect p m ok) s = .next s) ∧
    (∀ m, l.isUp p = true → ∃ t, exec (.reedElect p m false) s = .next t ∧ leafCounts s t (GlR.CH_ERR_CRC.at (portOff p)) ∧
      t.leaf.chain = l.chain) ∧
    (∀ m : ElectMsg, l.isUp p = true → l.fld GlR.CH_STAT_ROLE = roleElecting → ∃ t, exec (.reedElect p m true) s = .next t ∧
      t.leaf.chain.cand = (if m.mpri ≠ 0 ∧ (∀ c, l.chain.cand = some c → better (m.mpri, m.pos) c = true)
        then some (m.mpri, m.pos) else l.chain.cand) ∧
      t.leaf.chain.elEpoch = (if laterInk m.epoch l.chain.elEpoch then m.epoch else l.chain.elEpoch)) ∧
    (∀ m : ElectMsg, l.isUp p = true → l.fld GlR.CH_STAT_ROLE = roleMember → l.isUp (!p) = true → ∃ t m',
      exec (.reedElect p m true) s = .next t ∧ reedOut s t (!p) (.elect m') false ∧ m'.pos = m.pos ∧ m'.mpri = m.mpri)

/-- STATE and REPORT (R139, R142, R152, R157): a leaf that is no master takes the master, the epochs and the agreed minor version from
STATE, catches up with a later epoch, and tells with AHEAD that its own is later; the master keeps each REPORT in its table; a member
passes it on. -/
def ReedStateAndReport : Prop :=
  ∀ (s : State) (p : Bool),
    let l := s.leaf
    (∀ m ok, l.isUp p = false → exec (.reedState p m ok) s = .next s) ∧
    (∀ m : StateMsg, l.isUp p = true → l.isMaster = false → ∃ t, exec (.reedState p m true) s = .next t ∧
      t.leaf.fld GlR.CH_STAT_ROLE = roleMember ∧ t.leaf.fld GlR.CH_STAT_MPOS = m.mpos.toNat ∧ t.leaf.reg 0x2008 = m.mfleet ∧
      t.leaf.chain.lastCut = m.lastCut ∧ t.leaf.fld GlR.CH_STAT_EFF_MINOR = m.effMin.toNat ∧
      (laterInk m.epoch l.epoch = true → t.leaf.epoch = m.epoch ∧ t.leaf.flag GlR.CH_CUT_CATCHUP = true) ∧
      (laterInk m.epoch l.epoch = false → t.leaf.epoch = l.epoch) ∧
      (laterInk l.epoch m.epoch = true → t.leaf.flag GlR.CH_STAT_AHEAD = true) ∧
      (l.isUp (!p) = true → t.leaf.out.getLast? = some (.reed (!p) (.state m) false))) ∧
    (∀ m, l.isUp p = true → l.isMaster = false → l.isUp (!p) = true → ∃ t, exec (.reedState p m false) s = .next t ∧
      leafCounts s t (GlR.CH_ERR_CRC.at (portOff p)) ∧ reedOut s t (!p) (.state m) true) ∧
    (∀ m ok, l.isUp p = false → exec (.reedReport p m ok) s = .next s) ∧
    (∀ m : ReportMsg, l.isUp p = true → l.isMaster = true → ∃ t x, exec (.reedReport p m true) s = .next t ∧
      tblLookup t.leaf.chain.members m.pos.toNat = some x ∧ x.report = m ∧ x.heard = l.time.clk) ∧
    (∀ m ok, l.isUp p = true → l.isMaster = false → l.isUp (!p) = true → ∃ t, exec (.reedReport p m ok) s = .next t ∧
      reedOut s t (!p) (.report m) (!ok)) ∧
    (∀ q, l.fld GlR.CH_STAT_ROLE = roleMember → l.route = some q → l.isUp q = true → ∃ t r, exec .reportSend s = .next t ∧
      reedOut s t q (.report r) false ∧ r.pos = l.pins.pkgpos ∧ r.fleet = l.fleet ∧ r.epoch = l.epoch ∧ r.idle = l.idle) ∧
    (l.fld GlR.CH_STAT_ROLE ≠ roleMember → exec .reportSend s = .next s)

/-- Inklines and flush markers on the chain (R145, R146, R149, R154): a member passes INK on and keeps it, in time order, when its epoch
is later, its time is to come and one of the four places is free; GO takes an epoch of the lease, or is refused; flush markers are
noted, and sent once what they follow has arrived. -/
def ReedInklines : Prop :=
  ∀ (s : State) (p : Bool),
    let l := s.leaf
    (∀ m ok, l.isUp p = false ∨ l.isMaster = true → exec (.reedInk p m ok) s = .next s) ∧
    (∀ m : InkMsg, l.isUp p = true → l.isMaster = false → ∃ t, exec (.reedInk p m true) s = .next t ∧
      (l.isUp (!p) = true → .reed (!p) (.ink m) false ∈ t.leaf.out) ∧
      (laterInk m.epoch l.epoch = true → (∀ x ∈ l.time.inks, x.epoch ≠ m.epoch ∧ x.time ≠ m.time) → l.time.ns ≤ m.time.toNat →
        l.time.inks.length < 4 → t.leaf.time.inks = insertInk m l.time.inks ∧ t.leaf.regs = l.regs) ∧
      (laterInk l.epoch m.epoch = true → (∀ x ∈ l.time.inks, x.epoch ≠ m.epoch) → leafCounts s t GlR.CH_CUT_REFUSED ∧
        t.leaf.time = l.time)) ∧
    (∀ gp data, l.verdict gp 0x2014 true = .pass →
      let k := bits data.toNat 30 28
      let at' := (l.reg 0x2018).toNat + (l.reg 0x201C).toNat * 2 ^ 32
      let left := l.fld GlR.CH_INK_CTL_LEASE_LEFT
      (l.isMaster = false ∨ left = 0 ∨ bit k 2 = true ∨ at' < l.time.ns + 20000 → ∃ t, exec (.inkGo gp data) s = .next t ∧
        leafCounts s t GlR.CH_CUT_REFUSED ∧ t.leaf.time = l.time ∧ t.leaf.reg 0x2020 = l.reg 0x2020) ∧
      (l.isMaster = true → left ≠ 0 → bit k 2 = false → l.time.ns + 20000 ≤ at' → at' + 50000 < 2 ^ 64 → ∃ t m,
        exec (.inkGo gp data) s = .next t ∧ t.leaf.reg 0x2020 = l.reg 0x2020 + 1 ∧
        t.leaf.fld GlR.CH_INK_CTL_LEASE_LEFT = left - 1 ∧ (m, m.time.toNat + 400000) ∈ t.leaf.chain.repeats ∧
        m.epoch = l.reg 0x2020 ∧ m.time.toNat % 50000 = 25000 ∧ at' ≤ m.time.toNat ∧ m.kind = kindOf k ∧
        (∀ q, l.isUp q = true → .reed q (.ink m) false ∈ t.leaf.out))) ∧
    (∀ al (ep : BitVec 16), l.isUp p = false ∨ (ep ≠ l.epoch.setWidth 16 ∧ ∀ m ∈ l.time.inks, m.epoch.setWidth 16 ≠ ep) →
      exec (.reedFlush p al ep) s = .next s) ∧
    (∀ al (ep : BitVec 16), l.isUp p = true → (ep = l.epoch.setWidth 16 ∨ ∃ m ∈ l.time.inks, m.epoch.setWidth 16 = ep) → ∃ t,
      exec (.reedFlush p al ep) s = .next t ∧ t.leaf.flushHas p al ep = true) ∧
    (∀ al, l.chain.flushDue.find? (fun d => d.1 == al) = none → exec (.reedFlushSend al) s = .next s) ∧
    (∀ e q, l.chain.flushDue.find? (fun d => d.1) = some (true, e) → l.isMaster = false → l.flushReady true e = true →
      l.route = some q → l.isUp q = true → ∃ t, exec (.reedFlushSend true) s = .next t ∧ reedOut s t q (.flush true e) false ∧
      t.leaf.chain.flushDue = l.chain.flushDue.filter (fun d => d != (true, e))) ∧
    (∀ e, l.chain.flushDue.find? (fun d => !d.1) = some (false, e) → l.isMaster = true → l.quill.frameFlush = [] →
      l.chain.heldWave = none → l.isUp false = true → ∃ t, exec (.reedFlushSend false) s = .next t ∧
      reedOut s t false (.flush false e) false)

/-- Alarms, waves and registrations on the chain (R22, R136, R144, R163): a member passes an alarm on, the master sends it to its tray
once; a member holds a wave until the window of its instant is closed and then passes it on with its contribution; a wave back at the
master completes; a leaf without a fleet ID registers again. -/
def ReedAlarmsAndWaves : Prop :=
  ∀ (s : State) (p : Bool),
    let l := s.leaf
    (∀ m ok, l.isUp p = false → exec (.reedAlarm p m ok) s = .next s) ∧
    (∀ m ok, l.isUp p = true → l.isMaster = false → l.isUp (!p) = true → ∃ t, exec (.reedAlarm p m ok) s = .next t ∧
      reedOut s t (!p) (.alarm m) (!ok)) ∧
    (∀ (m : AlarmMsg) x, l.isUp p = true → l.isMaster = true → tblLookup l.chain.members m.pos.toNat = some x →
      (l.alarmSeen x.report.fleet m.aseq = true → exec (.reedAlarm p m true) s = .next s) ∧
      (l.alarmSeen x.report.fleet m.aseq = false → ∃ t, exec (.reedAlarm p m true) s = .next t ∧ queuedOne s t 0 2 ∧
        t.leaf.alarmSeen x.report.fleet m.aseq = true)) ∧
    (∀ m ok, l.isUp p = false → exec (.reedWave p m ok) s = .next s) ∧
    (∀ (m : WaveMsg) ok, l.isUp p = true → l.isMaster = false → l.waveWait m.tstamp = none → l.chain.heldWave = none → ∃ t,
      exec (.reedWave p m ok) s = .next t ∧ t.leaf.chain.heldWave = some (p, m, !ok) ∧ t.leaf.out = l.out) ∧
    (∀ (m : WaveMsg) ok c, l.isUp p = true → l.isMaster = false → l.waveWait m.tstamp = some c → l.isUp (!p) = true → ∃ t m',
      exec (.reedWave p m ok) s = .next t ∧ reedOut s t (!p) (.wave m') (!ok) ∧ m'.tstamp = m.tstamp ∧ m'.bad = (m.bad || !ok) ∧
      t.leaf.fld GlR.CH_WAVE_WAVES = (l.fld GlR.CH_WAVE_WAVES + 1) % 2 ^ 16 ∧
      (c = none → m'.mask = m.mask ∧ m'.recs = m.recs)) ∧
    (∀ m ok, l.isUp p = true → l.isMaster = true → l.chain.waveOut = none → exec (.reedWave p m ok) s = .next s) ∧
    (∀ (m : WaveMsg) c, l.isUp p = true → l.isMaster = true → l.chain.waveOut = some (c, 1, none) →
      c.instant % 2 ^ 32 = m.tstamp.toNat → ∃ t, exec (.reedWave p m true) s = .next t ∧ t.leaf.chain.waveOut = none ∧
      queuedOne s t 2 5 ∧ t.leaf.fld GlR.CH_WAVE_WAVES = (l.fld GlR.CH_WAVE_WAVES + 1) % 2 ^ 16) ∧
    (l.fleet = 0 → l.flag GlR.IDENT_STATUS_READY = true → ∃ t, exec .registrationTimer s = .next t ∧ queuedOne s t 1 7) ∧
    (l.fleet ≠ 0 → exec .registrationTimer s = .next s)

/-! ## The leaf: records, the Peat log, scrub, configuration messages -/

/-- The value that a write of a Peat log register asks to store (Table 15.5): the out-of-service mark is bit 0, the seed takes its low
word from the one staged. -/
def peatAsked (l : Leaf) (r : PeatReg) (data : Word) : DWord :=
  match r with
  | .oos => data.setWidth 64 &&& 1
  | .seed => data.setWidth 64 <<< 32 ||| (l.reg 0xC010).setWidth 64
  | _ => data.setWidth 64

/-- The Peat log (R348, R349): a write of the value in force stores nothing; with no slot free it is exhausted; otherwise the value is
committed in the next slot and in force; the health states are not written so. -/
def PeatLog : Prop :=
  ∀ (s : State) (r : PeatReg) (p : Port) (data : Word) (blows : List Blow),
    s.leaf.verdict p (peatOff r) true = .pass →
    let v := peatAsked s.leaf r data
    (r = .health → exec (.peatLogWrite r p data blows) s = .next s) ∧
    (r ≠ .health → ∃ t, exec (.peatLogWrite r p data blows) s = .next t ∧
      (v = s.leaf.peatValue r → t.leaf.peat = s.leaf.peat ∧ t.leaf.fld GlR.PT_STAT_LAST_RES = 1) ∧
      (v ≠ s.leaf.peatValue r → s.leaf.peatFree r = 0 → t.leaf.fld GlR.PT_STAT_LAST_RES = 2 ∧
        ∀ k, t.leaf.peat.slots k = s.leaf.peat.slots k) ∧
      (v ≠ s.leaf.peatValue r → 0 < s.leaf.peatFree r → blows = [] ∨ (∃ bs, blows = .ok :: bs) →
        t.leaf.peat.slots r = s.leaf.peat.slots r ++ [.committed v] ∧ t.leaf.peatValue r = v ∧
        t.leaf.fld GlR.PT_STAT_LAST_RES = 0 ∧ ∀ k, k ≠ r → t.leaf.peat.slots k = s.leaf.peat.slots k))

/-- Reading the leaf's recorders in the secure world (R345, R346): the cursor finds its record or misses; NEXT goes to the first record
after it; a dump is taken, queued behind up to four, or refused; each message of a running dump enters the Bulk queue. -/
def LeafRecorders : Prop :=
  ∀ (s : State) (p : Port) (data : Word),
    let l := s.leaf
    (l.verdict p 0xB004 true = .pass → p.ns = false →
      let r := l.fld GlR.IW_CTL_REC
      ∃ t, exec (.iwCursorWrite .leaf p data) s = .next t ∧ t.leaf.fld GlR.IW_CURSOR_SEQ = data.toNat ∧
      ((tget l.iw.recs r).find data.toNat = none → t.leaf.fld GlR.IW_STAT_RES = 1 ∧ t.leaf.iw.window = []) ∧
      (∀ x, (tget l.iw.recs r).find data.toNat = some x → t.leaf.iw.window = inkBytes false r x ∧
        t.leaf.fld GlR.IW_STAT_RES = (if l.inkBad r data.toNat then 2 else 0)) ∧ t.leaf.iw.recs = l.iw.recs) ∧
    (l.verdict p 0xB000 true = .pass → p.ns = false → bit data.toNat 31 = false →
      let r := bits data.toNat 27 24
      let after := (tget l.iw.recs r).held.dropWhile (fun x => decide (x.seq ≤ l.fld GlR.IW_CURSOR_SEQ))
      ∃ t, exec (.iwNext .leaf p data) s = .next t ∧
      (after = [] → t.leaf.fld GlR.IW_STAT_RES = 1 ∧ t.leaf.iw.window = []) ∧
      (∀ x xs, after = x :: xs → t.leaf.iw.window = inkBytes false r x ∧
        t.leaf.fld GlR.IW_CURSOR_SEQ = x.seq % 2 ^ 32)) ∧
    (l.verdict p 0xB000 true = .pass →
      (l.iw.dumps.length < 5 → ∃ t d, exec (.iwDump p data) s = .next t ∧ t.leaf.iw.dumps.length = l.iw.dumps.length + 1 ∧
        t.leaf.iw.dumps.getLast? = some d ∧ d.recNo = bits data.toNat 27 24 ∧ d.id = l.iw.dumpId ∧ d.reason = 2 ∧
        t.leaf.iw.dumpId = l.iw.dumpId + 1) ∧
      (5 ≤ l.iw.dumps.length → ∃ t, exec (.iwDump p data) s = .next t ∧ t.leaf.iw.dumps = l.iw.dumps ∧
        t.leaf.flag GlR.IW_STAT_DREFUSED = true)) ∧
    (l.iw.dumps = [] → exec .historyDumpMessage s = .next s) ∧
    (l.iw.dumps ≠ [] → ∃ t, exec .historyDumpMessage s = .next t ∧ queuedOne s t 4 0x0C)

/-- Patrol scrub (R387, R391, R392): the next word of the leaf or of Polornaz is decoded; a corrected word counts; an uncorrectable one is
known as such from then on, and counts, as one whose write-back fails its parity is (R390); the pass goes on to the next word. -/
def PatrolScrub : Prop :=
  ∀ (s : State) (raw : List Byte) (par : Bool),
    (∀ a, ∃ t, exec (.scrubRead (.leaf a) raw par) s = .next t ∧
      (s.leaf.ecc.ptr < 65535 → t.leaf.ecc.ptr = s.leaf.ecc.ptr + 1) ∧
      (s.leaf.ecc.ptr = 65535 → t.leaf.ecc.ptr = 0 ∧ t.leaf.fld GlR.EC_SCRUB_PASSES =
        (s.leaf.fld GlR.EC_SCRUB_PASSES + 1) % 2 ^ (GlR.EC_SCRUB_PASSES.hi + 1 - GlR.EC_SCRUB_PASSES.lo)) ∧
      (symDecode s.leaf.ecc.ptr raw = .clean → t.leaf.isBad a = false ∧ t.leaf.fld GlR.EC_STAT_CE = s.leaf.fld GlR.EC_STAT_CE) ∧
      (∀ i d, symDecode s.leaf.ecc.ptr raw = .corrected i d → t.leaf.isBad a = par ∧ leafCounts s t GlR.EC_STAT_CE ∧
        (par = true → leafCounts s t GlR.EC_STAT_PAR)) ∧
      (symDecode s.leaf.ecc.ptr raw = .uncorrectable → t.leaf.isBad a = true ∧ leafCounts s t GlR.EC_STAT_UE)) ∧
    (∃ t, exec (.scrubRead .sram raw par) s = .next t ∧
      (s.pz.hl.sram + 1 < 2 ^ 29 → t.pz.hl.sram = s.pz.hl.sram + 1) ∧
      (2 ^ 29 ≤ s.pz.hl.sram + 1 → t.pz.hl.sram = 0) ∧
      (∀ i d, s.pz.exists? (32 * s.pz.hl.sram) = true → s.pz.hl.sram < 2 ^ 29 → symDecode s.pz.hl.sram raw = .corrected i d →
        (par = false → s.pz.hl.sram ∉ t.pz.hl.bad) ∧ (par = true → s.pz.hl.sram ∈ t.pz.hl.bad) ∧ pzCounts s t (PzR.EC_DIE_CE.at (4 * sramDie (32 * s.pz.hl.sram)))) ∧
      (s.pz.exists? (32 * s.pz.hl.sram) = true → symDecode s.pz.hl.sram raw = .uncorrectable → s.pz.hl.sram ∈ t.pz.hl.bad) ∧
      t.leaf = s.leaf) ∧
    (∃ t, exec (.scrubRead .dram raw par) s = .next t ∧
      (s.pz.hl.dram + 1 < s.pz.dramSize / 32 → t.pz.hl.dram = s.pz.hl.dram + 1) ∧ t.leaf = s.leaf)

/-- A configuration message that the leaf has not acted on. -/
def freshMsg (s : State) (h : CtlHead) (op : Nat) : Prop := s.leaf.ctl.acted.find? (fun a => a.isOf h op) = none

/-- A further copy of a configuration message is acknowledged as the first was and changes nothing else (R324). -/
def CopiesAreAcknowledged : Prop :=
  ∀ (s : State) (h : CtlHead) (a : Acted) (st d : Nat),
    ∀ i ∈ [((1 : Nat), Instr.ctlWrite h []), (2, .ctlArm h 0 0 false false), (3, .ctlInk .leaf h default),
        (4, .ctlLease .leaf h true 0 0), (5, .ctlAssign h 0 false 0), (6, .ctlTeardown h 0 0), (7, .ctlSubmaster h 0),
        (0xF, .ctlTgrant h 0 0 false 0)],
      s.leaf.ctl.acted.find? (fun x => x.isOf h i.1) = some a → a.answer = some (st, d) →
      ∃ t, exec i.2 s = .next t ∧ queuedOne s t 1 9 ∧ t.leaf.regs = s.leaf.regs ∧ t.leaf.ctl = s.leaf.ctl ∧
        t.leaf.chain = s.leaf.chain ∧ t.leaf.quill = s.leaf.quill

/-- Loading and arming (R326, R327): a WRITE sets the registers that its records name, or stops at one that it may not name; an ARM takes
its epoch, or one far ahead, and is answered when the check ends; a lease and an Inkline reach the chain master. -/
def LeafLoading : Prop :=
  ∀ (s : State) (h : CtlHead),
    let l := s.leaf
    (freshMsg s h 1 → ∃ t, exec (.ctlWrite h []) s = .next t ∧ queuedOne s t 1 9 ∧ t.leaf.regs = l.regs) ∧
    (∀ (off : BitVec 16) w r, freshMsg s h 1 → off.toNat ∈ leafPlain → recordBarred off.toNat = false →
      l.verdict Port.record off.toNat true = .pass → findRow glRows off.toNat = some r →
      ∃ t, exec (.ctlWrite h [.write off [w]]) s = .next t ∧ queuedOne s t 1 9 ∧
      ∀ f ∈ r.flds, bits (t.leaf.reg off.toNat).toNat f.hi f.lo = writtenBits f (l.reg off.toNat).toNat w.toNat) ∧
    (∀ (off : BitVec 16) w ws rs, freshMsg s h 1 → recordBarred off.toNat = true →
      ∃ t, exec (.ctlWrite h (.write off (w :: ws) :: rs)) s = .next t ∧ queuedOne s t 1 9 ∧ t.leaf.regs = l.regs) ∧
    (∀ ep pc far, freshMsg s h 2 → ∃ t, exec (.ctlArm h ep pc false far) s = .next t ∧ t.leaf.quill.arming = none ∧
      t.leaf.quill.checking = some (⟨if far then l.epoch + 0x40000000 else ep, h.cfg, pc⟩, some ⟨h.cseq, h.sender, h.cfg⟩) ∧
      t.leaf.flag GlR.QL_CTL_ARMED = false ∧ t.leaf.ul = l.ul) ∧
    (∀ m : InkMsg, freshMsg s h 3 → l.isMaster = false → laterInk m.epoch l.epoch = true →
      (∀ x ∈ l.time.inks, x.epoch ≠ m.epoch ∧ x.time ≠ m.time) → l.time.ns ≤ m.time.toNat → l.time.inks.length < 4 →
      ∃ t, exec (.ctlInk .leaf h m) s = .next t ∧ queuedOne s t 1 9 ∧ t.leaf.time.inks = insertInk m l.time.inks) ∧
    (∀ base count, freshMsg s h 4 → ∃ t, exec (.ctlLease .leaf h true base count) s = .next t ∧ queuedOne s t 1 9 ∧
      (l.isMaster = true → t.leaf.reg 0x2020 = base ∧ t.leaf.fld GlR.CH_INK_CTL_LEASE_LEFT = min 255 count.toNat) ∧
      (l.isMaster = false → t.leaf.regs = l.regs)) ∧
    (∀ ep cfg, ∃ t, exec (.ctlKeepalive .leaf h ep cfg) s = .next t ∧ t.leaf.ctl.tray = some h.sender ∧
      (l.isMaster = true → queuedOne s t 1 8) ∧ (l.isMaster = false → t.leaf.ul = l.ul))

/-- Ownership and grants at a leaf (R141, R199, R200, R310, R331, R336): an ASSIGN that names it sets its tag; a TEARDOWN of its tag waits
for its Inkline, or is carried out when that is in force, one of another tag is answered NOTOWNER; a master becomes a sub-master; a test
grant waits for its Inkline; a fence holds at once or at its Inkline. -/
def LeafOwnership : Prop :=
  ∀ (s : State) (h : CtlHead),
    let l := s.leaf
    (∀ rcpt ph pc, freshMsg s h 5 → ∃ t, exec (.ctlAssign h rcpt ph pc) s = .next t ∧ queuedOne s t 1 9 ∧
      (l.named rcpt = true → t.leaf.jobTag = h.tag.toNat ∧ t.leaf.fld GlR.CH_JOB_PHASE = b2n ph ∧
        t.leaf.fld GlR.CH_JOB_PCODE = pc.toNat ∧ t.leaf.flag GlR.CH_JOB_TD = false) ∧
      (l.named rcpt = false → t.leaf.regs = l.regs)) ∧
    (∀ rcpt ep, freshMsg s h 6 → l.named rcpt = true → l.jobTag = h.tag.toNat → laterInk ep l.epoch = true → ∃ t,
      exec (.ctlTeardown h rcpt ep) s = .next t ∧ t.leaf.ctl.teardown = some ⟨ep, h.cseq, h.sender⟩ ∧ t.leaf.regs = l.regs ∧
      t.leaf.ul = l.ul) ∧
    (∀ rcpt ep, freshMsg s h 6 → l.named rcpt = true → l.jobTag = h.tag.toNat → laterInk ep l.epoch = false → ∃ t,
      exec (.ctlTeardown h rcpt ep) s = .next t ∧ t.leaf.ctl.teardown = none ∧ t.leaf.flag GlR.QL_CTL_EN = false ∧
      t.leaf.flag GlR.CH_JOB_TD = true ∧ queuedOne s t 1 9) ∧
    (∀ rcpt ep, freshMsg s h 6 → l.named rcpt = true → l.jobTag ≠ h.tag.toNat → ∃ t, exec (.ctlTeardown h rcpt ep) s = .next t ∧
      queuedOne s t 1 9 ∧ t.leaf.regs = l.regs ∧ t.leaf.ctl.teardown = l.ctl.teardown) ∧
    (∀ master, freshMsg s h 7 → ∃ t, exec (.ctlSubmaster h master) s = .next t ∧ queuedOne s t 1 9 ∧
      (l.isMaster = true → master ≠ l.fleet → t.leaf.chain.subOf = some master ∧ t.leaf.flag GlR.CH_STAT_SUB = true) ∧
      (l.isMaster = false → t.leaf.chain = l.chain)) ∧
    (∀ ep (u : BitVec 4) all (win : BitVec 24), freshMsg s h 0xF → ∃ t, exec (.ctlTgrant h ep u all win) s = .next t ∧
      queuedOne s t 1 9 ∧
      (laterInk ep l.epoch = true → all = false → l.isDue u.toNat = true →
        tget t.leaf.test.grants u.toNat = some ⟨ep, win.toNat⟩) ∧
      (laterInk ep l.epoch = true → all = true → t.leaf.test.allGrant = some ⟨ep, win.toNat⟩) ∧
      (laterInk ep l.epoch = false → leafCounts s t GlR.TS_STAT_IGNORED ∧ t.leaf.test = l.test)) ∧
    (∀ f ep, ∃ t, exec (.fenceNoticeRx f ep) s = .next t ∧ t.leaf.regs = l.regs ∧
      (ep = 0 ∨ laterInk ep l.epoch = false → t.leaf.ctl.fenced = f ∧ t.leaf.ctl.fencePend = none) ∧
      (ep ≠ 0 → laterInk ep l.epoch = true → t.leaf.ctl.fencePend = some (ep, f) ∧ t.leaf.ctl.fenced = l.ctl.fenced)) ∧
    (∀ m : AckMsg, ∃ t, exec (.configAckRx .leaf m) s = .next t ∧
      t.leaf.ctl.asked = l.ctl.asked.filter (fun a => a.1 != m.cseq) ∧ t.leaf.regs = l.regs) ∧
    (∀ rcpt cseq, l.ctl.asked.find? (fun a => a.1 == cseq) = none → exec (.configRepeat .leaf rcpt cseq) s = .next s) ∧
    (∀ rcpt cseq m, l.ctl.asked.find? (fun a => a.1 == cseq) = some (cseq, m) → ∃ t q, exec (.configRepeat .leaf rcpt cseq) s = .next t ∧
      tget t.leaf.ul.queues m.cls.toNat = tget l.ul.queues m.cls.toNat ++ [q] ∧ q.msg = m) ∧
    (∀ f, l.isMaster = false → exec (.memberProbeRx f) s = .next s) ∧
    (∀ f, l.isMaster = true → (f = l.fleet ∨ ∃ m ∈ l.chain.members, m.2.report.fleet = f) → ∃ t,
      exec (.memberProbeRx f) s = .next t ∧ queuedOne s t 1 7)

/-! ## Polornaz: power, reset, heat, links, sideband -/

/-- The governor and the clock monitor (R221 to R224): the level moves by at most one toward demand, within the ceiling, and rises
only below the power cap; ballast runs while demand is below the level; a ratio below 1.0 sets BELOW_FLOOR. -/
def Governor : Prop :=
  ∀ (s : State),
    (∀ demand watts, s.pz.runs = false → exec (.govStep demand watts) s = .next s) ∧
    (∀ (demand : BitVec 7) (watts : BitVec 10), s.pz.runs = true →
      let l := s.pz.fld PzR.GOV_STAT_LEVEL
      let want := min (min demand.toNat 64) (s.pz.fld PzR.THERM_STAT_CEIL)
      ∃ t, exec (.govStep demand watts) s = .next t ∧
      (want < l → t.pz.fld PzR.GOV_STAT_LEVEL = l - 1) ∧
      (l < want → watts.toNat < s.pz.pcap → t.pz.fld PzR.GOV_STAT_LEVEL = l + 1) ∧
      (l < want → s.pz.pcap ≤ watts.toNat → t.pz.fld PzR.GOV_STAT_LEVEL = l) ∧
      (l = want → t.pz.fld PzR.GOV_STAT_LEVEL = l) ∧
      t.pz.flag PzR.GOV_STAT_BALLAST = decide (demand.toNat < l) ∧
      t.pz.flag PzR.GOV_STAT_PCAP_HIT = (s.pz.flag PzR.GOV_STAT_PCAP_HIT || decide (s.pz.pcap ≤ watts.toNat)) ∧
      (∀ o, o ≠ 0x10204 → t.pz.reg o = s.pz.reg o)) ∧
    (∀ die ratio, s.pz.runs = false ∨ s.pz.dieOk die.toNat = false → exec (.speedMonitor die ratio) s = .next s) ∧
    (∀ (die : BitVec 4) (ratio : BitVec 16), s.pz.runs = true → s.pz.dieOk die.toNat = true →
      ∃ t, exec (.speedMonitor die ratio) s = .next t ∧ t.pz.fld (PzR.SPD_RATIO.at (4 * die.toNat)) = ratio.toNat ∧
      (ratio.toNat < 0x100 → t.pz.flag PzR.PKG_STAT_BELOW_FLOOR = true) ∧
      (0x100 ≤ ratio.toNat → (∀ o, o ≠ 0x10100 + 4 * die.toNat → t.pz.reg o = s.pz.reg o) ∧ t.pz.alarmQ = s.pz.alarmQ))

/-- Temperature (R413 to R415): every die's reading is kept, with its highest; a reading at the alarm limit sets HOT, one of 115 °C
pulls the trip pin; the ceiling falls by one while a base die is at its limit, and rises by one while all are 3 °C below. -/
def Thermal : Prop :=
  ∀ (s : State),
    (∀ rs : List Byte, s.pz.runs = true → ∃ t, exec (.tempSample rs) s = .next t ∧
      (∀ d, d < 18 → ∀ b, rs[d]? = some b → t.pz.temp d = sgn 8 b.toNat ∧
        sgn 8 (t.pz.fld (PzR.TEMP_PEAK.at (4 * d))) = max (sgn 8 (s.pz.fld (PzR.TEMP_PEAK.at (4 * d)))) (sgn 8 b.toNat) ∧
        ((min 110 (s.pz.fld PzR.THERM_CTL_TJ_ALM) : Nat) ≤ sgn 8 b.toNat → t.pz.flag PzR.THERM_STAT_HOT = true) ∧
        (115 ≤ sgn 8 b.toNat → t.pz.hl.trip.isSome = true ∧ (s.pz.hl.trip = none → t.pz.pins.tripN = false ∧
          t.pz.hl.trip = some s.pz.now))) ∧
      (∀ d, d < 16 → t.pz.temp d ≤ sgn 8 (t.pz.fld PzR.THERM_STAT_TMAX)) ∧
      sgn 8 (t.pz.fld PzR.THERM_STAT_TMAX) = t.pz.temp (t.pz.fld PzR.THERM_STAT_HOTDIE)) ∧
    (s.pz.runs = true →
      let c := s.pz.fld PzR.THERM_STAT_CEIL
      let thr : Int := (min 105 (s.pz.fld PzR.THERM_CTL_TJ_THR) : Nat)
      let low := min 64 (s.pz.fld PzR.THERM_CTL_CEIL_MIN)
      ∃ t, exec .ceilStep s = .next t ∧
      ((∃ d, d < 16 ∧ thr ≤ s.pz.temp d) → t.pz.fld PzR.THERM_STAT_CEIL = if low < c then c - 1 else c) ∧
      ((∀ d, d < 16 → s.pz.temp d ≤ thr - 3) → t.pz.fld PzR.THERM_STAT_CEIL = min 64 (c + 1)) ∧
      ((∀ d, d < 16 → s.pz.temp d < thr) → (∃ d, d < 16 ∧ thr - 3 < s.pz.temp d) → t.pz.fld PzR.THERM_STAT_CEIL = c) ∧
      t.pz.flag PzR.THERM_STAT_THROTTLE = decide (t.pz.fld PzR.THERM_STAT_CEIL < 64) ∧
      (∀ o, o ≠ 0x10404 → t.pz.reg o = s.pz.reg o)) ∧
    (s.pz.runs = false → exec .ceilStep s = .next s) ∧
    (s.pz.hl.trip = none → exec .thermTripShutdown s = .next s) ∧
    (∀ at_, s.pz.hl.trip = some at_ → s.pz.fld PzR.PWR_STAT_EN ≠ 0 → ∃ t, exec .thermTripShutdown s = .next t ∧
      t.pz.fld PzR.PWR_STAT_EN = 0 ∧ t.pz.fld PzR.PWR_STAT_PG = 0 ∧ t.pz.fld PzR.RST_STAT_CAUSE = 4 ∧ t.pz.pins.ready = false ∧
      t.pz.runs = false)

/-- The power-up sequence (R409, Table 18.5): a power-good of an enabled rail sets its bit, ends step 4 or 5 or asserts the next
enable; steps 3 and 6 to 10 end when their work is done and their rails are good. -/
def PowerUp : Prop :=
  ∀ (s : State),
    (∀ r : BitVec 3, bit (s.pz.fld PzR.PWR_STAT_EN) r.toNat = false ∨ s.pz.railGood r.toNat = true →
      exec (.railPowerGood r) s = .next s) ∧
    (∀ r : BitVec 3, bit (s.pz.fld PzR.PWR_STAT_EN) r.toNat = true → s.pz.railGood r.toNat = false →
      ∃ t, exec (.railPowerGood r) s = .next t ∧
      t.pz.fld PzR.PWR_STAT_PG = setBits (s.pz.fld PzR.PWR_STAT_PG) r.toNat r.toNat 1 ∧
      t.pz.step = (if r = 0 then 4 else if r = 1 then 5 else s.pz.step) ∧
      t.pz.fld PzR.PWR_STAT_EN = (if r = 0 then setBits (s.pz.fld PzR.PWR_STAT_EN) 1 1 1
        else if r = 3 then setBits (s.pz.fld PzR.PWR_STAT_EN) 4 4 1
        else if r = 5 then setBits (s.pz.fld PzR.PWR_STAT_EN) 6 6 1 else s.pz.fld PzR.PWR_STAT_EN) ∧
      (∀ o, o ≠ 0x10460 → t.pz.reg o = s.pz.reg o)) ∧
    (∀ (dies : BitVec 16) (keepers : BitVec 2) (channels : BitVec 24),
      let i := Instr.powerUpStepDone dies keepers channels
      (s.pz.pins.porN = false → exec i s = .next s) ∧
      (s.pz.pins.porN = true → s.pz.step = 2 → ∃ t, exec i s = .next t ∧ t.pz.step = 3 ∧
        bit (t.pz.fld PzR.PWR_STAT_EN) 0 = true) ∧
      (s.pz.pins.porN = true → s.pz.step = 5 → ∃ t, exec i s = .next t ∧ t.pz.step = 6 ∧
        t.pz.fld PzR.PKG_STAT_DIE_OK = dies.toNat ∧ t.pz.fld PzR.PKG_STAT_KEEPER_OK = keepers.toNat ∧
        bit (t.pz.fld PzR.PWR_STAT_EN) 2 = true) ∧
      (s.pz.pins.porN = true → s.pz.step = 6 → s.pz.railGood 2 = true → ∃ t, exec i s = .next t ∧ t.pz.step = 7 ∧
        t.pz.pins.ready = true ∧ bit (t.pz.fld PzR.PWR_STAT_EN) 3 = true) ∧
      (s.pz.pins.porN = true → s.pz.step = 7 → s.pz.railGood 4 = true → ∃ t, exec i s = .next t ∧ t.pz.step = 8 ∧
        bit (t.pz.fld PzR.PWR_STAT_EN) 5 = true) ∧
      (s.pz.pins.porN = true → s.pz.step = 8 → s.pz.railGood 6 = true → ∃ t, exec i s = .next t ∧ t.pz.step = 9 ∧
        ∀ c, c < 24 → bit (t.pz.fld PzR.DDR_STAT_TRAINED) c = (bit channels.toNat c && s.pz.dieOk (c / 2))) ∧
      (s.pz.pins.porN = true → s.pz.step = 9 → ∃ t, exec i s = .next t ∧ t.pz.step = 10 ∧ t.pz.flag PzR.PWR_STAT_UP = true) ∧
      (s.pz.pins.porN = true → ((s.pz.step = 6 ∧ s.pz.railGood 2 = false) ∨ (s.pz.step = 7 ∧ s.pz.railGood 4 = false) ∨
          (s.pz.step = 8 ∧ s.pz.railGood 6 = false) ∨ s.pz.step < 2 ∨ s.pz.step = 3 ∨ s.pz.step = 4 ∨ 10 ≤ s.pz.step) →
        exec i s = .next s))

/-- Resets and power-down (R409 to R412): a failed rail drops every enable and is recorded; `pz_por_n` low puts every register at its
reset value but for CAUSE and RAILF and leaves the memory empty and the Peat store as it is; its rise ends step 2; a warm reset is
recorded, and leaves no program, model or launch. -/
def DeviceResets : Prop :=
  ∀ (s : State),
    (∀ r : BitVec 3, bit (s.pz.fld PzR.PWR_STAT_EN) r.toNat = false → exec (.railFault r) s = .next s) ∧
    (∀ r : BitVec 3, bit (s.pz.fld PzR.PWR_STAT_EN) r.toNat = true → ∃ t, exec (.railFault r) s = .next t ∧
      t.pz.fld PzR.PWR_STAT_EN = 0 ∧ t.pz.fld PzR.PWR_STAT_PG = 0 ∧ t.pz.flag PzR.PWR_STAT_UP = false ∧ t.pz.runs = false ∧
      t.pz.fld PzR.DDR_STAT_TRAINED = 0 ∧ t.pz.pins.ready = false ∧ t.pz.pins.railLow = true ∧
      t.pz.fld PzR.RST_STAT_CAUSE = 5 ∧ bit (t.pz.fld PzR.RST_STAT_RAILF) r.toNat = true) ∧
    (∃ t, exec .pzPorFall s = .next t ∧ (∀ o, o ≠ 0x10464 → t.pz.reg o = pzReset o) ∧
      t.pz.fld PzR.RST_STAT_CAUSE = s.pz.fld PzR.RST_STAT_CAUSE ∧ t.pz.fld PzR.RST_STAT_RAILF = s.pz.fld PzR.RST_STAT_RAILF ∧
      t.pz.mem = [] ∧ t.pz.pins.porN = false ∧ t.pz.peat.k0 = s.pz.peat.k0 ∧ t.pz.peat.k1 = s.pz.peat.k1 ∧
      t.pz.peat.slots = s.pz.peat.slots ∧ t.pz.out = s.pz.out ∧ t.leaf = s.leaf) ∧
    (∀ ap torn, s.pz.pins.porN = true → exec (.pzPorRise ap torn) s = .next s) ∧
    (∀ ap torn, s.pz.pins.porN = false → ∃ t, exec (.pzPorRise ap torn) s = .next t ∧ t.pz.pins.porN = true ∧ t.pz.step = 2 ∧
      (ap = true → t.pz.fld PzR.RST_STAT_CAUSE = 1 ∧ t.pz.fld PzR.RST_STAT_RAILF = 0) ∧
      (ap = false → t.pz.fld PzR.RST_STAT_CAUSE = 2 ∧ t.pz.fld PzR.RST_STAT_RAILF = s.pz.fld PzR.RST_STAT_RAILF) ∧
      (torn = [] → t.pz.peat = s.pz.peat)) ∧
    (∀ dies torn, s.pz.pins.porN = false ∨ s.pz.fld PzR.PWR_STAT_EN = 0 → exec (.pzWarmReset dies torn) s = .next s) ∧
    (∀ (dies : BitVec 16) torn, s.pz.pins.porN = true → s.pz.fld PzR.PWR_STAT_EN ≠ 0 → ∃ t,
      exec (.pzWarmReset dies torn) s = .next t ∧ t.pz.fld PzR.RST_STAT_CAUSE = 3 ∧ t.pz.slots = [] ∧ t.pz.ctxs = [] ∧
      t.pz.models = [] ∧ t.pz.launches = [] ∧ t.pz.alarmQ = [] ∧ t.pz.recQ = [] ∧
      t.pz.flag PzR.PKG_STAT_ROLE_LOCK = false ∧ t.pz.fld PzR.GOV_STAT_LEVEL = 0 ∧
      (6 ≤ s.pz.step → t.pz.fld PzR.PKG_STAT_DIE_OK = dies.toNat) ∧ t.leaf = s.leaf)

/-- PCIe and the reference clock (R400, R401, R406): the endpoint follows the link while it is out of reset; a reset of the endpoint
switches the rings off and is recorded; a lost clock takes every port down. -/
def EndpointAndClock : Prop :=
  ∀ (s : State),
    (∀ up bm d3 mx, s.pz.pins.ready = true → s.pz.pins.perstN = true → ∃ t, exec (.pcieLinkChange up bm d3 mx) s = .next t ∧
      t.pz.pins.pcieUp = up ∧ t.pz.pins.busMaster = bm ∧ t.pz.pins.d3hot = d3 ∧ t.pz.pins.msixOn = mx ∧ t.pz.mem = s.pz.mem) ∧
    (∀ up bm d3 mx, s.pz.pins.ready = false ∨ s.pz.pins.perstN = false → exec (.pcieLinkChange up bm d3 mx) s = .next s) ∧
    (s.pz.pins.perstN = false → exec .perstAssert s = .next s) ∧
    (s.pz.pins.perstN = true → ∃ t, exec .perstAssert s = .next t ∧ t.pz.pins.perstN = false ∧ t.pz.pins.pcieUp = false ∧
      t.pz.pins.busMaster = false ∧ t.pz.fld PzR.AL_RSIZE_ENTRIES = 0 ∧ t.pz.fld PzR.VD_RSIZE_UNITS = 0 ∧
      t.pz.fld PzR.MB_RSIZE_ENTRIES = 0 ∧ t.pz.flag PzR.RST_STAT_PERST = true ∧ t.pz.fld PzR.MSIX_PBA_PBA = 0 ∧
      (s.pz.fld PzR.SN_STAT_STATE = 3 → t.pz.snap.now = none)) ∧
    (∃ t, exec .perstRelease s = .next t ∧ t.pz.pins.perstN = true ∧ t.pz.regs = s.pz.regs ∧ t.pz.mem = s.pz.mem) ∧
    (s.pz.pins.refclk = true → 3 ≤ s.pz.step → ∃ t, exec .pzRefclkLost s = .next t ∧ t.pz.pins.refclk = false ∧
      (∀ p, p < 18 → t.pz.linkUp p = false) ∧
      (∀ p, p < 18 → s.pz.linkUp p = true → pzCounts s t (PzR.PORT_STAT_DOWNS.at (8 * p)))) ∧
    (∃ t, exec .pzRefclkReturn s = .next t ∧ t.pz.pins.refclk = true ∧ ∀ p, p < 18 → t.pz.linkUp p = s.pz.linkUp p)

/-- Mesh and Ethernet links (R215, R398, R399): a link of the mesh that is down is kept, and each packet lost is recorded; a port that
drops counts; one comes up only with its option, clock, rails and die; a new option takes the port down, and 25 Gb/s is no option of
U0 and U1. -/
def MeshAndPorts : Prop :=
  ∀ (s : State),
    (∀ a b lost, s.pz.runs = false ∨ meshNeighbours a.toNat b.toNat = false → exec (.meshLinkDown a b lost) s = .next s) ∧
    (∀ (a b : BitVec 4) lost, s.pz.runs = true → meshNeighbours a.toNat b.toNat = true → ∃ t,
      exec (.meshLinkDown a b lost) s = .next t ∧ (a, b) ∈ t.pz.hl.mesh ∧ (∀ x ∈ s.pz.hl.mesh, x ∈ t.pz.hl.mesh) ∧
      t.pz.flag PzR.PKG_STAT_MESH_DEG = true ∧ (lost = [] → t.pz.iw = s.pz.iw) ∧
      (∀ p, lost = [p] → (tget t.pz.iw.recs 0).last = seqNext (tget s.pz.iw.recs 0).last)) ∧
    (∀ p : BitVec 5, s.pz.linkUp p.toNat = false ∨ 18 ≤ p.toNat → exec (.linkDrop p) s = .next s) ∧
    (∀ p : BitVec 5, p.toNat < 18 → s.pz.linkUp p.toNat = true → ∃ t, exec (.linkDrop p) s = .next t ∧
      t.pz.linkUp p.toNat = false ∧ pzCounts s t (PzR.PORT_STAT_DOWNS.at (8 * p.toNat)) ∧
      ∀ q, q < 18 → q ≠ p.toNat → t.pz.linkUp q = s.pz.linkUp q) ∧
    (∀ p : BitVec 5, s.pz.linkUp p.toNat = true ∨ s.pz.portOn p.toNat = false ∨ s.pz.pins.refclk = false ∨ s.pz.step < 8 ∨
        s.pz.dieOk (portDie p.toNat) = false → exec (.linkUp p) s = .next s) ∧
    (∀ p : BitVec 5, p.toNat < 18 → s.pz.linkUp p.toNat = false → s.pz.portOn p.toNat = true → s.pz.pins.refclk = true →
      8 ≤ s.pz.step → s.pz.dieOk (portDie p.toNat) = true → ∃ t, exec (.linkUp p) s = .next t ∧
      t.pz.linkUp p.toNat = true ∧ ∀ q, q < 18 → q ≠ p.toNat → t.pz.linkUp q = s.pz.linkUp q) ∧
    (∀ (p : BitVec 5) (port : Port) (data : Word), p.toNat < 18 → port.ns = false → port.side = false →
      s.pz.flag PzR.SEC_VIEW_ALIAS_OFF = false → s.pz.verdict port (viewAddr port (0x50800 + 8 * p.toNat)) = .pass →
      (16 ≤ p.toNat → bits data.toNat 31 29 = 1 ∨ bits data.toNat 31 29 = 2 → exec (.portModeWrite p port data) s = .next s) ∧
      (p.toNat < 16 ∨ (bits data.toNat 31 29 ≠ 1 ∧ bits data.toNat 31 29 ≠ 2) → ∃ t, exec (.portModeWrite p port data) s = .next t ∧
        t.pz.linkUp p.toNat = false ∧ t.pz.fld (PzR.PORT_CFG_MODE.at (8 * p.toNat)) = bits data.toNat 31 29 ∧
        pzCounts s t (PzR.PORT_STAT_DOWNS.at (8 * p.toNat))))

/-- JTAG and the sideband (R403, R404): each instruction is selected, IDCODE shifts out 0x30D2056D and SAMPLE/PRELOAD what was
captured; addresses are assigned and given up, each query answers with its number of bytes; a register is read and written as a whole
secure word, with status 1 beyond BAR0 and 2 from a part that is out. Before step 3 neither answers. -/
def SidebandAndJtag : Prop :=
  ∀ (s : State), 3 ≤ s.pz.step →
    (∀ p ∈ [(Instr.jtagBypass, (0 : BitVec 3)), (.jtagExtest, 3), (.jtagClamp, 4), (.jtagHighz, 5)],
      exec p.1 s = .next { s with pz := { s.pz with pins := { s.pz.pins with jtag := p.2 } } }) ∧
    (exec .jtagIdcode s = .next { s with pz := { s.pz with
      pins := { s.pz.pins with jtag := 1 }, out := s.pz.out ++ [.jtag 0x30D2056D] } }) ∧
    (∀ cap pre, exec (.jtagSamplePreload cap pre) s = .next { s with pz := { s.pz with
      pins := { s.pz.pins with jtag := 2, boundary := pre }, out := s.pz.out ++ [.jtag cap] } }) ∧
    (∀ a, s.pz.i3c.dyn = none → ∃ t bs, exec (.i3cEntdaa a) s = .next t ∧ t.pz.i3c.dyn = some a ∧
      t.pz.out = s.pz.out ++ [.i3c bs] ∧ bs.length = 8) ∧
    (∀ a, s.pz.i3c.dyn.isSome = true → exec (.i3cEntdaa a) s = .next s) ∧
    (∀ st a : BitVec 7, s.pz.i3c.dyn = none → st.toNat = 0x58 + s.pz.pins.i3cAddr.toNat → ∃ t, exec (.i3cSetdasa st a) s = .next t ∧
      t.pz.i3c.dyn = some a ∧ t.pz.out = s.pz.out) ∧
    (∀ st a : BitVec 7, s.pz.i3c.dyn.isSome = true ∨ st.toNat ≠ 0x58 + s.pz.pins.i3cAddr.toNat →
      exec (.i3cSetdasa st a) s = .next s) ∧
    (∀ a, s.pz.i3c.dyn.isSome = true → ∃ t, exec (.i3cSetnewda a) s = .next t ∧ t.pz.i3c.dyn = some a) ∧
    (∃ t, exec .i3cRstdaa s = .next t ∧ t.pz.i3c.dyn = none ∧ t.pz.regs = s.pz.regs) ∧
    (∀ q ∈ [(Instr.i3cGetpid, 6), (.i3cGetbcr, 1), (.i3cGetdcr, 1), (.i3cGetstatus, 2), (.i3cGetmwl, 2), (.i3cGetmrl, 3)],
      ∃ bs, exec q.1 s = .next { s with pz := { s.pz with out := s.pz.out ++ [.i3c bs] } } ∧ bs.length = q.2) ∧
    (∀ q ∈ [(Instr.i3cEnec, true), (.i3cDisec, false)],
      exec q.1 s = .next { s with pz := { s.pz with i3c := { s.pz.i3c with ibi := q.2 } } }) ∧
    (∀ addr : Word, 0x4000000 ≤ addr.toNat →
      (∃ t, exec (.i3cRegisterRead addr) s = .next t ∧ t.pz.out = s.pz.out ++ [.i3c [0, 0, 0, 0, 1]] ∧ t.pz.regs = s.pz.regs) ∧
      ∀ data, exec (.i3cRegisterWrite addr data) s = .next s) ∧
    (∀ addr : Word, addr.toNat < 0x4000000 → s.pz.blockUp (addr.toNat % 2 ^ 25) = false →
      (∃ t, exec (.i3cRegisterRead addr) s = .next t ∧ t.pz.out = s.pz.out ++ [.i3c [0, 0, 0, 0, 2]] ∧ t.pz.regs = s.pz.regs) ∧
      ∀ data, exec (.i3cRegisterWrite addr data) s = .next s) ∧
    (∀ addr : Word, addr.toNat < 0x4000000 → s.pz.blockUp (addr.toNat % 2 ^ 25) = true →
      (∃ t, exec (.i3cRegisterRead addr) s = .next t ∧ t.pz.out = s.pz.out ++ [.i3c (leB 4 t.pz.rdata.toNat ++ [0])]) ∧
      ∀ data, s.pz.pins.porN = true → barOff (addr.setWidth 26) ∈ pzPlain → ∀ r, findRow pzRows (barOff (addr.setWidth 26)) = some r →
        ∃ t, exec (.i3cRegisterWrite addr data) s = .next t ∧ ∀ f ∈ r.flds,
          bits (t.pz.reg (barOff (addr.setWidth 26))).toNat f.hi f.lo =
            writtenBits f (s.pz.reg (barOff (addr.setWidth 26))).toNat data.toNat)

/-- Before step 3 neither JTAG nor the sideband answers (R403, R404). -/
def SidebandSilent : Prop :=
  ∀ (s : State), s.pz.step < 3 →
    ∀ i ∈ [Instr.jtagBypass, .jtagIdcode, .jtagSamplePreload 0 0, .jtagExtest, .jtagClamp, .jtagHighz, .i3cEntdaa 8,
        .i3cSetdasa 0x58 8, .i3cSetnewda 8, .i3cRstdaa, .i3cGetpid, .i3cGetbcr, .i3cGetdcr, .i3cGetstatus, .i3cGetmwl, .i3cGetmrl,
        .i3cEnec, .i3cDisec, .i3cRegisterWrite 0x10000 0], exec i s = .next s

/-! ## Polornaz: time -/

/-- PTP messages sent (R118, Table 5.5): a master port sends Sync with its departure, Announce of the grandmaster heard one step
further or of this clock, and answers a delay request; a slave port asks and keeps when; each kind counts its sequence. -/
def PtpSends : Prop :=
  ∀ (s : State) (dom : Bool),
    (∀ (p : BitVec 5) t1, p.toNat < 18 → s.pz.ptpState p.toNat dom = .master → ∃ t, exec (.ptpSyncSend p dom t1) s = .next t ∧
      t.pz.out = s.pz.out ++ [.ptp p.toNat dom (.sync (s.pz.ptp p.toNat dom).seq t1)] ∧
      (t.pz.ptp p.toNat dom).seq = (s.pz.ptp p.toNat dom).seq + 1 ∧ t.pz.regs = s.pz.regs) ∧
    (∀ p : BitVec 5, p.toNat < 18 → s.pz.ptpState p.toNat dom = .master → ∃ t a, exec (.ptpAnnounceSend p dom) s = .next t ∧
      t.pz.out = s.pz.out ++ [.ptp p.toNat dom (.announce a (s.pz.ptp p.toNat dom).aseq)] ∧
      a.sender = s.pz.clockId ∧ a.port = BitVec.ofNat 16 (p.toNat + 1) ∧
      (s.pz.hasSlave dom = false → a.gm = s.pz.clockId ∧ a.steps = 0) ∧
      (∀ e q, s.pz.bestHeard dom = some (e, q) → s.pz.hasSlave dom = true → a.gm = e.gm ∧ a.steps = e.steps + 1)) ∧
    (∀ (p : BitVec 5) seq src t4, p.toNat < 18 → s.pz.ptpState p.toNat dom = .master →
      exec (.ptpDelayReqRx p dom seq src t4) s =
        .next { s with pz := { s.pz with out := s.pz.out ++ [.ptp p.toNat dom (.delayResp seq src t4)] } }) ∧
    (∀ p : BitVec 5, s.pz.ptpState p.toNat dom ≠ .master → exec (.ptpAnnounceSend p dom) s = .next s ∧
      (∀ t1, exec (.ptpSyncSend p dom t1) s = .next s) ∧
      ∀ seq src t4, exec (.ptpDelayReqRx p dom seq src t4) s = .next s) ∧
    (∀ u t3, s.pz.ptpState (upNo u) dom = .slave → ∃ t, exec (.ptpDelayReqSend u dom t3) s = .next t ∧
      t.pz.out = s.pz.out ++ [.ptp (upNo u) dom (.delayReq (s.pz.ptp (upNo u) dom).dseq)] ∧
      (t.pz.ptp (upNo u) dom).dreq = some ((s.pz.ptp (upNo u) dom).dseq, (t3 : Int))) ∧
    (∀ u t3, s.pz.ptpState (upNo u) dom ≠ .slave → exec (.ptpDelayReqSend u dom t3) s = .next s)

/-- The servo of a domain after an offset of `th` ns (R118): in FREE or beyond 1000 ns the phase steps and the servo acquires; else its
rate follows, held within 200 ppm. -/
def ServoAfter (old new : Servo) (th : Int) : Prop :=
  (old.st.toNat = svFree ∨ 1000 < th ∨ th < -1000 → new.ns = ((old.ns : Int) - th).toNat ∧ new.st.toNat = svAcquire ∧
    new.adj = old.adj) ∧
  (old.st.toNat ≠ svFree → -1000 ≤ th → th ≤ 1000 → new.ns = old.ns ∧
    new.integ = clampI (-200000) 200000 (old.integ + th / 2 ^ 6) ∧ new.adj = clampI (-200000) 200000 (new.integ + th / 2 ^ 2))

/-- PTP messages received (R105, R118, R120): the offset is arrival less departure, corrections, mean path delay and asymmetry; a
two-step Sync waits for its Follow_Up; a delay response gives the mean path delay; an Announce is heard, and forgotten when it stays
away. -/
def PtpReceives : Prop :=
  ∀ (s : State) (u dom : Bool) (seq : BitVec 16),
    let x := s.pz.ptp (upNo u) dom
    let asym := sgn 32 (s.pz.reg (0x40140 + 4 * b2n u)).toNat
    let slave := s.pz.ptpState (upNo u) dom = .slave
    (∀ origin corr t2, ¬ slave → exec (.ptpSyncRx u dom seq origin corr t2) s = .next s) ∧
    (∀ (t1 : Nat) (corr : Int) (t2 : Nat), slave → ∃ t, exec (.ptpSyncRx u dom seq (some t1) corr t2) s = .next t ∧
      ServoAfter (s.pz.servo (b2n dom)) (t.pz.servo (b2n dom)) (((t2 : Int) - t1 - corr - x.mpd - asym) / 16) ∧
      (t.pz.ptp (upNo u) dom).down = some ((t2 : Int) - t1 - corr)) ∧
    (∀ (corr : Int) (t2 : Nat), slave → ∃ t, exec (.ptpSyncRx u dom seq none corr t2) s = .next t ∧
      (t.pz.ptp (upNo u) dom).sync = some (seq, (t2 : Int), corr) ∧ t.pz.time.doms = s.pz.time.doms ∧ t.pz.time.ns = s.pz.time.ns) ∧
    (∀ (origin : Nat) (corr c t2 : Int), x.sync = some (seq, t2, c) → slave → ∃ t,
      exec (.ptpFollowUpRx u dom seq origin corr) s = .next t ∧
      ServoAfter (s.pz.servo (b2n dom)) (t.pz.servo (b2n dom)) ((t2 - origin - c - corr - x.mpd - asym) / 16) ∧
      (t.pz.ptp (upNo u) dom).sync = none) ∧
    (∀ origin corr, x.sync = none → exec (.ptpFollowUpRx u dom seq origin corr) s = .next s) ∧
    (∀ origin corr q t2 c, x.sync = some (q, t2, c) → q ≠ seq → exec (.ptpFollowUpRx u dom seq origin corr) s = .next s) ∧
    (∀ (received : Nat) (corr t3 d : Int), x.dreq = some (seq, t3) → x.down = some d → slave → ∃ t,
      exec (.ptpDelayRespRx u dom seq received corr) s = .next t ∧
      (t.pz.ptp (upNo u) dom).mpd = (d + ((received : Int) - corr - t3)) / 2 ∧ (t.pz.ptp (upNo u) dom).dreq = none ∧
      t.pz.time.doms = s.pz.time.doms) ∧
    (∀ received corr, x.dreq = none → exec (.ptpDelayRespRx u dom seq received corr) s = .next s) ∧
    (∀ a, s.pz.linkUp (upNo u) = false ∨ a.sender = s.pz.clockId ∨ 255 ≤ a.steps.toNat →
      exec (.ptpAnnounceRx u dom a) s = .next s) ∧
    (∀ a, s.pz.linkUp (upNo u) = true → a.sender ≠ s.pz.clockId → a.steps.toNat < 255 → x.heard = none → ∃ t,
      exec (.ptpAnnounceRx u dom a) s = .next t ∧ (t.pz.ptp (upNo u) dom).heard = some a) ∧
    (s.pz.linkUp (upNo u) = false → exec (.ptpAnnounceTimeout u dom) s = .next s) ∧
    (s.pz.linkUp (upNo u) = true → ∃ t, exec (.ptpAnnounceTimeout u dom) s = .next t ∧ (t.pz.ptp (upNo u) dom).heard = none)

/-- Time cells, holdover, pulses and stamps (R109, R120, R127, R128): a tray sends a leaf the departure time with its last marked
cell's times; in holdover the estimate passes 100, then 500 ns; a pulse leaves at its time, on the output's clock; a one-shot time in
the past is MISSED; an edge is stamped into its queue of 64, or counts as dropped; a read takes the oldest stamp. -/
def StampsAndPulses : Prop :=
  ∀ (s : State),
    (∀ fleet t1 r, s.pz.route fleet = some r → s.pz.role = 0 → s.pz.linkUp r.port.toNat = true → ∃ t,
      exec (.timeCellSend fleet t1) s = .next t ∧
      t.pz.out = s.pz.out ++ [.timeCell r.port.toNat fleet t1 r.t4 (s.pz.reg (0x40100 + 4 * r.port.toNat))] ∧
      t.pz.now = max s.pz.now (t1 / 16) ∧ t.pz.regs = s.pz.regs) ∧
    (∀ fleet t1, s.pz.route fleet = none ∨ s.pz.role ≠ 0 → exec (.timeCellSend fleet t1) s = .next s) ∧
    (s.pz.time.hoAt = none → exec .holdoverThreshold s = .next s) ∧
    (∀ at_, s.pz.time.hoAt = some at_ → s.pz.time.begun = true → ∃ t, exec .holdoverThreshold s = .next t ∧
      (s.pz.timeLevel < 2 → t.pz.flag PzR.TM_STAT_OUT_OF_SPEC = true ∧ s.pz.now ≤ t.pz.now) ∧
      (s.pz.timeLevel = 2 → t.pz.flag PzR.TM_STAT_UNTIMED = true ∧ s.pz.now ≤ t.pz.now)) ∧
    (∀ n : BitVec 2, s.pz.step < 3 ∨ s.pz.nextPulse n.toNat = none → exec (.toutPulse n) s = .next s) ∧
    (∀ (n : BitVec 2) w at_, 3 ≤ s.pz.step → s.pz.nextPulse n.toNat = some (w, at_) → ∃ t, exec (.toutPulse n) s = .next t ∧
      t.pz.now = s.pz.now + w ∧ tblLookup t.pz.time.pulses n.toNat = some at_ ∧
      t.pz.out = s.pz.out ++ [.pulse n.toNat (8 * max 1 (s.pz.fld (PzR.TOUT_CFG_WIDTH.at (16 * n.toNat)))) (s.pz.now + w)]) ∧
    (∀ (n : BitVec 2) (high : Bool) p data, Admitted s p (0x40204 + 16 * n.toNat + 4 * b2n high) → ∃ t,
      exec (.toutOneshotWrite n high p data) s = .next t ∧ t.pz.reg (0x40204 + 16 * n.toNat + 4 * b2n high) = data ∧
      (high = true → t.pz.oneshot n.toNat < s.pz.now → t.pz.flag (PzR.TOUT_CFG_MISSED.at (16 * n.toNat)) = true) ∧
      t.pz.time = s.pz.time) ∧
    (∀ (n : BitVec 2) (rising : Bool) (at_ : Nat),
      let q := tget s.pz.time.tin n.toNat
      let chosen := bit (s.pz.fld (PzR.TIN_CFG_EDGE.at (16 * n.toNat))) (if rising then 0 else 1)
      (s.pz.step < 3 ∨ chosen = false → exec (.triggerInputEdge n rising at_) s = .next s) ∧
      (∀ last, tblLookup s.pz.time.tinAt n.toNat = some last → at_ < last + 16 → exec (.triggerInputEdge n rising at_) s = .next s) ∧
      (3 ≤ s.pz.step → chosen = true → (∀ last, tblLookup s.pz.time.tinAt n.toNat = some last → last + 16 ≤ at_) →
        (q.length < 64 → ∃ t, exec (.triggerInputEdge n rising at_) s = .next t ∧
          tget t.pz.time.tin n.toNat = q ++ [(at_, rising, tget s.pz.time.tinLost n.toNat)] ∧
          t.pz.fld (PzR.TIN_CFG_LEVEL.at (16 * n.toNat)) = q.length + 1) ∧
        (64 ≤ q.length → ∃ t, exec (.triggerInputEdge n rising at_) s = .next t ∧ tget t.pz.time.tin n.toNat = q ∧
          pzCounts s t (PzR.TIN_CFG_DROPS.at (16 * n.toNat))))) ∧
    (∀ (n : BitVec 2) p x rest, Admitted s p (0x40304 + 16 * n.toNat) → tget s.pz.time.tin n.toNat = x :: rest → ∃ t,
      exec (.tinDataRead n p) s = .next t ∧ t.pz.rdata = BitVec.ofNat 32 x.1 ∧ tget t.pz.time.tin n.toNat = rest ∧
      t.pz.caps.find? (fun c => c.1 == pzCapKey p (0x40308 + 16 * n.toNat)) =
        some (pzCapKey p (0x40308 + 16 * n.toNat), BitVec.ofNat 32 (x.1 / 2 ^ 32))) ∧
    (∀ (n : BitVec 2) p, Admitted s p (0x40304 + 16 * n.toNat) → tget s.pz.time.tin n.toNat = [] → ∃ t,
      exec (.tinDataRead n p) s = .next t ∧ t.freeCtr = s.freeCtr + 1 ∧ tget t.pz.time.tin n.toNat = [] ∧
      (tblLookup s.pz.time.tinAt n.toNat = none → t.pz.rdata = 0))

/-! ## Polornaz: snapshots, keeper state, BAR2 -/

/-- Snapshots and restores (R359 to R363): the background copy takes what drain-ahead left; a drain of a leaf takes the next slot; the
leaf section closes after LEAFWAIT with what is missing; the drain writes image, header and at last the header's CRC, and tells the
snapshot's number; a restore is checked, then scheduled, and puts every range back. -/
def Snapshots : Prop :=
  ∀ (s : State),
    (s.pz.snap.now = none → exec .snapshotCopyDone s = .next s ∧ exec .leafwaitExpiry s = .next s ∧
      exec .snapshotDrainDone s = .next s) ∧
    (∀ sn, s.pz.snap.now = some sn → sn.copied = true → exec .snapshotCopyDone s = .next s) ∧
    (∀ sn, s.pz.snap.now = some sn → sn.copied = false → (∀ pg ∈ sn.pages, s.pz.badIn (4096 * pg) 4096 = none) → ∃ t,
      exec .snapshotCopyDone s = .next t ∧ t.pz.snap.now = some { sn with pages := [], copied := true } ∧
      t.pz.fld PzR.SN_STAT_STATE = if sn.closed then 3 else 2) ∧
    (∀ sn, s.pz.snap.now = some sn → sn.closed = true → exec .leafwaitExpiry s = .next s) ∧
    (∀ sn, s.pz.snap.now = some sn → sn.closed = false → ∃ t, exec .leafwaitExpiry s = .next t ∧
      t.pz.snap.now = some { sn with closed := true, missing := sn.want.filter (fun w => !sn.leaves.any (· == w)) } ∧
      t.pz.fld PzR.SN_STAT_STATE = (if sn.copied then 3 else 1) ∧
      sn.time + 1000000 * max 1 (s.pz.fld PzR.SN_CTL_LEAFWAIT) ≤ t.pz.now ∧ t.pz.mem = s.pz.mem) ∧
    (∀ sn, s.pz.snap.now = some sn → sn.copied = false ∨ sn.closed = false → exec .snapshotDrainDone s = .next s) ∧
    (∀ sn, s.pz.snap.now = some sn → sn.copied = true → sn.closed = true →
      let len := imageLen sn.ranges
      s.pz.badIn (s.pz.snapBase + 4096) (len - 4096) = none →
      (s.pz.hostUp = false → ∃ t, exec .snapshotDrainDone s = .next t ∧ t.pz.snap.now = none ∧ t.pz.fld PzR.SN_STAT_STATE = 0 ∧
        t.pz.out = s.pz.out ∧ t.pz.mem = s.pz.mem) ∧
      (s.pz.hostUp = true → ∃ t body head, exec .snapshotDrainDone s = .next t ∧ t.pz.snap.now = none ∧
        t.pz.fld PzR.SN_STAT_STATE = 0 ∧ (t.pz.reg 0xB0008).toNat = sn.seq % 2 ^ 32 ∧
        Leaves s t [.hostCopy (s.pz.hostSlot sn.seq + 4096) (len - 4096) body, .host (s.pz.hostSlot sn.seq) (head.take 0x2C),
          .host (s.pz.hostSlot sn.seq + 0x30) (head.drop 0x30), .host (s.pz.hostSlot sn.seq + 0x2C) (slice head 0x2C 4)] ∧
        head.length = 4096 ∧ memBytes t.pz.mem s.pz.snapBase 4096 = head ∧
        ∀ a, a < s.pz.snapBase ∨ s.pz.snapBase + 4096 ≤ a → tget t.pz.mem a = tget s.pz.mem a)) ∧
    (∀ p : BitVec 4, s.pz.takeMsg p.toNat 4 0x0D = none → exec (.snapshotDrainRx p) s = .next s) ∧
    (∀ (p : BitVec 4) m cs z, s.pz.takeMsg p.toNat 4 0x0D = some (m, cs, z) →
      (s.pz.route m.fleet = none → ∃ t, exec (.snapshotDrainRx p) s = .next t ∧
        pzCounts s t (PzR.ING_Q3_UNKNOWN.at (16 * p.toNat)) ∧ t.pz.snap = s.pz.snap) ∧
      (∀ r sn, s.pz.route m.fleet = some r → s.pz.snap.now = some sn → sn.closed = false → sn.pages = [] →
        leAt m.body 0 4 = sn.epoch.toNat → leAt m.body 5 3 = sn.tag.toNat → m.fleet ∉ sn.leaves → sn.leaves.length < 512 → ∃ t c,
        exec (.snapshotDrainRx p) s = .next t ∧ t.pz.snap.now = some { sn with leaves := sn.leaves ++ [m.fleet], closed := c } ∧
        (c = true ↔ ∀ w ∈ sn.want, w = m.fleet ∨ w ∈ sn.leaves))) ∧
    (∀ p data, Admitted s p 0xB002C →
      (s.pz.restoreErr ≠ 0 → ∃ t, exec (.restoreGo p data) s = .next t ∧ t.pz.fld PzR.SN_STAT_RERR = s.pz.restoreErr ∧
        t.pz.flag PzR.SN_STAT_RFAIL = true ∧ t.pz.snap = s.pz.snap ∧ t.pz.mem = s.pz.mem) ∧
      (s.pz.restoreErr = 0 → ∃ t tag, exec (.restoreGo p data) s = .next t ∧ t.pz.fld PzR.SN_STAT_RERR = 0 ∧
        t.pz.snap.restore = some (data.setWidth 16, tag) ∧ tag.toNat = memLoad s.pz.mem (s.pz.snapBase + 5) 3 ∧
        t.pz.snap.now = s.pz.snap.now ∧ t.pz.mem = s.pz.mem)) ∧
    (s.pz.snap.running = none → exec .restoreDone s = .next s) ∧
    (∀ tag, s.pz.snap.running = some tag → ∃ t, exec .restoreDone s = .next t ∧ t.pz.snap.running = none ∧
      t.pz.fld PzR.SN_STAT_STATE = 0 ∧ t.pz.mem = s.pz.imageRanges.foldl (fun m r =>
        memCopy m (s.pz.snapBase + rangeOff s.pz.imageRanges r.1) r.1 r.2) s.pz.mem)

/-- The Peat store of Polornaz (R352, R355, R357): a word that a keeper in service verifies is in force, one that none verifies is
not, with LAST_RES; a save goes to the slot that does not hold the newer state; SAVEMIN's end makes a save that is due; a cleared
mark leaves the routing entry in service. -/
def PeatStoreRows : Prop :=
  ∀ (s : State) (p : Port) (data : Word),
    (∀ (addr : BitVec 26) v1, s.pz.verdict p addr = .pass → s.pz.secure p addr = true → barOff addr = 0x90000 → s.pz.role ≠ 2 →
      (s.pz.peatCopy 0).wear < 1000000 → s.pz.keeperOk 0 = true →
      ∃ t, exec (.peatStoreWrite p addr data true v1) s = .next t ∧ t.pz.fleet = data ∧ t.pz.fld PzR.PS_STAT_LAST_RES = 0 ∧
      t.pz.peatWord 0 0 = data.setWidth 64 ∧ (t.pz.peatCopy 0).wear = (s.pz.peatCopy 0).wear + 1) ∧
    (∀ (addr : BitVec 26), s.pz.verdict p addr = .pass → s.pz.secure p addr = true → barOff addr = 0x90000 → s.pz.role ≠ 2 →
      (s.pz.peatCopy 0).wear < 1000000 → ∃ t, exec (.peatStoreWrite p addr data false false) s = .next t ∧
      t.pz.fleet = s.pz.fleet ∧ t.pz.fld PzR.PS_STAT_LAST_RES = 2 ∧ t.pz.peat = s.pz.peat) ∧
    (∀ (addr : BitVec 26) v0 v1, s.pz.verdict p addr = .pass → s.pz.secure p addr = true → barOff addr = 0x90000 → s.pz.role ≠ 2 →
      1000000 ≤ (s.pz.peatCopy 0).wear → ∃ t, exec (.peatStoreWrite p addr data v0 v1) s = .next t ∧
      t.pz.fleet = s.pz.fleet ∧ t.pz.fld PzR.PS_STAT_LAST_RES = 1 ∧ t.pz.peat = s.pz.peat) ∧
    (∀ (addr : BitVec 26) v0 v1, s.pz.verdict p addr = .silent → exec (.peatStoreWrite p addr data v0 v1) s = .next s) ∧
    (let k := if s.pz.fld PzR.PS_STAT_KSLOT = 1 then 1 else 0
     s.pz.keeperOk 0 = true → (∀ i, i < 8 → (s.pz.peatCopy (27 + 8 * k + i)).wear < 1000000) →
      (Admitted s p 0x90008 → ∃ t st, exec (.psSave p data) s = .next t ∧ t.pz.fld PzR.PS_STAT_KSLOT = k + 1 ∧
        tget t.pz.peat.slots k = some st ∧ st.seq = (s.pz.kState.map (·.seq)).getD 0 + 1 ∧ t.pz.peat.saved = some s.pz.now ∧
        t.pz.peat.due = false ∧ t.pz.fld PzR.PS_CTL_SAVEMIN = data.toNat % 2 ^ 16) ∧
      (∀ at_, s.pz.peat.saved = some at_ → s.pz.peat.due = true → ∃ t st, exec .saveminExpiry s = .next t ∧
        t.pz.fld PzR.PS_STAT_KSLOT = k + 1 ∧ tget t.pz.peat.slots k = some st ∧ t.pz.peat.due = false ∧
        at_ + s.pz.saveMin ≤ t.pz.now)) ∧
    (s.pz.peat.saved = none ∨ s.pz.peat.due = false → exec .saveminExpiry s = .next s) ∧
    (Admitted s p 0x90018 →
      (∀ r, s.pz.route data = some r → ∃ t, exec (.psOosclr p data) s = .next t ∧ t.pz.route data = some { r with oos := false }) ∧
      (s.pz.route data = none → s.pz.leafSlot data = none → exec (.psOosclr p data) s = .next s))

/-- The BAR2 window (R418, R419) within one code word: a refused request answers zeros and counts once by its reason; a read that
passes answers the bytes at BASE plus the offset; a write that passes writes them and nothing else. -/
def MemoryWindow : Prop :=
  ∀ (s : State) (off : BitVec 29),
    let port : Port := { ns := false, src := 0, size := 2, side := false }
    let win := off.toNat / 2 ^ 24
    let a := s.pz.b2Addr off.toNat
    let counts : B2Way → State → Prop := fun way t => match way with
      | .unmapped => pzCounts s t PzR.B2_STAT_UNMAPPED
      | .hole => pzCounts s t PzR.B2_STAT_HOLE
      | .hidden => pzCounts s t (PzR.SEC_VIOL_COUNT.at 60)
      | .prot => pzCounts s t PzR.B2_STAT_PROT
      | .pass => False
    (∀ len : BitVec 13, s.pz.answers port = false ∨ b2Legal off.toNat len.toNat = false → exec (.bar2Read off len) s =
      .next { s with pz := { s.pz with b2data := List.replicate len.toNat 0 } }) ∧
    (∀ data, s.pz.answers port = false ∨ b2Legal off.toNat data.length = false → exec (.bar2Write off data) s = .next s) ∧
    (∀ len : BitVec 13, s.pz.answers port = true → b2Legal off.toNat len.toNat = true → a % 32 + len.toNat ≤ 32 →
      ∃ t, exec (.bar2Read off len) s = .next t ∧ t.pz.mem = s.pz.mem ∧
      (s.pz.b2Way win (a / 32) false = .pass → (∀ w ∈ s.pz.hl.bad, w ≠ a / 32) →
        t.pz.b2data = (List.range len.toNat).map (fun i => s.pz.memByte (a + i)) ∧ t.pz.regs = s.pz.regs) ∧
      (s.pz.b2Way win (a / 32) false ≠ .pass → t.pz.b2data = List.replicate len.toNat 0 ∧
        counts (s.pz.b2Way win (a / 32) false) t)) ∧
    (∀ data : List Byte, s.pz.answers port = true → b2Legal off.toNat data.length = true → a % 32 + data.length ≤ 32 →
      ∃ t, exec (.bar2Write off data) s = .next t ∧
      (s.pz.b2Way win (a / 32) true ≠ .pass → t.pz.mem = s.pz.mem ∧ counts (s.pz.b2Way win (a / 32) true) t) ∧
      (s.pz.b2Way win (a / 32) true = .pass → (∀ w ∈ s.pz.hl.bad, w ≠ a / 32) →
        memBytes t.pz.mem a data.length = data ∧
        ∀ b, b < a ∨ a + data.length ≤ b → drained s.pz a data.length b = false → tget t.pz.mem b = tget s.pz.mem b))

/-! ## Polornaz: stations, launches, rings -/

/-- Triggers and dispatch (R229, R235, R236): a trigger fires when its condition holds and coalesces with one pending; a free context of
a station in service takes the slot chosen, Inkline before time before arrival, from its first word. -/
def TriggersAndDispatch : Prop :=
  ∀ (s : State) (st : BitVec 6) (p : BitVec 4),
    let q := s.pz.slot st.toNat p.toNat
    let after : State → PSlot := fun t => t.pz.slot st.toNat p.toNat
    (q.active = none → exec (.arrivalAgeExpiry st p) s = .next s ∧ exec (.timeTrigger st p) s = .next s ∧
      ∀ e k, exec (.inklineTrigger st p e k) s = .next s) ∧
    (∀ im, q.active = some im → q.disabled = false →
      (q.items im.tstream.toNat = [] ∨ im.arr = false ∨ im.age = 0 → exec (.arrivalAgeExpiry st p) s = .next s) ∧
      (∀ it its, q.items im.tstream.toNat = it :: its → im.arr = true → im.age ≠ 0 → ∃ t,
        exec (.arrivalAgeExpiry st p) s = .next t ∧ (after t).arr = some (Pend.add q.arr 0 false) ∧
        it.came + 1000 * im.age ≤ t.pz.now ∧ (after t).streams = q.streams) ∧
      (∀ e k, im.inkMatches e k = true → laterInk e s.pz.ctl.epoch = false → ∃ t, exec (.inklineTrigger st p e k) s = .next t ∧
        (after t).ink = some (Pend.add q.ink e.toNat false) ∧ (after t).streams = q.streams) ∧
      (∀ e k, im.inkMatches e k = false ∨ laterInk e s.pz.ctl.epoch = true → exec (.inklineTrigger st p e k) s = .next s) ∧
      (q.due = [] → exec (.timeTrigger st p) s = .next s) ∧
      (∀ at_, q.due = [at_] → ∃ t, exec (.timeTrigger st p) s = .next t ∧ (after t).tim = some (Pend.add q.tim at_ false) ∧
        at_ ≤ t.pz.now ∧ at_ ∉ ((after t).once.toList))) ∧
    (∀ c : BitVec 2, (s.pz.ctx st.toNat c.toNat).isSome = true ∨ s.pz.runs = false ∨ s.pz.dieOk (st.toNat / 4) = false ∨
      s.pz.choose st.toNat = none → exec (.dispatch st c) s = .next s) ∧
    (∀ (c : BitVec 2) im, s.pz.ctx st.toNat c.toNat = none → s.pz.runs = true → s.pz.dieOk (st.toNat / 4) = true →
      s.pz.choose st.toNat = some p.toNat → q.active = some im → ∃ t x, exec (.dispatch st c) s = .next t ∧
      t.pz.ctx st.toNat c.toNat = some x ∧ x.slot = p ∧ x.image = im ∧ x.pc = 0 ∧ x.exec = 0 ∧ x.wait = none ∧
      x.rg 2 = BitVec.ofNat 64 (whereS st.toNat c.toNat p.toNat) ∧
      (q.ink.isSome = true → x.kind = 1 ∧ (after t).ink = none ∧ (after t).tim = q.tim ∧ (after t).arr = q.arr) ∧
      (q.ink = none → q.tim.isSome = true → x.kind = 2 ∧ (after t).tim = none ∧ (after t).arr = q.arr) ∧
      (q.ink = none → q.tim = none → x.kind = 0 ∧ (after t).arr = none) ∧
      (∀ r, 16 ≤ r → r ≤ 23 → x.rg r = tget q.keep r))

/-- Launches, waits, watchdogs and alarm credits (R237, R266, R274, R277, R395): a launch completes with one result item of 16 bytes, none while
the governor admits nothing; a wait ends when its condition holds; a context that waits too long, and every context of a station that
stalls, ends with the watchdog's fault; a credit comes back, or pays the SUPPRESSED alarm owed. -/
def StationEvents : Prop :=
  ∀ (s : State) (st : BitVec 6),
    (∀ (p : BitVec 4) (tag : BitVec 16),
      let is : Launch → Bool := fun l => l.station.toNat == st.toNat && l.slot.toNat == p.toNat && l.tag == tag
      (s.pz.launches.find? is = none ∨ s.pz.fld PzR.GOV_STAT_LEVEL = 0 → exec (.treeResult st p tag) s = .next s) ∧
      (∀ l, s.pz.launches.find? is = some l → s.pz.fld PzR.GOV_STAT_LEVEL ≠ 0 → ∃ t, exec (.treeResult st p tag) s = .next t ∧
        t.pz.launches.find? is = none ∧
        t.pz.fld PzR.SG_LAUNCH_COUNT = (s.pz.fld PzR.SG_LAUNCH_COUNT + 1) % 2 ^ 32 ∧
        (∀ im d b, (s.pz.slot st.toNat p.toNat).active = some im → im.lowest 5 = some (d, b) → ∃ it,
          (t.pz.slot st.toNat p.toNat).items d = (s.pz.slot st.toNat p.toNat).items d ++ [it] ∧ it.bytes.length = 16))) ∧
    (∀ c : BitVec 2, s.pz.ctx st.toNat c.toNat = none → exec (.waitComplete st c) s = .next s ∧
      exec (.stationWatchdog st c) s = .next s) ∧
    (∀ (c : BitVec 2) x, s.pz.ctx st.toNat c.toNat = some x → x.wait = none → exec (.waitComplete st c) s = .next s ∧
      exec (.stationWatchdog st c) s = .next s) ∧
    (∀ (c : BitVec 2) x e f at_, s.pz.ctx st.toNat c.toNat = some x → x.wait = some (.epWait e f, at_) →
      let d := (lo32 (x.rg f.ra.toNat) - s.pz.ctl.epoch).toInt
      (d ≤ 0 → lo32 (x.rg f.ra.toNat) - s.pz.ctl.epoch ≠ 0x80000000 → exec (.waitComplete st c) s =
        .next (stNext s st c { x.put f.rd.toNat (s.pz.ctl.epoch.setWidth 64) with wait := none })) ∧
      (0 < d → exec (.waitComplete st c) s = .next s)) ∧
    (∀ (c : BitVec 2) x i at_, s.pz.ctx st.toNat c.toNat = some x → x.wait = some (i, at_) → ∃ t,
      exec (.stationWatchdog st c) s = .next t ∧ t.pz.ctx st.toNat c.toNat = none ∧ pzCounts s t PzR.WD_STAT_FIRED ∧
      t.pz.fld (PzR.PG_STAT_LAST_FLT.at (slotOff st.toNat x.slot.toNat)) = 0x0C ∧
      pzCounts s t (PzR.PG_STAT_FLT.at (slotOff st.toNat x.slot.toNat)) ∧
      at_ + 1000000 * max 1 (s.pz.fld PzR.WD_CTL_WAIT) ≤ t.pz.now) ∧
    ((∀ c, c < 4 → s.pz.ctxReady st.toNat c = false) → exec (.stationStall st) s = .next s) ∧
    ((∃ c, c < 4 ∧ s.pz.ctxReady st.toNat c = true) → ∃ t, exec (.stationStall st) s = .next t ∧
      (∀ c, c < 4 → t.pz.ctx st.toNat c = none) ∧ pzCounts s t PzR.WD_STAT_STALLS ∧
      (∀ st' c, st' < 64 → st' ≠ st.toNat → c < 4 → t.pz.ctx st' c = s.pz.ctx st' c)) ∧
    (∀ p : BitVec 4,
      let q := s.pz.slot st.toNat p.toNat
      (q.spent = 0 → exec (.stationAlarmCredit st p) s = .next s) ∧
      (q.spent ≠ 0 → q.supp = false → ∃ t, exec (.stationAlarmCredit st p) s = .next t ∧
        t.pz.slot st.toNat p.toNat = { q with spent := q.spent - 1 } ∧ t.pz.alarmQ = s.pz.alarmQ) ∧
      (q.spent ≠ 0 → q.supp = true → ∃ t, exec (.stationAlarmCredit st p) s = .next t ∧
        t.pz.slot st.toNat p.toNat = { q with supp := false } ∧ t.pz.ctl.aseq = s.pz.ctl.aseq + 1))

/-- The host's rings (R243, R316, R375, R376): the oldest alarm is written as 32 bytes with the ring's phase when the host can be
reached and there is room, and the write pointer goes on; a read pointer takes its low half; the end of a holdoff sends what came
meanwhile, and starts it again. -/
def HostRings : Prop :=
  ∀ (s : State),
    (s.pz.alarmQ = [] ∨ s.pz.hostUp = false → exec .alarmOutput s = .next s) ∧
    (∀ e rest, s.pz.alarmQ = e :: rest → s.pz.hostUp = true →
      let n := s.pz.fld PzR.AL_RSIZE_ENTRIES
      let wr := s.pz.fld PzR.AL_RPTR_WR
      (ringRoom n wr (s.pz.fld PzR.AL_RPTR_RD) 1 = false → exec .alarmOutput s = .next s) ∧
      (ringRoom n wr (s.pz.fld PzR.AL_RPTR_RD) 1 = true → ∃ t, exec .alarmOutput s = .next t ∧ t.pz.alarmQ = rest ∧
        t.pz.fld PzR.AL_RPTR_WR = (if wr + 1 = n then 0 else (wr + 1) % 2 ^ 16) ∧
        t.pz.alPhase = (if wr + 1 = n then !s.pz.alPhase else s.pz.alPhase) ∧
        Leaves s t [.host (s.pz.hostBase 0xC1000 + 32 * wr) (e.payload ++ leB 4 e.fleet.toNat ++ leB 4 e.ink.toNat ++
          leB 4 (b2n s.pz.alPhase * 2 ^ 31 + e.path.toNat * 2 ^ 28) ++ leB 4 (e.tag.toNat * 256))])) ∧
    (∀ p data, Admitted s p 0xC100C → ∃ t, exec (.alRptrWrite p data) s = .next t ∧
      t.pz.fld PzR.AL_RPTR_RD = data.toNat % 2 ^ 16 ∧ t.pz.fld PzR.AL_RPTR_WR = s.pz.fld PzR.AL_RPTR_WR ∧ t.pz.mem = s.pz.mem) ∧
    (∀ p data, Admitted s p 0x7003C → ∃ t, exec (.vdRptrWrite p data) s = .next t ∧
      t.pz.fld PzR.VD_RPTR_RD = data.toNat % 2 ^ 16 ∧
      (s.pz.recQ = [] → t.pz.fld PzR.VD_RPTR_WR = s.pz.fld PzR.VD_RPTR_WR ∧ t.pz.out = s.pz.out)) ∧
    (∀ p data, Admitted s p 0x60010 → ∃ t, exec (.mbRptrWrite p data) s = .next t ∧
      (s.pz.mb.replies = [] → s.pz.mb.queue = [] → t.pz.fld PzR.MB_RPTR_RD = data.toNat % 2 ^ 16 ∧
        t.pz.fld PzR.MB_RPTR_WR = s.pz.fld PzR.MB_RPTR_WR ∧ t.pz.out = s.pz.out)) ∧
    (∀ v : BitVec 2, tblLookup s.pz.msixAt v.toNat = none → exec (.msixHoldoffExpiry v) s = .next s) ∧
    (∀ (v : BitVec 2) at_, tblLookup s.pz.msixAt v.toNat = some at_ →
      (v.toNat ∉ s.pz.msixDue → ∃ t, exec (.msixHoldoffExpiry v) s = .next t ∧ tblLookup t.pz.msixAt v.toNat = none ∧
        t.pz.out = s.pz.out ∧ at_ ≤ t.pz.now) ∧
      (v.toNat ∈ s.pz.msixDue → v ≠ 0 → s.pz.holdNs v.toNat ≠ 0 → ∃ t, exec (.msixHoldoffExpiry v) s = .next t ∧
        tblLookup t.pz.msixAt v.toNat = some (t.pz.now + s.pz.holdNs v.toNat) ∧ v.toNat ∉ t.pz.msixDue ∧
        (s.pz.hostUp = true → s.pz.pins.msixOn = true → bit (s.pz.reg (0xC000C + 16 * v.toNat)).toNat 0 = false →
          t.pz.out = s.pz.out ++ [.msix v.toNat])))

/-! ## Polornaz: ingress and liveness -/

/-- Cells that arrive (R161, R164, R173, R176): none on a link that is down; a cell with a wrong code or out of its message's order
is counted and goes nowhere; one with a byte that fails its parity is discarded with its message (R390); a repeated alarm does not enter; on an uplink a kept cell waits in its class; on a leaf port a green
cell of class 2 to 4 waits while its queue has room; a Control cell that waits is admitted when its bucket has a credit. -/
def CellsArrive : Prop :=
  ∀ (s : State),
    (∀ p c ok came par, s.pz.linkUp p.toNat = false ∨ s.pz.runs = false ∨ 18 ≤ p.toNat → exec (.cellIngress p c ok came par) s = .next s) ∧
    (∀ (p : BitVec 5) c ok came, p.toNat < 18 → s.pz.linkUp p.toNat = true → s.pz.runs = true →
      let z := s.pz
      let k := 8 * p.toNat + c.cls.toNat
      (ok = false ∨ cellGood c = false ∨ 4 < c.cls.toNat ∨ z.follows p.toNat c = false → ∃ t,
        exec (.cellIngress p c ok came false) s = .next t ∧ tget t.pz.ing.bad p.toNat = tget z.ing.bad p.toNat + 1 ∧
        t.pz.ing.ready = z.ing.ready ∧ ∀ q, (tget t.pz.ing.queues q).length ≤ (tget z.ing.queues q).length) ∧
      (ok = true → cellGood c = true → c.cls.toNat ≤ 4 → z.follows p.toNat c = true →
        (c.ty ≠ 2 ∨ z.alarmSeen c = false → ∃ t, exec (.cellIngress p c ok came true) s = .next t ∧
          pzCounts s t (PzR.EC_DIE_PAR.at (4 * portDie p.toNat)) ∧ t.pz.ing.ready = z.ing.ready ∧
          tget t.pz.ing.queues k = (tget z.ing.queues k).filter (fun x => !sameMsg x.cell c)) ∧
        (c.ty = 2 → z.alarmSeen c = true → ∃ t, exec (.cellIngress p c ok came false) s = .next t ∧ t.pz.ing = z.ing) ∧
        (c.ty ≠ 2 → 16 ≤ p.toNat → c.cls ≠ 1 → ∃ t x, exec (.cellIngress p c ok came false) s = .next t ∧
          tget t.pz.ing.queues k = tget z.ing.queues k ++ [x] ∧ x.cell = c ∧ x.came = came) ∧
        (c.ty ≠ 2 → p.toNat < 16 → 2 ≤ c.cls.toNat →
          (z.meter (8 * (64 * p.toNat + z.context c) + c.cls.toNat) c.cls.toNat (cellLen c + z.fld PzR.ING_CTL_OVH)).1 = .green →
          (tget z.ing.queues k).length < queueSize c.cls.toNat → ∃ t x, exec (.cellIngress p c ok came false) s = .next t ∧
          tget t.pz.ing.queues k = tget z.ing.queues k ++ [x] ∧ x.cell = c ∧ x.yellow = false))) ∧
    (∀ p : BitVec 4, tget s.pz.ing.queues (8 * p.toNat + 1) = [] → exec (.controlAdmit p) s = .next s) ∧
    (∀ (p : BitVec 4) x rest, tget s.pz.ing.queues (8 * p.toNat + 1) = x :: rest → ∃ t, exec (.controlAdmit p) s = .next t ∧
      tget t.pz.ing.queues (8 * p.toNat + 1) = rest ∧ s.pz.now ≤ t.pz.now ∧
      (takeCells (fun _ => true) (tget s.pz.ing.asm p.toNat ++ [x]) = none →
        tget t.pz.ing.asm p.toNat = tget s.pz.ing.asm p.toNat ++ [x] ∧ t.pz.ing.ready = s.pz.ing.ready) ∧
      (∀ cs q, takeCells (fun _ => true) (tget s.pz.ing.asm p.toNat ++ [x]) = some (cs, q) →
        tget t.pz.ing.asm p.toNat = q ∧ t.pz.ing.ready = s.pz.ing.ready ++ [(p.toNat, wholeOf cs)]))

/-- Whole messages of leaves (R100, R125, R216 to R220, R333, R376): a frame of a leaf that is not known counts as UNKNOWN, one whose
CHECK fails as CHKERR; one that passes is counted in the leaf's entry with its epochs; a reduction record and an alarm are evidence of
the leaf; an alarm joins the output stage, and LEAF_OOS marks the entry. -/
def MessagesOfLeaves : Prop :=
  ∀ (s : State) (p : BitVec 4),
    (s.pz.takeMsg p.toNat 2 1 = none → exec (.ingressFrame p) s = .next s) ∧
    (s.pz.takeMsg p.toNat 2 5 = none → exec (.ingressReduction p) s = .next s) ∧
    (∀ m cs z, s.pz.takeMsg p.toNat 2 1 = some (m, cs, z) →
      (s.pz.route m.fleet = none → ∃ t, exec (.ingressFrame p) s = .next t ∧
        pzCounts s t (PzR.ING_Q3_UNKNOWN.at (16 * p.toNat)) ∧ t.pz.routes = s.pz.routes ∧ t.pz.slots = s.pz.slots) ∧
      (∀ r, s.pz.route m.fleet = some r → frameOk m.body = false → ∃ t r', exec (.ingressFrame p) s = .next t ∧
        pzCounts s t (PzR.ING_Q3_CHKERR.at (16 * p.toNat)) ∧ t.pz.route m.fleet = some r' ∧
        r'.chkErr.toNat = min 65535 (r.chkErr.toNat + 1) ∧ r'.frames = r.frames ∧ t.pz.slots = s.pz.slots) ∧
      (∀ r, s.pz.route m.fleet = some r → frameOk m.body = true → ∃ t r', exec (.ingressFrame p) s = .next t ∧
        t.pz.route m.fleet = some r' ∧ r'.frames = r.frames + 1 ∧ r'.inkEp = BitVec.ofNat 32 (leAt m.body 4 4) ∧
        r'.cfg = BitVec.ofNat 16 (leAt m.body 0x10 2) ∧ r'.frameAt = s.pz.now ∧ r'.evidAt = s.pz.now)) ∧
    (∀ m cs z, s.pz.takeMsg p.toNat 2 5 = some (m, cs, z) →
      (s.pz.route m.fleet = none → ∃ t, exec (.ingressReduction p) s = .next t ∧
        pzCounts s t (PzR.ING_Q3_UNKNOWN.at (16 * p.toNat)) ∧ t.pz.slots = s.pz.slots) ∧
      (∀ r, s.pz.route m.fleet = some r → ∃ t r', exec (.ingressReduction p) s = .next t ∧ t.pz.route m.fleet = some r' ∧
        r'.evidAt = s.pz.now)) ∧
    (∀ p : BitVec 5, s.pz.takeMsg p.toNat 0 2 = none ∨ 18 ≤ p.toNat → exec (.ingressAlarm p) s = .next s) ∧
    (∀ (p : BitVec 5) m cs z, p.toNat < 18 → s.pz.takeMsg p.toNat 0 2 = some (m, cs, z) →
      (s.pz.fld PzR.AL_RSIZE_ENTRIES ≠ 0 → s.pz.dieOk 15 = true → s.pz.alarmQ.length < 256 → ∃ t e,
        exec (.ingressAlarm p) s = .next t ∧ t.pz.alarmQ = s.pz.alarmQ ++ [e] ∧ e.fleet = m.fleet ∧ e.payload = slice m.body 0 16) ∧
      (s.pz.fld PzR.AL_RSIZE_ENTRIES = 0 → ∃ t, exec (.ingressAlarm p) s = .next t ∧ t.pz.alarmQ = s.pz.alarmQ ∧
        pzCounts s t PzR.AL_STAT_DROP) ∧
      (leAt m.body 0 2 = 5 → ∀ r, s.pz.route m.fleet = some r → ∃ t r', exec (.ingressAlarm p) s = .next t ∧
        t.pz.route m.fleet = some r' ∧ r'.oos = true))

/-- Records received (R162, R192, R316, R330, R346): a flush leaves its cut, a cut report its chain; a trace record and each record of a
history dump are held in their recorders; an advisory goes out on its way, and one of cause overdue sets its unit's state. -/
def RecordsReceived : Prop :=
  ∀ (s : State),
    (∀ (p : BitVec 4) (k : BitVec 3), k ≠ 1 → s.pz.takeMsg p.toNat k.toNat 3 = none → exec (.ingressFlush p k) s = .next s) ∧
    (∀ p : BitVec 4, s.pz.takeCtl p.toNat (fun m => m.ty == 3) = none → exec (.ingressFlush p 1) s = .next s) ∧
    (∀ (p : BitVec 4) (k : BitVec 3) m cs z, k ≠ 1 → s.pz.takeMsg p.toNat k.toNat 3 = some (m, cs, z) → ∃ t,
      exec (.ingressFlush p k) s = .next t ∧
      ∀ c ∈ t.pz.ctl.cuts, c.epoch = BitVec.ofNat 32 (leAt m.body 0 4) → (m.fleet, m.cls) ∉ c.flushes) ∧
    (∀ p : BitVec 4, s.pz.takeCtl p.toNat (fun m => m.ty == 6) = none → exec (.cutReportRx p) s = .next s) ∧
    (∀ (p : BitVec 4) m z, s.pz.takeCtl p.toNat (fun m => m.ty == 6) = some (m, z) → ∃ t, exec (.cutReportRx p) s = .next t ∧
      ∀ c ∈ t.pz.ctl.cuts, c.epoch = BitVec.ofNat 32 (leAt m.body 0 4) → p.toNat ∉ c.chains) ∧
    (∀ p : BitVec 5, s.pz.takeMsg p.toNat 3 0x0B = none → exec (.traceRecordRx p) s = .next s) ∧
    (∀ (p : BitVec 5) m cs z, s.pz.takeMsg p.toNat 3 0x0B = some (m, cs, z) →
      (s.pz.sourceKnown p.toNat m = false → ∃ t, exec (.traceRecordRx p) s = .next t ∧
        pzCounts s t (PzR.ING_Q3_UNKNOWN.at (16 * p.toNat)) ∧ t.pz.iw = s.pz.iw) ∧
      (s.pz.sourceKnown p.toNat m = true → ∃ t, exec (.traceRecordRx p) s = .next t ∧
        (tget t.pz.iw.recs 5).last = seqNext (tget s.pz.iw.recs 5).last)) ∧
    (∀ p : BitVec 4, s.pz.takeMsg p.toNat 4 0x0C = none → exec (.historyDumpRx p) s = .next s) ∧
    (∀ (p : BitVec 4) m cs z, s.pz.takeMsg p.toNat 4 0x0C = some (m, cs, z) → s.pz.sourceKnown p.toNat m = true → ∃ t,
      exec (.historyDumpRx p) s = .next t ∧ (tget t.pz.iw.recs 6).last =
        iter seqNext (dumpRecords (leAt m.body 8 2) (m.body.drop 16)).length (tget s.pz.iw.recs 6).last) ∧
    (∀ p : BitVec 5, s.pz.takeCtl p.toNat (fun m => m.ty == 0x0A) = none → exec (.advisoryRx p) s = .next s) ∧
    (∀ (p : BitVec 5) m z, s.pz.takeCtl p.toNat (fun m => m.ty == 0x0A) = some (m, z) → s.pz.sourceKnown p.toNat m = true → ∃ t,
      exec (.advisoryRx p) s = .next t ∧ t.pz.ing.ready = z.ing.ready ∧
      (∀ r, s.pz.route m.fleet = some r → leAt m.body 0x22 1 = 0xC1 → bits (leAt m.body 0x40 4) 17 16 = 2 →
        (tget t.pz.blot.units (unitKey m.fleet (leAt m.body 0x40 4 % 16))).st =
          BitVec.ofNat 2 (bits (leAt m.body 0x40 4) 7 6)))

/-- Liveness (R307 to R309, R311): an evaluation takes place at the next multiple of 250 µs, and a leaf that was Live and has been
silent for LATE_T is Live no longer; a query leaves only for a leaf that is Late or Mute; each second of a disagreement is recorded. -/
def LivenessRows : Prop :=
  ∀ (s : State),
    (∃ t, exec .livenessEval s = .next t ∧ t.pz.now = (s.pz.now / 250000 + 1) * 250000 ∧
      ∀ w r, s.pz.route w = some r → r.state = lvLive →
        (if r.expected then r.frameAt else r.reportAt) + s.pz.lateT r ≤ t.pz.now →
        ∃ r', t.pz.route w = some r' ∧ r'.state ≠ lvLive) ∧
    (∀ w, s.pz.route w = none → exec (.livenessProbe w) s = .next s ∧ exec (.disagreeTick w) s = .next s) ∧
    (∀ w r, s.pz.route w = some r →
      (r.live ≠ lvLate → r.live ≠ lvMute → exec (.livenessProbe w) s = .next s) ∧
      (r.live = lvLate ∨ r.live = lvMute → ∃ t, exec (.livenessProbe w) s = .next t ∧
        t.pz.out = s.pz.out ++ [.probe r.port.toNat w] ∧ r.probeAt + s.pz.probeT ≤ t.pz.now ∧
        t.pz.route w = some { r with probeAt := t.pz.now, probes := r.probes + 1 }) ∧
      (r.disagAt = none → exec (.disagreeTick w) s = .next s) ∧
      (∀ at_, r.disagAt = some at_ → ∃ t, exec (.disagreeTick w) s = .next t ∧
        t.pz.route w = some { r with seconds := r.seconds + 1 } ∧ at_ + (r.seconds + 1) * 1000000000 ≤ t.pz.now ∧
        (tget t.pz.iw.recs 3).last = seqNext (tget s.pz.iw.recs 3).last))

/-! ## Polornaz: the Blotter and the mailbox -/

/-- The Blotter (R192 to R197, R202): a record of no declared group, or of one that is no member, is stray; one of a closed instance
is late; the first records of an instance open it, and the last one or its timeout closes it for good. -/
def BlotterRows : Prop :=
  ∀ (s : State) (fleet : Word) (tag : BitVec 24) (epoch : Word),
    (∀ body : List Byte, bit (leAt body 4 4) 3 = false →
      let group : BitVec 16 := BitVec.ofNat 16 (leAt body 2 2)
      let occ : Byte := BitVec.ofNat 8 (bits (leAt body 4 4) 31 24)
      let g := tget s.pz.blot.groups (groupKey tag group)
      let r := digRec fleet body
      let isMem : GMember → Bool := fun m => m.fleet == r.fleet && m.unit == r.unit && m.role == r.role
      let is : Instance → Bool := fun x => x.tag == tag && x.group == group && x.epoch == epoch && x.occ == occ
      (g.declared = false → s.pz.blotterUp tag group = false → ∃ t, exec (.blotterRecord fleet tag epoch body) s = .next t ∧
        t.pz.blot = { s.pz.blot with stray := s.pz.blot.stray + 1 } ∧ t.pz.out = s.pz.out) ∧
      (g.declared = true → g.home.toNat ≤ s.pz.role → g.tag = tag → g.group = group →
        (g.members.any isMem = false → ∃ t, exec (.blotterRecord fleet tag epoch body) s = .next t ∧
          t.pz.blot = { s.pz.blot with stray := s.pz.blot.stray + 1 }) ∧
        (g.members.any isMem = true →
          ((tag, group, epoch, occ) ∈ s.pz.blot.closed → ∃ t, exec (.blotterRecord fleet tag epoch body) s = .next t ∧
            t.pz.blot = { s.pz.blot with late := s.pz.blot.late + 1 }) ∧
          ((tag, group, epoch, occ) ∉ s.pz.blot.closed → s.pz.blot.opens.find? is = none → 1 < g.members.length →
            (s.pz.blot.opens.filter (fun x => x.die == s.pz.blotterDie tag group)).length < 65536 → ∃ t i,
            exec (.blotterRecord fleet tag epoch body) s = .next t ∧ i ∈ t.pz.blot.opens ∧ is i = true ∧ i.recs = [r] ∧
            i.opened = s.pz.now ∧ t.pz.blot.closed = s.pz.blot.closed) ∧
          (∀ i, (tag, group, epoch, occ) ∉ s.pz.blot.closed → s.pz.blot.opens.find? is = some i →
            (i.recs.any (fun x => x.fleet == r.fleet && x.unit == r.unit && x.role == r.role)) = false →
            i.recs.length + 1 = g.members.length → ∃ t, exec (.blotterRecord fleet tag epoch body) s = .next t ∧
            (tag, group, epoch, occ) ∈ t.pz.blot.closed ∧ t.pz.blot.opens.find? is = none)))) ∧
    (∀ (group : BitVec 16) (occ : Byte),
      let is : Instance → Bool := fun x => x.tag == tag && x.group == group && x.epoch == epoch && x.occ == occ
      let i := Instr.blotterTimeout tag group epoch occ
      (s.pz.blot.opens.find? is = none → s.pz.blot.tests.find? is = none → exec i s = .next s) ∧
      (∀ x, s.pz.blot.opens.find? is = some x → ∃ t, exec i s = .next t ∧ t.pz.blot.opens.find? is = none ∧
        (tag, group, epoch, occ) ∈ t.pz.blot.closed ∧
        x.opened + (tget s.pz.blot.groups (groupKey tag group)).limit ≤ t.pz.now) ∧
      (∀ x, s.pz.blot.opens.find? is = none → s.pz.blot.tests.find? is = some x → ∃ t, exec i s = .next t ∧
        t.pz.blot.tests.find? is = none ∧ x.opened + 10000000 ≤ t.pz.now))

/-- Health of a unit (R205, R206, Table 8.8): a charge leads from Healthy to Watched and from there to Suspect, or to a
conditional suspect, and counts clean rounds from zero; eight clean rounds lead back. -/
def HealthOfUnits : Prop :=
  ∀ (h : Health) (cell : Option (BitVec 3 × BitVec 4)),
    (h.charge cell).clean = 0 ∧
    (h.st = 0 → (h.charge cell).cond = false → (h.charge cell).st = 1) ∧
    (h.st ≠ 0 → (h.charge cell).st = 2) ∧
    (h.cond = false → (h.charge cell).cond = true → (h.charge cell).st = 2) ∧
    (h.clean + 1 < 8 → (h.pass cell).st = h.st ∧ (h.pass cell).cond = h.cond ∧ (h.pass cell).clean = h.clean + 1) ∧
    (h.cond = false → h.st ≠ 0 → 8 ≤ h.clean + 1 → (h.pass cell).st = 0)

/-- The vote (R194, Table 8.6) among members whose records are complete, have keys and agree on the key generation: with one value
it is unanimous; no set of equal values is larger than the one that it takes. -/
def VoteTakesLargestSet : Prop :=
  ∀ ms : List (Nat × DigRec), (∀ m ∈ ms, m.2.incomplete = false ∧ m.2.nokey = false) →
    (∀ m ∈ ms, ∀ m' ∈ ms, m.2.keygen = m'.2.keygen) →
    (∀ x : DWord, (ms.filter (fun m => m.2.exact == x)).length ≤ (vote ms).inA.length) ∧
    (∀ n ∈ (vote ms).inA, ∃ m ∈ ms, m.1 = n) ∧
    ((∀ m ∈ ms, ∀ m' ∈ ms, m.2.exact = m'.2.exact) → (vote ms).inA = ms.map (·.1) ∧ (vote ms).out = [])

/-- A message takes effect only when it is at the front of the queue (R243), of its row's type and operation. -/
def FrontOnly : Prop :=
  ∀ (s : State),
    (∀ x ∈ [(Instr.progEnable, 2, 1), (.progDisable, 2, 2), (.progUnload, 2, 3), (.modelLoad, 3, 1), (.modelUnload, 3, 2), (.configAlloc, 5, 1),
        (.configStart, 5, 2), (.configChange, 5, 3), (.configGrow, 5, 4), (.configShrink, 5, 5), (.configTeardown, 5, 6),
        (.configAccept, 5, 7), (.configCancel, 5, 8), (.configInkline, 5, 9), (.configRelease, 5, 10), (.noticeFence, 7, 1),
        (.noticeUnfence, 7, 2), (.noticeTarget, 7, 3), (.noticePrior [], 7, 4), (.noticePhase, 7, 5)],
      (s.pz.mb.queue = [] ∨ ∃ m rest, s.pz.mb.queue = m :: rest ∧ ¬ (m.mtype.toNat = x.2.1 ∧ m.op = x.2.2)) →
      exec x.1 s = .next s) ∧
    (∀ x ∈ [(Instr.progLoad, 1), (.groupDecl, 4), (.testGrant, 6), (.progMsg, 8)],
      (s.pz.mb.queue = [] ∨ ∃ m rest, s.pz.mb.queue = m :: rest ∧ m.mtype.toNat ≠ x.2) → exec x.1 s = .next s)

/-- The message that a commit of a mailbox slot makes (Table 10.9): its words with the new word 0 and the payload they hold. -/
def slotMsg (z : Pz) (n : BitVec 4) (w0 : Word) : MbMsg :=
  let g : Nat → Nat := fun k => (tget z.mb.words (1024 * n.toNat + k)).toNat
  mbMsg (.slot n) (z.slotSecure n.toNat) w0.toNat (g 1) (g 2) (g 3)
    (((List.range ((min 4080 (bits w0.toNat 11 0) + 3) / 4)).flatMap (fun k => leB 4 (g (4 + k)))).take (min 4080 (bits w0.toNat 11 0)))

/-- Commits (R243): a slot that the device owns drops the write and counts it; a non-secure commit of a secure-only slot is a
violation; otherwise the slot's message joins the queue, and one that its checks refuse is answered at the front. -/
def Commits : Prop :=
  ∀ (s : State) (n : BitVec 4) (p : Port) (w0 : Word),
    let i := Instr.mailboxCommit n p w0
    let own := bit (tget s.pz.mb.words (1024 * n.toNat)).toNat 31
    let sec := s.pz.secure p (viewAddr p 0x60000)
    (s.pz.answers p = false ∨ p.size ≠ 2 → exec i s = .next s) ∧
    (s.pz.answers p = true → p.size = 2 → sec = false → s.pz.blockSecure 6 = true ∨ s.pz.slotSecure n.toNat = true →
      ∃ t, exec i s = .next t ∧ pzCounts s t (PzR.SEC_VIOL_COUNT.at 24) ∧ t.pz.mb = s.pz.mb) ∧
    (s.pz.answers p = true → p.size = 2 → sec = true ∨ (s.pz.blockSecure 6 = false ∧ s.pz.slotSecure n.toNat = false) →
      (own = true → ∃ t, exec i s = .next t ∧ pzCounts s t PzR.MB_CTL_WRDROP ∧ t.pz.mb = s.pz.mb) ∧
      (own = false → s.pz.mb.queue = [] →
        let m := slotMsg s.pz n (w0 ||| 0x80000000)
        (s.pz.mbRefusal m = none → ∃ t, exec i s = .next t ∧ t.pz.mb.queue = [m] ∧
          bit (tget t.pz.mb.words (1024 * n.toNat)).toNat 31 = true) ∧
        (∀ st, s.pz.mbRefusal m = some st → m.reply = false → ∃ t, exec i s = .next t ∧ t.pz.mb.queue = [] ∧ Answered t n st)))

/-- Program images (R226, R234, R237, R245, Table 10.12): a chunk that does not follow is refused and what was gathered is gone; one
that follows is gathered; the last one brings the image's status, and an image without fault becomes the slot's shadow copy; enabling,
disabling and unloading act on the slot named, or are refused with BADDEST. -/
def ProgramMessages : Prop :=
  ∀ (s : State) (n : BitVec 4) (m : MbMsg),
    (Alone s m n 1 m.op → ∀ key, key = m.src.key →
      let off := leAt m.payload 0 4
      let total := leAt m.payload 4 4
      let b := (if off = 0 then [] else tget s.pz.mb.loads key) ++ m.payload.drop 8
      (m.payload.length < 8 ∨ (off ≠ 0 ∧ off ≠ (tget s.pz.mb.loads key).length) ∨ total < b.length ∨ 65792 < total → ∃ t,
        exec .progLoad s = .next t ∧ Answered t n 6 ∧ tget t.pz.mb.loads key = [] ∧ t.pz.slots = s.pz.slots) ∧
      (8 ≤ m.payload.length → off = 0 ∨ off = (tget s.pz.mb.loads key).length → total ≤ 65792 →
        (b.length < total → ∃ t, exec .progLoad s = .next t ∧ Answered t n 0 ∧ tget t.pz.mb.loads key = b ∧
          t.pz.slots = s.pz.slots) ∧
        (b.length = total →
          let st := s.pz.progStatus b (imgOf b m.secure)
          (st ≠ 0 → ∃ t, exec .progLoad s = .next t ∧ Answered t n st ∧ t.pz.slots = s.pz.slots) ∧
          (st = 0 → ∃ t, exec .progLoad s = .next t ∧ Answered t n 0 ∧
            (t.pz.slot (imgHead b).st (imgHead b).slot).shadow = some (imgOf b m.secure) ∧
            (t.pz.slot (imgHead b).st (imgHead b).slot).active = (s.pz.slot (imgHead b).st (imgHead b).slot).active)))) ∧
    (∀ x ∈ [(Instr.progEnable, 1), (.progDisable, 2), (.progUnload, 3)], Alone s m n 2 x.2 →
      let st := leAt m.payload 1 1
      let p := leAt m.payload 2 1
      (63 < st ∨ 15 < p ∨ s.pz.dieOk (st / 4) = false → ∃ t, exec x.1 s = .next t ∧ Answered t n 3 ∧ t.pz.slots = s.pz.slots) ∧
      (st ≤ 63 → p ≤ 15 → s.pz.dieOk (st / 4) = true → ∃ t, exec x.1 s = .next t ∧ Answered t n 0 ∧
        (x.2 = 1 → t.pz.slot st p = { s.pz.slot st p with disabled := false, faults := [] }) ∧
        (x.2 = 2 → t.pz.slot st p = { s.pz.slot st p with disabled := true }) ∧
        (x.2 = 3 → (t.pz.slot st p).active = none ∧ (t.pz.slot st p).streams = [] ∧ t.pz.ctxs = s.pz.ctxs))) ∧
    (Alone s m n 8 m.op →
      let x := s.pz.slot m.station.toNat m.pslot.toNat
      (x.active = none → ∃ t, exec .progMsg s = .next t ∧ Answered t n 3 ∧ t.pz.slots = s.pz.slots) ∧
      (∀ im d b, x.active = some im → im.lowest 4 = some (d, b) → s.pz.dieOk (m.station.toNat / 4) = true →
        (b.depth ≤ (x.items d).length + 1 → ∃ t, exec .progMsg s = .next t ∧ Answered t n 0xC ∧ t.pz.slots = s.pz.slots) ∧
        ((x.items d).length + 1 < b.depth → ∃ t, exec .progMsg s = .next t ∧ Answered t n 0 ∧
          (t.pz.slot m.station.toNat m.pslot.toNat).items d =
            x.items d ++ [{ bytes := m.payload, came := s.pz.now, ask := none }])))

/-- Models, groups and grants (R192, R200, R280 to R285): a LOAD is refused with its first failing check or its image is checked from
then on; a LOAD whose header is out of range is forgotten when the check ends; a region staged leaves the work to do; an UNLOAD waits
for its config epoch; a declaration of a group for another level is refused; a grant goes to the leaf that the sender's job owns. -/
def ModelMessages : Prop :=
  ∀ (s : State) (n : BitVec 4) (m : MbMsg),
    (Alone s m n 3 1 →
      let id : Word := BitVec.ofNat 32 (leAt m.payload 4 4)
      let st := s.pz.loadStatus id (BitVec.ofNat 32 (leAt m.payload 8 4)) (leAt m.payload 0x10 8) (leAt m.payload 0x18 8)
      (∀ c, st = some c → ∃ t, exec .modelLoad s = .next t ∧ Answered t n c ∧ t.pz.models = s.pz.models) ∧
      (st = none → ∃ t, exec .modelLoad s = .next t ∧ (tget t.pz.models id.toNat).st = .checking ∧
        (tget t.pz.models id.toNat).id = id ∧ (tget t.pz.models id.toNat).ask = some m ∧ t.pz.mb.words = s.pz.mb.words)) ∧
    (∀ id : Word, s.pz.ctl.jobs = [] →
      let x := tget s.pz.models id.toNat
      (x.id ≠ id ∨ id = 0 ∨ x.st ≠ .checking → exec (.modelLoadDone id) s = .next s) ∧
      (x.id = id → id ≠ 0 → x.st = .checking → s.pz.headOk (s.pz.modelHead x.image) = false → ∃ t,
        exec (.modelLoadDone id) s = .next t ∧ tblLookup t.pz.models id.toNat = none ∧ t.pz.mem = s.pz.mem)) ∧
    (∀ (id : Word) (d : BitVec 4),
      let x := tget s.pz.models id.toNat
      let mine := x.todo.filter (fun t => t.die == d.toNat)
      let r := s.pz.stagePrefix d.toNat s.pz.trees mine
      (x.id ≠ id ∨ x.st ≠ .staging ∨ mine = [] → exec (.stageRegionDone id d) s = .next s) ∧
      (x.id = id → x.st = .staging → mine ≠ [] → r ≠ [] → ∃ t, exec (.stageRegionDone id d) s = .next t ∧
        (tget t.pz.models id.toNat).todo = x.todo.filter (fun t => !r.any (fun p => p.1.idx == t.idx)) ∧
        (tget t.pz.models id.toNat).done = x.done + r.foldl (fun n p => n + 8 * p.1.len) 0)) ∧
    (Alone s m n 3 2 →
      let id : Word := BitVec.ofNat 32 (leAt m.payload 4 4)
      (s.pz.modelBusy id = true → ∃ t, exec .modelUnload s = .next t ∧ Answered t n 0xA ∧ t.pz.models = s.pz.models) ∧
      (s.pz.modelBusy id = false → s.pz.isLoaded id = false → ∃ t, exec .modelUnload s = .next t ∧ Answered t n 9 ∧
        t.pz.models = s.pz.models) ∧
      (s.pz.modelBusy id = false → s.pz.isLoaded id = true → ∃ t, exec .modelUnload s = .next t ∧ Answered t n 0 ∧
        tget t.pz.models id.toNat = { tget s.pz.models id.toNat with unload := some (BitVec.ofNat 16 (leAt m.payload 0xC 2)) })) ∧
    (Alone s m n 4 m.op →
      let w4 := leAt m.payload 4 4
      let wc := leAt m.payload 0xC 4
      let tag : BitVec 24 := BitVec.ofNat 24 (leAt m.payload 1 3)
      let group : BitVec 16 := BitVec.ofNat 16 (bits w4 31 16)
      (bits wc 31 30 ≠ s.pz.role → ∃ t, exec .groupDecl s = .next t ∧ Answered t n 3 ∧ t.pz.blot = s.pz.blot) ∧
      (bits wc 31 30 = s.pz.role → leAt m.payload 0 1 = 1 → 2 ≤ bits w4 15 8 → bits w4 7 0 = 0 → 1 ≤ bits wc 8 0 →
        bits wc 8 0 ≤ 508 → 16 + 8 * bits wc 8 0 ≤ m.payload.length → 1 ≤ bits (leAt m.payload 8 4) 31 24 → bits wc 24 16 = 0 →
        bits wc 8 0 ≤ bits w4 15 8 → m.tag = 0 ∨ m.tag = tag → ∃ t g, exec .groupDecl s = .next t ∧ Answered t n 0 ∧
        tget t.pz.blot.groups (groupKey tag group) = g ∧ g.tag = tag ∧ g.group = group ∧ g.reduce = false ∧
        g.r = bits w4 15 8 ∧ g.members.length = bits wc 8 0)) ∧
    (Alone s m n 6 m.op →
      let fleet : Word := BitVec.ofNat 32 (leAt m.payload 0 4)
      let u := leAt m.payload 4 1 % 32
      let win := leAt m.payload 0xC 3
      (s.pz.route fleet = none → ∃ t, exec .testGrant s = .next t ∧ Answered t n 3 ∧ t.pz.ctl.sent = s.pz.ctl.sent) ∧
      (∀ r, s.pz.route fleet = some r →
        (m.tag ≠ r.tag → ∃ t, exec .testGrant s = .next t ∧ Answered t n 9 ∧ t.pz.ctl.sent = s.pz.ctl.sent) ∧
        (m.tag = r.tag → win = 0 → ∃ t, exec .testGrant s = .next t ∧ Answered t n 6 ∧ t.pz.ctl.sent = s.pz.ctl.sent) ∧
        (m.tag = r.tag → win ≠ 0 → ∃ t x, exec .testGrant s = .next t ∧ t.pz.ctl.sent = s.pz.ctl.sent ++ [x] ∧ x.rcpt = fleet ∧
          x.op = 0xF ∧ x.ask = some m ∧ leAt x.msg.body 0x10 4 = (u + win * 256) % 2 ^ 32 ∧ t.pz.mb.words = s.pz.mb.words)))

/-- Notices (R295, R296, R305, R310, R312): one for a leaf that the sender's job does not own is refused; a FENCE fences at once or at its
Inkline, an UNFENCE gives the evaluated state back, a TARGET is kept, priors are written to the store, a PHASE notice of the host is
refused with BADTYPE. -/
def Notices : Prop :=
  ∀ (s : State) (n : BitVec 4) (m : MbMsg),
    (∀ x ∈ [(Instr.noticeFence, 1), (.noticeUnfence, 2), (.noticeTarget, 3)], Alone s m n 7 x.2 →
      (∀ st, s.pz.noticeLeaves m = .error st → ∃ t, exec x.1 s = .next t ∧ Answered t n st ∧ t.pz.routes = s.pz.routes) ∧
      (∀ w r, s.pz.noticeLeaves m = .ok [w] → s.pz.route w = some r → ∃ t r', exec x.1 s = .next t ∧ Answered t n 0 ∧
        t.pz.route w = some r' ∧
        (x.2 = 1 → m.arg0 = 0 → r.live ≠ lvFenced → r'.live = lvFenced ∧ r'.eval = r.live ∧
          Leaves s t [.fence r.port.toNat w true 0]) ∧
        (x.2 = 1 → m.arg0 ≠ 0 → laterInk m.arg0 s.pz.ctl.epoch = true → r'.fence = some (m.arg0, true) ∧ r'.live = r.live) ∧
        (x.2 = 2 → m.arg0 = 0 → r.live = lvFenced → r'.live = r.eval ∧ Leaves s t [.fence r.port.toNat w false 0]) ∧
        (x.2 = 3 → r' = { r with work := some (m.arg0, BitVec.ofNat 32 (leAt m.payload 0xC 4),
          BitVec.ofNat 32 (leAt m.payload 0x10 4)) }))) ∧
    (Alone s m n 7 5 → ∃ t, exec .noticePhase s = .next t ∧ Answered t n 2 ∧ t.pz.ctl = s.pz.ctl) ∧
    (Alone s m n 7 4 → ∀ v,
      let first := leAt m.payload 4 2
      let cnt := leAt m.payload 6 2
      (m.tag ≠ 0 → ∃ t, exec (.noticePrior v) s = .next t ∧ Answered t n 9 ∧ t.pz.peat = s.pz.peat) ∧
      (m.tag = 0 → cnt = 0 ∨ 254 < cnt ∨ 4096 < first + cnt ∨ m.payload.length < 0x10 + 16 * cnt → ∃ t,
        exec (.noticePrior v) s = .next t ∧ Answered t n 6 ∧ t.pz.peat = s.pz.peat) ∧
      (m.tag = 0 → cnt = 1 → first < 4096 → 0x20 ≤ m.payload.length → v = [] → s.pz.keeperOk 0 = true →
        (s.pz.peatCopy (1 + first / 252)).wear < 1000000 → ∃ t, exec (.noticePrior v) s = .next t ∧ Answered t n 0 ∧
        t.pz.peatWord (1 + first / 252) (2 * (first % 252)) = BitVec.ofNat 64 (leAt m.payload 0x10 8) ∧
        t.pz.peatWord (1 + first / 252) (2 * (first % 252) + 1) = BitVec.ofNat 64 (leAt m.payload 0x18 8)))

/-! ## Polornaz: jobs and the Control conversation -/

/-- CONFIG messages about a prepare (R318, R322, R327, Table 14.5): a START, CHANGE or GROW is refused with the status of its first failing
check, or answered and pending; ACCEPT commits a partial one of that config epoch, CANCEL ends one that has not begun to commit; a root
serves an ALLOC from its next config epoch, another device asks on. -/
def PrepareMessages : Prop :=
  ∀ (s : State) (n : BitVec 4) (m : MbMsg),
    let c := cfgMsg m.payload
    (∀ x ∈ [(Instr.configStart, 2), (.configChange, 3), (.configGrow, 4), (.configShrink, 5), (.configTeardown, 6),
        (.configAccept, 7), (.configCancel, 8), (.configInkline, 9), (.configRelease, 10)],
      Alone s m n 5 x.2 → m.tag ≠ 0 → m.tag ≠ c.tag → ∃ t, exec x.1 s = .next t ∧ Answered t n 9 ∧ t.pz.ctl = s.pz.ctl) ∧
    (∀ x ∈ [(Instr.configStart, 2), (.configChange, 3), (.configGrow, 4)], Alone s m n 5 x.2 → m.tag = 0 ∨ m.tag = c.tag →
      (s.pz.prepStatus c m.payload ≠ 0 → ∃ t, exec x.1 s = .next t ∧ t.pz.ctl = s.pz.ctl ∧
        (s.pz.prepStatus c m.payload < 128 → Answered t n (s.pz.prepStatus c m.payload))) ∧
      (s.pz.prepStatus c m.payload = 0 → ∃ t p, exec x.1 s = .next t ∧ Answered t n 0 ∧ t.pz.prepOf c.tag = some p ∧
        p.cfg = c.cfg ∧ p.cop = x.2 ∧ p.ask = none)) ∧
    (∀ x ∈ [(Instr.configShrink, 5), (.configTeardown, 6), (.configAccept, 7), (.configCancel, 8), (.configInkline, 9)],
      Alone s m n 5 x.2 → m.tag = 0 ∨ m.tag = c.tag → (s.pz.job c.tag = none ∨ ∃ j, s.pz.job c.tag = some j ∧ j.homed = false) →
      ∃ t, exec x.1 s = .next t ∧ Answered t n 3 ∧ t.pz.ctl = s.pz.ctl) ∧
    (∀ j, s.pz.job c.tag = some j → j.homed = true → m.tag = 0 ∨ m.tag = c.tag →
      (∀ x ∈ [(Instr.configShrink, 5), (.configTeardown, 6)], Alone s m n 5 x.2 →
        (j.tear.isSome = true → ∃ t, exec x.1 s = .next t ∧ Answered t n 0xA ∧ t.pz.ctl = s.pz.ctl) ∧
        (j.tear = none → j.prep = none → ∃ t q w, exec x.1 s = .next t ∧ Answered t n 0 ∧ t.pz.job c.tag = some q ∧ q.tear = some w ∧
          w.cop = c.cop ∧ w.ask = none)) ∧
      (Alone s m n 5 7 →
        (∀ p, j.prep = some p → p.cfg = c.cfg → p.st = .partialWait → ∃ t p', exec .configAccept s = .next t ∧ Answered t n 0 ∧
          t.pz.prepOf c.tag = some p' ∧ p'.st = .committing ∧ p'.cfg = p.cfg) ∧
        (j.prep = none → ∃ t, exec .configAccept s = .next t ∧ Answered t n 9 ∧ t.pz.ctl = s.pz.ctl) ∧
        (∀ p, j.prep = some p → p.cfg ≠ c.cfg ∨ p.st ≠ .partialWait → ∃ t, exec .configAccept s = .next t ∧ Answered t n 9 ∧
          t.pz.ctl = s.pz.ctl)) ∧
      (Alone s m n 5 8 →
        (∀ p, j.prep = some p → p.cfg = c.cfg → p.st = .committing → ∃ t, exec .configCancel s = .next t ∧ Answered t n 0xA ∧
          t.pz.ctl = s.pz.ctl) ∧
        (∀ p, j.prep = some p → p.cfg = c.cfg → p.st ≠ .committing → ∃ t, exec .configCancel s = .next t ∧ Answered t n 0 ∧
          t.pz.prepOf c.tag = none) ∧
        (j.prep = none ∨ (∃ p, j.prep = some p ∧ p.cfg ≠ c.cfg) → ∃ t, exec .configCancel s = .next t ∧ Answered t n 9 ∧
          t.pz.ctl = s.pz.ctl)) ∧
      (Alone s m n 5 9 → ∃ t, exec .configInkline s = .next t ∧ Answered t n 0 ∧
        t.pz.ctl.inks.length + t.pz.ctl.inkWait.length = s.pz.ctl.inks.length + s.pz.ctl.inkWait.length + 1)) ∧
    (Alone s m n 5 10 → m.tag = 0 ∨ m.tag = c.tag → ∃ t, exec .configRelease s = .next t ∧ Answered t n 0 ∧
      ∀ w r, s.pz.entryLeaves c.entries = [w] → s.pz.route w = some r → r.tag = c.tag → r.teardown = true →
        ∃ r', t.pz.route w = some r' ∧ r'.tag = r.assign.getD 0 ∧ r'.teardown = false) ∧
    (Alone s m n 5 1 →
      (s.pz.role ≠ 2 → ∃ t, exec .configAlloc s = .next t ∧ t.pz.ctl.askEpoch = s.pz.ctl.askEpoch ++ [m] ∧
        t.pz.mb.words = s.pz.mb.words) ∧
      (s.pz.role = 2 → s.pz.ctl.askEpoch = [] → s.pz.ctl.based = true → s.pz.allocBlocked = false → s.pz.ctl.nextCfg ≠ 0 → ∃ t,
        exec .configAlloc s = .next t ∧ Answered t n 0 ∧ t.pz.ctl.alloced = s.pz.ctl.nextCfg :: s.pz.ctl.alloced ∧
        t.pz.ctl.nextCfg = (if s.pz.ctl.nextCfg = 0xFFFF then 1 else s.pz.ctl.nextCfg + 1) ∧ t.pz.ctl.askEpoch = []))

/-- Time at a job's device (R302, R320, R327, R330): a pending Inkline applies when tray time comes to it, the earliest first, and is in
force when it is later; a cut closes 2 ms after its Inkline; a partial prepare of this home is abandoned after PREP_TO. -/
def JobTimes : Prop :=
  ∀ (s : State),
    (s.pz.ctl.inks = [] → exec .trayInkline s = .next s) ∧
    (∀ i, s.pz.nextInk = some i → ∃ t, exec .trayInkline s = .next t ∧ i.m.time.toNat ≤ t.pz.now ∧
      t.pz.ctl.started = ((i.m.epoch, i.m.time.toNat) :: s.pz.ctl.started).take 16 ∧
      (laterInk i.m.epoch s.pz.ctl.epoch = true → t.pz.ctl.epoch = i.m.epoch ∧ t.pz.ctl.inkTime = i.m.time.toNat) ∧
      (laterInk i.m.epoch s.pz.ctl.epoch = false → t.pz.ctl.epoch = s.pz.ctl.epoch ∧ t.pz.ctl.inkTime = s.pz.ctl.inkTime) ∧
      (i.m.kind.commit = false → t.pz.ctl.inks = s.pz.ctl.inks.erase i)) ∧
    (∀ i, s.pz.nextInk = some i → i ∈ s.pz.ctl.inks ∧ ∀ x ∈ s.pz.ctl.inks, i.m.time.toNat ≤ x.m.time.toNat) ∧
    (∀ e, s.pz.ctl.cuts.find? (fun c => c.epoch == e) = none ∨ s.pz.role ≠ 0 ∨ s.pz.ctl.inks.any (fun i => i.m.epoch == e) = true →
      exec (.trayCutTimeout e) s = .next s) ∧
    (∀ e c, s.pz.ctl.cuts.find? (fun c => c.epoch == e) = some c → s.pz.role = 0 →
      s.pz.ctl.inks.any (fun i => i.m.epoch == e) = false → ∃ t, exec (.trayCutTimeout e) s = .next t ∧
      t.pz.ctl.cuts.find? (fun c => c.epoch == e) = none ∧ c.time + 2000000 ≤ t.pz.now) ∧
    (∀ tag, s.pz.prepOf tag = none → exec (.prepareTimeout tag) s = .next s) ∧
    (∀ tag p, s.pz.prepOf tag = some p →
      (p.st ≠ .partialWait ∨ p.ask.isSome = true → exec (.prepareTimeout tag) s = .next s) ∧
      (p.st = .partialWait → p.ask = none → ∃ t, exec (.prepareTimeout tag) s = .next t ∧ t.pz.prepOf tag = none ∧
        p.since + 1000000000 * max 1 (s.pz.fld PzR.CF_CTL_PREP_TO) ≤ t.pz.now))

/-- Messages of the conversation (R318, R319, R321, R324, R325, R330, R333): a further copy is not acted on again; an Inkline goes on
down and waits here; a lease is held, or granted from the root's epochs; a child's cut merges into this device's; the alarms that a
parent has received are no longer kept; a re-parented child is known on its new port. -/
def ConversationMessages : Prop :=
  ∀ (s : State) (h : CtlHead) (port : BitVec 5),
    (∀ x ∈ [(Instr.ctlInk .pz h default, 3), (.ctlEpoch port h true 1, 0xB), (.ctlTcut port h 0 0 0 [], 0xC), (.ctlPrepare port h [], 0xD),
        (.ctlAlmack port h [], 0xE), (.ctlRelay port h [], 0xA)], s.pz.known h x.2 = true → ∃ t, exec x.1 s = .next t ∧
      t.pz.ctl.acted = s.pz.ctl.acted ∧ t.pz.ctl.jobs = s.pz.ctl.jobs ∧ t.pz.ctl.cuts = s.pz.ctl.cuts ∧
      t.pz.ctl.inks = s.pz.ctl.inks ∧ t.pz.mb = s.pz.mb) ∧
    (∀ m, FreshPz s h 3 → ∃ t i, exec (.ctlInk .pz h m) s = .next t ∧ t.pz.ctl.inks = s.pz.ctl.inks ++ [i] ∧ i.tag = h.tag ∧
      i.m.epoch = m.epoch ∧ i.m.kind = m.kind ∧ i.m.cfg = m.cfg ∧ (s.pz.role ≠ 0 → i.m.time = m.time)) ∧
    (∀ base count, FreshPz s h 4 → h.tag = 0 → s.pz.ctl.relays = [] → s.pz.ctl.left = 0 → s.pz.ctl.inkWait = [] → ∃ t,
      exec (.ctlLease .pz h true base count) s = .next t ∧ t.pz.ctl.next = base ∧ t.pz.ctl.left = count.toNat) ∧
    (∀ base (count : Word) k, FreshPz s h 4 → h.tag = 0 → s.pz.role = 2 → s.pz.route h.sender = none →
      tblLookup s.pz.ctl.kids h.sender.toNat = some k → ∃ t, exec (.ctlLease .pz h false base count) s = .next t ∧
      t.pz.ctl.granted = s.pz.ctl.granted ++ [{ rcpt := h.sender, base := s.pz.rootNext, count := count.toNat }] ∧
      t.pz.ctl.origin = s.pz.rootNext + count) ∧
    (∀ e cfg k, tblLookup s.pz.ctl.kids h.sender.toNat = some k → ∃ t, exec (.ctlKeepalive .pz h e cfg) s = .next t ∧
      tblLookup t.pz.ctl.kids h.sender.toNat = some { k with epoch := e, heard := s.pz.now, silent := false }) ∧
    (∀ e n m, FreshPz s h 0xB → s.pz.ctl.askEpoch.find? (fun m => (cfgMsg m.payload).tag == h.tag) = some m → m.src = .slot n →
      m.reply = false → ∃ t, exec (.ctlEpoch port h true e) s = .next t ∧ Answered t n 0 ∧
      t.pz.ctl.alloced = e :: s.pz.ctl.alloced ∧ t.pz.ctl.askEpoch = s.pz.ctl.askEpoch.erase m) ∧
    (∀ e, FreshPz s h 0xB → s.pz.role ≠ 2 → ∃ t, exec (.ctlEpoch port h false e) s = .next t ∧
      t.pz.ctl.askKids = s.pz.ctl.askKids ++ [h]) ∧
    (∀ e, FreshPz s h 0xB → s.pz.role = 2 → s.pz.ctl.based = true → s.pz.allocBlocked = false → s.pz.ctl.nextCfg ≠ 0 → ∃ t,
      exec (.ctlEpoch port h false e) s = .next t ∧
      t.pz.ctl.nextCfg = if s.pz.ctl.nextCfg = 0xFFFF then 1 else s.pz.ctl.nextCfg + 1) ∧
    (∀ e (ok late : BitVec 16) miss c, FreshPz s h 0xC → s.pz.ctl.cuts = [c] → c.epoch = e → c.chains ≠ [] → ∃ t,
      exec (.ctlTcut port h e ok late miss) s = .next t ∧ t.pz.ctl.cuts = [{ c with
        done := c.done + ok.toNat, timeout := c.timeout + late.toNat, missing := c.missing ++ miss
        kids := c.kids.filter (· != h.sender) }]) ∧
    (∀ payload, FreshPz s h 0xD →
      let c := cfgMsg payload
      c.tag ≠ 0 → c.llen = 0 → c.cop = 3 ∨ (c.cop = 2 ∧ c.entries = []) → (∀ j, s.pz.job c.tag = some j → j.quiet = true) → ∃ t p,
        exec (.ctlPrepare port h payload) s = .next t ∧ t.pz.prepOf c.tag = some p ∧ p.cfg = c.cfg ∧ p.ask = some h) ∧
    (∀ payload j, FreshPz s h 0xD → s.pz.job (cfgMsg payload).tag = some j → j.quiet = false →
      (cfgMsg payload).cop = 2 ∨ (cfgMsg payload).cop = 3 ∨ (cfgMsg payload).cop = 4 → ∃ t a,
      exec (.ctlPrepare port h payload) s = .next t ∧ t.pz.ctl.answers.head? = some (h.sender, h.cseq, a) ∧
      t.pz.ctl.jobs = s.pz.ctl.jobs) ∧
    (∀ pairs, FreshPz s h 0xE → ∃ t, exec (.ctlAlmack port h pairs) s = .next t ∧ t.pz.ctl.unacked =
      s.pz.ctl.unacked.filter (fun u => !pairs.any (fun p => p.1 == u.msg.fleet && p.2 == u.aseq))) ∧
    (∀ body m, FreshPz s h 0xA → s.pz.mb.queue = [] → m = mbMsg (.relay h.sender h.cseq h.cfg) (decide (16 ≤ port.toNat)) (leAt body 0 4)
      (leAt body 4 4) (leAt body 8 4) (leAt body 0xC 4) ((body.drop 16).take (leAt body 0 2 % 4096)) → m.mtype ≠ 5 →
      s.pz.mbRefusal m = none → ∃ t, exec (.ctlRelay port h body) s = .next t ∧ t.pz.mb.queue = [m]) ∧
    (∀ old partner standby, ∃ t k, exec (.ctlReparent port h old partner standby) s = .next t ∧
      tblLookup t.pz.ctl.kids h.sender.toNat = some k ∧ k.port = port.toNat ∧ k.silent = false) ∧
    (∀ m, s.pz.ctl.sent.find? (fun x => x.cseq == m.cseq && x.op == m.op && (x.leaves.any (· == m.sender) || x.op == 9)) = none →
      ∃ t, exec (.configAckRx .pz m) s = .next t ∧ t.pz.ctl.sent = s.pz.ctl.sent) ∧
    (∀ m x, s.pz.ctl.sent.find? (fun x => x.cseq == m.cseq && x.op == m.op && (x.leaves.any (· == m.sender) || x.op == 9)) = some x →
      x.op ≠ 1 → x.op ≠ 2 → x.op ≠ 6 → x.op ≠ 9 → x.op ≠ 0xD → x.ask = none → ∃ t, exec (.configAckRx .pz m) s = .next t ∧
      (x.leaves = [m.sender] → t.pz.ctl.sent = s.pz.ctl.sent.erase x)) ∧
    (∀ rcpt cseq, s.pz.ctl.sent.find? (fun x => x.rcpt == rcpt && x.cseq == cseq) = none → exec (.configRepeat .pz rcpt cseq) s = .next s) ∧
    (∀ rcpt cseq x, s.pz.ctl.sent.find? (fun x => x.rcpt == rcpt && x.cseq == cseq) = some x →
      (x.miss = true ∨ (x.sends < 4 ∧ x.op ≠ 6) → ∃ t, exec (.configRepeat .pz rcpt cseq) s = .next t ∧
        t.pz.ctl.sent = s.pz.ctl.sent.map (fun y => if y = x then { x with sends := x.sends + 1, first := t.pz.now } else y) ∧
        (s.pz.linkUp x.port = true → t.pz.out = s.pz.out ++ [.msg x.port x.msg]) ∧
        t.pz.fld PzR.CF_CNT_MISSING = s.pz.fld PzR.CF_CNT_MISSING) ∧
      (x.miss = false → 4 ≤ x.sends → x.op ≠ 1 → x.op ≠ 2 → x.op ≠ 6 → x.op ≠ 0xD → ∃ t,
        exec (.configRepeat .pz rcpt cseq) s = .next t ∧
        t.pz.fld PzR.CF_CNT_MISSING = held PzR.CF_CNT_MISSING (s.pz.fld PzR.CF_CNT_MISSING + x.leaves.length)))

/-- Who is there (R21 to R23, R325, R333, R335 to R337): a child silent for 2 ms is silent; a device whose parent is silent, whose alarms go unacknowledged or
whose U0 fails takes the other port, and is isolated when nobody answers, trying both; registrations make entries, chain masters and
children, or are refused. -/
def WhoIsThere : Prop :=
  ∀ (s : State),
    (∃ t, exec .keepaliveSend s = .next t ∧ t.pz.now = (s.pz.now / 250000 + 1) * 250000 ∧ t.pz.ctl.sent = s.pz.ctl.sent ∧
      t.pz.regs = s.pz.regs ∧ ∀ k ∈ s.pz.ctl.kids, s.pz.linkUp k.2.port = true → ∃ m, .msg k.2.port m ∈ t.pz.out ∧ m.ty = 8) ∧
    (∀ w, tblLookup s.pz.ctl.kids w.toNat = none → exec (.childTimeout w) s = .next s) ∧
    (∀ w k, tblLookup s.pz.ctl.kids w.toNat = some k →
      (k.silent = true → exec (.childTimeout w) s = .next s) ∧
      (k.silent = false → ∃ t, exec (.childTimeout w) s = .next t ∧
        tblLookup t.pz.ctl.kids w.toNat = some { k with silent := true } ∧ k.heard + 2000000 ≤ t.pz.now)) ∧
    (let lost : State → Prop := fun t => t.pz.fld PzR.CF_STAT_PATH = 2 ∧ pzCounts s t PzR.CF_CNT_REPARENTS ∧ t.pz.ctl.left = 0 ∧
        t.pz.ctl.spare = [] ∧ t.pz.ctl.toward = decide (s.pz.fld PzR.CF_STAT_PATH = 1)
     (s.pz.role = 2 ∨ 2 ≤ s.pz.fld PzR.CF_STAT_PATH → exec .parentTimeout s = .next s ∧ exec .almackTimeout s = .next s) ∧
     (s.pz.role ≠ 2 → s.pz.fld PzR.CF_STAT_PATH < 2 →
       (∃ t, exec .parentTimeout s = .next t ∧ lost t ∧ s.pz.ctl.parentAt + 2000000 ≤ t.pz.now) ∧
       (s.pz.ctl.unacked = [] → exec .almackTimeout s = .next s) ∧
       (∀ u us, s.pz.ctl.unacked = u :: us → ∃ t, exec .almackTimeout s = .next t ∧ lost t ∧ u.sent + 20000 ≤ t.pz.now) ∧
       (s.pz.fld PzR.CF_STAT_PATH = 0 → ∃ t, exec .u0LinkFault s = .next t ∧ lost t) ∧
       (∀ p data, Admitted s p 0x80000 → s.pz.fld PzR.CF_STAT_PATH = 1 → ∃ t, exec (.cfReturn p data) s = .next t ∧ lost t)) ∧
     (s.pz.fld PzR.CF_STAT_PATH ≠ 0 → exec .u0LinkFault s = .next s) ∧
     (∀ p data, Admitted s p 0x80000 → s.pz.fld PzR.CF_STAT_PATH ≠ 1 → ∃ t, exec (.cfReturn p data) s = .next t ∧
       t.pz.fld PzR.CF_STAT_PATH = s.pz.fld PzR.CF_STAT_PATH ∧ t.pz.ctl = s.pz.ctl)) ∧
    (s.pz.fld PzR.CF_STAT_PATH ≠ 2 → exec .reparentTimeout s = .next s) ∧
    (s.pz.fld PzR.CF_STAT_PATH = 2 → ∃ t, exec .reparentTimeout s = .next t ∧ t.pz.fld PzR.CF_STAT_PATH = 3 ∧
      (∀ x ∈ t.pz.ctl.sent, x.op ≠ 9) ∧ s.pz.ctl.reparAt + 2000000 ≤ t.pz.now) ∧
    (s.pz.fld PzR.CF_STAT_PATH ≠ 3 → exec .reparentRetry s = .next s) ∧
    (s.pz.fld PzR.CF_STAT_PATH = 3 → ∃ t a b, exec .reparentRetry s = .next t ∧
      t.pz.ctl.sent = s.pz.ctl.sent.filter (fun x => !(x.op == 9)) ++ [a, b] ∧ a.op = 9 ∧ b.op = 9 ∧ a.port = 16 ∧ b.port = 17 ∧
      t.pz.ctl.reparAt = t.pz.now ∧ s.pz.ctl.reparAt + 10000000 ≤ t.pz.now) ∧
    (∀ p : BitVec 4, (tget s.pz.ctl.chains p.toNat).sub = none → exec (.submasterPromote p) s = .next s) ∧
    (∀ (p : BitVec 4) w, (tget s.pz.ctl.chains p.toNat).sub = some w → ∃ t, exec (.submasterPromote p) s = .next t ∧
      (tget t.pz.ctl.chains p.toNat).master = w ∧ (tget t.pz.ctl.chains p.toNat).sub = none) ∧
    (∀ p : BitVec 4, s.pz.takeCtl p.toNat (fun m => m.ty == 7 && leAt m.body 0 1 == 1) = none → exec (.regLeaf p) s = .next s) ∧
    (∀ (p : BitVec 4) m z e, s.pz.takeCtl p.toNat (fun m => m.ty == 7 && leAt m.body 0 1 == 1) = some (m, z) → regEnts m.body = [e] →
      e.fleet.toNat % 2 ^ 20 ≠ 0 →
      (e.version.toNat / 16 ≠ 3 → ∃ t, exec (.regLeaf p) s = .next t ∧ t.pz.route e.fleet = s.pz.route e.fleet) ∧
      (e.version.toNat / 16 = 3 → (tget s.pz.routes (e.fleet.toNat % 2 ^ 20)).valid = false →
        (s.pz.leavesWith (fun _ => true)).length < 512 → ∃ t r, exec (.regLeaf p) s = .next t ∧ t.pz.route e.fleet = some r ∧
        r.port.toNat = p.toNat ∧ r.home.toNat = 4 * p.toNat ∧ r.pos = e.pos ∧ r.refused = false)) ∧
    (∀ p : BitVec 4, s.pz.takeCtl p.toNat (fun m => m.ty == 7 && leAt m.body 0 1 == 2) = none →
      exec (.regMemberReport p) s = .next s) ∧
    (∀ (p : BitVec 4) m z, s.pz.takeCtl p.toNat (fun m => m.ty == 7 && leAt m.body 0 1 == 2) = some (m, z) →
      let c := tget s.pz.ctl.chains p.toNat
      ∃ t, exec (.regMemberReport p) s = .next t ∧
      (c.master = 0 → (tget t.pz.ctl.chains p.toNat).master = m.fleet) ∧
      (c.master ≠ 0 → c.master ≠ m.fleet → (tget t.pz.ctl.chains p.toNat).master = c.master ∧
        (tget t.pz.ctl.chains p.toNat).sub = some m.fleet)) ∧
    (∀ p : BitVec 5, s.pz.takeCtl p.toNat (fun m => m.ty == 7 && leAt m.body 0 1 == 3) = none →
      exec (.regPolornaz p) s = .next s) ∧
    (∀ (p : BitVec 5) m z e, s.pz.takeCtl p.toNat (fun m => m.ty == 7 && leAt m.body 0 1 == 3) = some (m, z) →
      regEnts m.body = [e] →
      (e.version.toNat / 16 = 1 → ∃ t, exec (.regPolornaz p) s = .next t ∧ tblLookup t.pz.ctl.kids e.fleet.toNat =
        some { port := p.toNat, heard := s.pz.now, silent := false, epoch := e.ink }) ∧
      (e.version.toNat / 16 ≠ 1 → ∃ t, exec (.regPolornaz p) s = .next t ∧ t.pz.ctl.kids = s.pz.ctl.kids))

/-! ## The whole machine -/

/-- The part of the plane that a command acts on: the leaf Grildoda, or the chip Polornaz. -/
def partOf : Instr → Part
  | .add e _ | .sub e _ | .and e _ | .or e _ | .xor e _ | .shl e _ | .shr e _ | .sra e _ | .mul e _ | .mulh e _ | .mulhu e _
  | .min e _ | .max e _ | .minu e _ | .maxu e _ | .slt e _ | .sltu e _ | .seq e _ | .addi e _ | .andi e _ | .ori e _ | .xori e _
  | .shli e _ | .shri e _ | .srai e _ | .lui e _ | .ldB e _ | .ldH e _ | .ldW e _ | .ldD e _ | .stB e _ | .stH e _ | .stW e _
  | .stD e _ | .amoAdd e _ | .amoMin e _ | .amoMax e _ | .amoMinu e _ | .amoMaxu e _ | .amoSwap e _ | .amoCas e _ | .fence e _
  | .beq e _ | .bne e _ | .blt e _ | .bge e _ | .bltu e _ | .bgeu e _ | .jal e _ | .jr e _ | .keyF32 e _ | .keyF16 e _
  | .keyBf16 e _ | .keyS32 e _ | .keyU32 e _ | .unkeyF32 e _ | .unkeyS32 e _ | .capCnt e _ | .capStart e _ | .capEnd e _
  | .capStrm e _ | .capVal e _ | .capVtag e _ | .capFresh e _ | .capUpd e _ | .capTagerr e _ | .fldW e _ | .fldInv e _
  | .fldRd e _ | .redAdd e _ | .treeLocal e _ | .treeLaunch e _ | .treeWait e _ | .treeSum e _ | .emitAlarm e _
  | .emitVerdict e _ | .emitAdv e _ | .emitTrace e _ | .emitReply e _ | .finish e _ | .csrr e _ | .csrw e _ | .epCmp e _
  | .epWait e _ | .epCfgcmp e _ | .vadd e _ | .vsub e _ | .vmul e _ | .vmin e _ | .vmax e _ | .vminu e _ | .vmaxu e _ | .vand e _
  | .vor e _ | .vxor e _ | .vshl e _ | .vshr e _ | .vsra e _ | .vfadd e _ | .vfmul e _ | .vcmpEq e _ | .vcmpLt e _ | .vcmpLtu e _
  | .vcmpGe e _ | .vcmpGeu e _ | .vld e _ | .vst e _ | .vredSum e _ | .vredMin e _ | .vredMax e _ | .vredMinu e _ | .vredMaxu e _
  | .vredCnt e _ | .vkeyF32 e _ | .vkeyF16 e _ | .vkeyBf16 e _ | .vkeyS32 e _ | .vkeyU32 e _ | .vsplat e _ | .vins e _
  | .vext e _ | .vmov e _ | .statMed e _ | .statMad e _ | .statQsAdd e _ | .statQsQ e _ | .statEwma e _ | .strPop e _
  | .strPeek e _ | .strSkip e _ | .strLen e _ | .strPush e _ | .dgLd e _ | .dgDiff e _ | .dgTol e _ | .rdxAdd e _ | .rdxMin e _
  | .rdxMax e _ | .rdxClose e _ => (match e with | .quill => .leaf | .station .. => .pz)
  | .splitValueLowRead part _ _ | .registerWrite part _ _ _ | .iwCursorWrite part _ _ | .iwNext part _ _ | .ctlInk part _ _
  | .ctlLease part _ _ _ _ | .ctlKeepalive part _ _ _ | .configAckRx part _ | .configRepeat part _ _ | .rcFieldRead part _ _ => part
  | .scrubRead w _ _ => (match w with | .leaf _ => .leaf | .sram | .dram => .pz)
  | .leafPowerOnReset | .leafPowerUp | .warmReset _ _ | .supplyMonitorReset | .hostIsoChange _ | .refclkLost | .reffreqWrite _ _
  | .fallbackCalibrate _ | .periodicItem _ _ | .strobeItem _ _ _ | .markerItem _ _ _ | .markerHoldRelease _ | .coreApplyItem _
  | .evStopReq _ _ _ | .evStopAck _ _ | .evStopRelease _ | .markerTimeout _ | .controlWriteTimeout _ | .cgControlWrite _ _ _ _
  | .cgClear _ _ _ | .cgBind _ _ _ | .valuePortHandshake _ _ _ | .digestBeat _ _ _ _ _ _ | .digestEngineBeat _ | .testGrantIn _ _
  | .testDone _ _ | .testRefuse _ _ | .testResendIn _ _ | .testDue _ | .testOverdue _ | .testLateAdvisory _ | .testRoundTimeout _
  | .heartbeatBeat | .heartbeatExpiry | .irqIdleRise _ _ | .holdoffExpiry _ | .irqClaim _ _ | .irqEoi _ _ _ | .uplinkCellStart _
  | .ulShpWrite _ _ _ | .ulOvhWrite _ _ | .alarmCredit | .forwardCell _ | .timeCellRx _ | .phaseStep | .holdExpiry
  | .sourceTimeout _ | .frameInstant | .inklineTime | .captureWindowOpen | .windowDeadline | .frameClose | .armGo _ _
  | .armCheckDone | .programWindowWrite _ _ _ | .sliceWrite _ _ _ | .lmDirWrite _ _ _ | .lmCheckDone _ | .lmCtlWrite _ _ _
  | .reedStall _ _ | .reedTrainRetry _ | .reedHello _ _ _ | .reedHop _ _ _ _ _ _ | .reedTick _ _ _ _ _ _ | .tickSend
  | .routeTimeout _ | .masterLoss | .reedElect _ _ _ | .electionSettle | .reedState _ _ _ | .reedAbdicate _ _ _
  | .abdicateWrite _ _ | .uplinkStallAbdicate | .abdicateTimeout | .reedReport _ _ _ | .reportSend | .reedInk _ _ _ | .inkGo _ _
  | .reedFlush _ _ _ | .reedFlushSend _ | .cutTimeout | .reedAlarm _ _ _ | .reedWave _ _ _ | .registrationTimer
  | .peatLogWrite _ _ _ _ | .iwDump _ _ | .historyDumpMessage | .ctlWrite _ _ | .ctlArm _ _ _ _ _ | .ctlAssign _ _ _ _
  | .ctlTeardown _ _ _ | .ctlSubmaster _ _ | .ctlTgrant _ _ _ _ _ | .refclkRestored | .reedRailError _ _ | .uplinkCellRx _
  | .healthUpdateRx _ _ | .fenceNoticeRx _ _ | .memberProbeRx _ => .leaf
  | .ctlReparent _ _ _ _ _ | .ctlRelay _ _ _ | .ctlEpoch _ _ _ _ | .ctlTcut _ _ _ _ _ _ | .ctlPrepare _ _ _ | .ctlAlmack _ _ _
  | .keepaliveSend | .parentTimeout | .childTimeout _ | .almackTimeout | .u0LinkFault | .reparentTimeout | .reparentRetry
  | .cfReturn _ _ | .submasterPromote _ | .prepareTimeout _ | .trayCutTimeout _ | .regLeaf _ | .regMemberReport _
  | .regPolornaz _ | .cellIngress _ _ _ _ _ | .controlAdmit _ | .ingressFrame _ | .ingressReduction _ | .ingressAlarm _
  | .ingressFlush _ _ | .cutReportRx _ | .traceRecordRx _ | .historyDumpRx _ | .snapshotDrainRx _ | .alarmOutput
  | .alRptrWrite _ _ | .vdRptrWrite _ _ | .mbRptrWrite _ _ | .livenessEval | .livenessProbe _ | .disagreeTick _
  | .blotterRecord _ _ _ _ | .blotterTimeout _ _ _ _ | .mailboxCommit _ _ _ | .progLoad | .progEnable | .progDisable
  | .progUnload | .modelLoad | .modelLoadDone _ | .modelUnload | .stageRegionDone _ _ | .groupDecl | .configAlloc | .configStart
  | .configChange | .configGrow | .configShrink | .configTeardown | .configAccept | .configCancel | .configInkline
  | .configRelease | .testGrant | .noticeFence | .noticeUnfence | .noticeTarget | .noticePrior _ | .noticePhase | .progMsg
  | .trayInkline | .snapshotCopyDone | .leafwaitExpiry | .snapshotDrainDone | .restoreGo _ _ | .restoreDone
  | .peatStoreWrite _ _ _ _ _ | .psSave _ _ | .saveminExpiry | .psOosclr _ _ | .timeCellSend _ _ | .ptpSyncRx _ _ _ _ _ _
  | .ptpFollowUpRx _ _ _ _ _ | .ptpDelayReqRx _ _ _ _ _ | .ptpDelayRespRx _ _ _ _ _ | .ptpAnnounceRx _ _ _ | .ptpSyncSend _ _ _
  | .ptpAnnounceSend _ _ | .ptpDelayReqSend _ _ _ | .holdoverThreshold | .toutPulse _ | .toutOneshotWrite _ _ _ _
  | .triggerInputEdge _ _ _ | .tinDataRead _ _ | .govStep _ _ | .speedMonitor _ _ | .tempSample _ | .thermTripShutdown
  | .ceilStep | .meshLinkDown _ _ _ | .stationWatchdog _ _ | .stationStall _ | .arrivalAgeExpiry _ _ | .inklineTrigger _ _ _ _
  | .timeTrigger _ _ | .dispatch _ _ | .waitComplete _ _ | .treeResult _ _ _ | .stationAlarmCredit _ _ | .bar2Read _ _
  | .bar2Write _ _ | .portModeWrite _ _ _ | .linkDrop _ | .linkUp _ | .pzPorRise _ _ | .railPowerGood _ | .powerUpStepDone _ _ _
  | .railFault _ | .pzPorFall | .pzWarmReset _ _ | .perstAssert | .perstRelease | .pzRefclkLost | .pzRefclkReturn
  | .i3cRegisterRead _ | .i3cRegisterWrite _ _ | .i3cEntdaa _ | .i3cSetdasa _ _ | .i3cSetnewda _ | .i3cRstdaa | .i3cGetpid
  | .i3cGetbcr | .i3cGetdcr | .i3cGetstatus | .i3cGetmwl | .i3cGetmrl | .i3cEnec | .i3cDisec | .jtagBypass | .jtagIdcode
  | .jtagSamplePreload _ _ | .jtagExtest | .jtagClamp | .jtagHighz | .ptpAnnounceTimeout _ _ | .msixHoldoffExpiry _
  | .advisoryRx _ | .pcieLinkChange _ _ _ _ => .pz

/-- Registers of the leaf whose reset value is not zero, from the register tables of the spec (Table 19.1). -/
def leafResets : List (Nat × Word) :=
  [(0x0000, 0x594C4744), (0x0004, 0x03010000), (0x0008, 0x00000014), (0x0400, 0x00000FFE), (0x0404, 0x0000007F),
   (0x0D00, 0x0000FFFF), (0x1004, 0x04000000), (0x1020, 0x26040A00), (0x2000, 0x10000000), (0x2004, 0xC0088000),
   (0x2060, 0x00000010), (0x3000, 0x00000018), (0x3014, 0x001008C0), (0x3018, 0x01401180), (0x301C, 0x002008C0),
   (0x3020, 0x00401180), (0x3024, 0x00010208), (0x3028, 0x11801180), (0x302C, 0x00400000), (0x9000, 0x04800000),
   (0x9010, 0xBF680000), (0x9014, 0x20000000), (0xA108, 0x008D0000), (0xB008, 0xC0000000), (0xC01C, 0x90408800),
   (0xD000, 0x0C020080), (0xD004, 0x28374650), (0xD008, 0x5A646E00), (0xD100, 0x03000064), (0xD104, 0x40000000),
   (0xD114, 0x18000000)]

/-- The same of Polornaz (Table 19.2); of a register with an index, the first. -/
def pzResets : List (Nat × Word) :=
  [(0x00000, 0x0D20B112), (0x10200, 0x57800500), (0x10300, 0x18180000), (0x103C0, 0x000A0000), (0x10400, 0x64692008),
   (0x10404, 0x80000000), (0x10464, 0x10000000), (0x10474, 0x00000005), (0x30000, 0x40000000), (0x30100, 0x03BC0000),
   (0x30138, 0x02BC0000), (0x40000, 0x00010A40), (0x40200, 0x04000010), (0x50000, 0x88B51800), (0x50004, 0x10000100),
   (0x50100, 0x0001B580), (0x50104, 0x00000E00), (0x50108, 0x00036B00), (0x5010C, 0x00001C00), (0x50800, 0x20000000),
   (0x50880, 0x60000000), (0x60014, 0x0000002A), (0x70000, 0x01000810), (0x70004, 0x08020A32), (0x80000, 0x03E80A00),
   (0x90008, 0x0000012C), (0x90014, 0x32580000), (0xA0008, 0xC0000000), (0xB0000, 0x003203E8), (0xC000C, 0x00000001),
   (0xD0000, 0x00003FFE)]

end Sys2Proof.Claims

open Sys2Proof Sys2Proof.Machine Sys2Proof.Claims

/-! ## The queue and time -/

/-- A step takes the command at the front of the queue and runs it on the state with the queue's rest. -/
def Obligations.StepRunsFrontCommand : Prop :=
  ∀ (s : State) (c : Instr) (rest : List Instr),
    step { s with pending := c :: rest } = exec c { s with pending := rest }

/-- Every command goes on to a next state, and no command touches the queue: no meaning stops. -/
def Obligations.EveryCommandKeepsQueue : Prop :=
  ∀ (c : Instr) (s : State), ∃ t, exec c s = .next t ∧ t.pending = s.pending

/-- On an empty queue a step lets one nanosecond pass and goes on (the model's choice, assumption log 4): while the leaf's
time base stands still, its interval clock alone moves; while it runs, aligned time gains (1 - adj * 10^-9) ns. -/
def Obligations.IdleStepLetsTimePass : Prop :=
  ∀ s : State, s.pending = [] → ∃ t, step s = .next t ∧ t.pending = [] ∧ t.freeCtr = s.freeCtr ∧
    t.leaf.regs = s.leaf.regs ∧ t.leaf.cap = s.leaf.cap ∧ t.pz.mem = s.pz.mem ∧
    (s.leaf.timeRuns = false → t.leaf.time = { s.leaf.time with clk := s.leaf.time.clk + 1 }) ∧
    (s.leaf.timeRuns = true → -200000 ≤ s.leaf.adj ∧ s.leaf.adj ≤ 200000 →
      (t.leaf.time.ns * 1000000000 + t.leaf.time.sub : Int) =
        s.leaf.time.ns * 1000000000 + s.leaf.time.sub + (1000000000 - s.leaf.adj) ∧
      t.leaf.time.sub < 1000000000)

/-! ## Jarend words -/

/-- Every instruction whose unused fields are zero comes back from its own word. -/
def Obligations.JarendDecodeOfEncode : Prop :=
  ∀ (i : Instr) (w : Word), encodeJarend i = some w → jarUnused i = true → ∃ e, decodeJarend e w = some i

/-- A word that spells an instruction is that instruction's word: no two words spell one instruction. -/
def Obligations.JarendEncodeOfDecode : Prop :=
  ∀ (e : Engine) (w : Word) (i : Instr), decodeJarend e w = some i → encodeJarend i = some w ∧ jarUnused i = true

/-- Words written out from Tables 10.7 and 10.8: `add g1, g2, g3`; `addi g4, g5, -1`; `ld.d g6, [g7 + 16]`; `beq g1, g0`
two words on; `vadd v1, v2, v3` under k4; `end`; and the all-zero word, which spells nothing. -/
def Obligations.JarendWordsReadAsTheSpecSays : Prop :=
  ∀ e : Engine,
    decodeJarend e 0b000001_00001_00010_00011_00000000000 = some (.add e ⟨1, 2, 3⟩) ∧
    decodeJarend e 0b000010_00100_00101_1111111111111111 = some (.addi e ⟨4, 5, 0xFFFF⟩) ∧
    decodeJarend e 0b001000_00110_00111_11_00000000000010 = some (.ldD e ⟨6, 7, 2⟩) ∧
    decodeJarend e 0b001100_00001_00000_0000000000000010 = some (.beq e ⟨1, 0, 2⟩) ∧
    decodeJarend e 0 = none

/-- g0 reads zero and discards what is written to it, and so does k0 with all ones, on either engine. -/
def Obligations.RegisterZeroIsFixed : Prop :=
  (∀ (x : Ctx) (v : DWord), x.rg 0 = 0 ∧ x.put 0 v = x ∧ x.kr 0 = 0xFFFFFFFFFFFFFFFF ∧ x.kput 0 v = x) ∧
  (∀ (w : Window) (v : DWord) (srcs : List Nat), w.g 0 = 0 ∧ w.valid 0 = true ∧ w.result 0 v srcs = w) ∧
  (∀ (x : Ctx) (r q : Nat) (v : DWord), r ≠ 0 →
    (x.put r v).rg r = v ∧ (q ≠ r → (x.put r v).rg q = x.rg q) ∧ (x.put r v).k = x.k ∧ (x.put r v).v = x.v) ∧
  (∀ (w : Window) (r q : Nat) (v : DWord) (srcs : List Nat), r ≠ 0 → q ≠ r →
    (w.result r v srcs).g r = v ∧ (w.result r v srcs).valid r = srcs.all w.valid ∧
    (w.result r v srcs).g q = w.g q ∧ (w.result r v srcs).valid q = w.valid q)

/-- An atomic update writes the new word and returns the old one; on DRAM it faults with ACCESS (R232). -/
def Obligations.AtomicUpdateReturnsOldWord : Prop :=
  (∀ p ∈ amoRows, ∀ (s : State) (f : FmtA) (st : BitVec 6) (c : BitVec 2) (x : Ctx),
    StReady s (p.1 (.station st c) f) st c x →
      let a := (x.rg f.ra.toNat).toNat
      let old : DWord := BitVec.ofNat 64 (ofLe (memBytes s.pz.mem a 8))
      (a < 0x10000000000 → Readable s x a 8 8 → Writable s x a 8 8 → ∃ t, exec (p.1 (.station st c) f) s = .next t ∧
        (∀ i, i < 8 → tget t.pz.mem (a + i) = (p.2 old (x.rg f.rb.toNat)).extractLsb' (8 * i) 8) ∧
        (∀ b, b < a ∨ a + 8 ≤ b → drained s.pz a 8 b = false → tget t.pz.mem b = tget s.pz.mem b) ∧
        t.pz.ctxs = (stNext s st c ((issued x).put f.rd.toNat old)).pz.ctxs) ∧
      (a % 8 = 0 → 0x10000000000 ≤ a → exec (p.1 (.station st c) f) s =
        .next { s with pz := s.pz.faultAct st.toNat c.toNat (issued x) 3 a })) ∧
  (∀ (s : State) (f : FmtA) (st : BitVec 6) (c : BitVec 2) (x : Ctx),
    StReady s (.amoCas (.station st c) f) st c x →
      let a := (x.rg f.ra.toNat).toNat
      let old : DWord := BitVec.ofNat 64 (ofLe (memBytes s.pz.mem a 8))
      let new : DWord := if old = x.rg f.rd.toNat then x.rg f.rb.toNat else old
      a < 0x10000000000 → Readable s x a 8 8 → Writable s x a 8 8 →
      ∃ t, exec (.amoCas (.station st c) f) s = .next t ∧
        (∀ i, i < 8 → tget t.pz.mem (a + i) = new.extractLsb' (8 * i) 8) ∧
        t.pz.ctxs = (stNext s st c ((issued x).put f.rd.toNat old)).pz.ctxs)

/-- Special registers (R230, Table 10.2): each of the profile reads its content, and any other number faults with CSR; COALESCE is
cleared by its read; EXEC and LEFT do not count the read itself; of a context TNEXT alone may be written, and a time already past
fires at once with LATE; a channel may write none. -/
def Obligations.SpecialRegisterAccess : Prop :=
  (∀ (s : State) (f : FmtX) (st : BitVec 6) (c : BitVec 2) (x : Ctx), StReady s (.csrr (.station st c) f) st c x →
    let n := f.ra.toNat * 16 + f.sel.toNat
    let q := s.pz.slot st.toNat x.slot.toNat
    let table : List (Nat × Nat) := [(0x000, 0x0102), (0x001, 0), (0x002, x.slot.toNat * 65536 + c.toNat * 256 + st.toNat),
      (0x010, s.pz.now), (0x011, s.pz.ctl.epoch.toNat), (0x012, s.pz.fld PzR.CF_STAT_LAST_CFG), (0x013, s.pz.ctl.inkTime),
      (0x020, x.kind.toNat + if x.late then 4 else 0), (0x021, x.data), (0x022, x.coal), (0x030, x.exec),
      (0x031, x.image.budget - x.exec), (0x040, s.pz.fld PzR.GOV_STAT_LEVEL), (0x070, q.tnext)]
    (∀ v, (n, v) ∈ table → exec (.csrr (.station st c) f) s = .next (stNext s st c
      ({ issued x with coal := if n = 0x022 then 0 else x.coal }.put f.rd.toNat (BitVec.ofNat 64 v)))) ∧
    (table.all (fun p => p.1 != n) = true → exec (.csrr (.station st c) f) s =
      .next { s with pz := s.pz.faultAct st.toNat c.toNat (issued x) 0x0B (4 * x.pc) })) ∧
  (∀ (s : State) (f : FmtX) (st : BitVec 6) (c : BitVec 2) (x : Ctx), StReady s (.csrw (.station st c) f) st c x →
    let n := f.ra.toNat * 16 + f.sel.toNat
    let t := (x.rg f.rd.toNat).toNat
    (n = 0x070 → t = 0 ∨ s.pz.now ≤ t → exec (.csrw (.station st c) f) s =
      .next (stNext (s.onPz (Pz.setSlot st.toNat x.slot.toNat (fun q => { q with tnext := t }))) st c (issued x))) ∧
    (n = 0x070 → 0 < t → t < s.pz.now → (s.pz.slot st.toNat x.slot.toNat).active.isSome = true →
      (s.pz.slot st.toNat x.slot.toNat).disabled = false → ∃ u p, exec (.csrw (.station st c) f) s = .next u ∧
      (u.pz.slot st.toNat x.slot.toNat).tnext = 0 ∧ (u.pz.slot st.toNat x.slot.toNat).tim = some p ∧
      u.pz.ctx st.toNat c.toNat = some (issued x) ∧
      ((s.pz.slot st.toNat x.slot.toNat).tim = none → p.data = t ∧ p.late = true)) ∧
    (n ≠ 0x070 → exec (.csrw (.station st c) f) s =
      .next { s with pz := s.pz.faultAct st.toNat c.toNat (issued x) 0x0B (4 * x.pc) })) ∧
  (∀ (s : State) (f : FmtX) (w : Window) (c : Nat),
    (QlReady s (.csrr .quill f) 1 w c →
      let n := f.ra.toNat * 16 + f.sel.toNat
      let table : List (Nat × Nat) := [(0x000, 0x0102), (0x001, 1), (0x002, c), (0x010, s.leaf.time.ns),
        (0x011, s.leaf.epoch.toNat), (0x012, s.leaf.chain.cfg.toNat), (0x030, w.exec),
        (0x031, slBudget (s.leaf.slice w.bank c) - w.exec)]
      (∀ v, (n, v) ∈ table →
        exec (.csrr .quill f) s = .next (qlNext s ((counted w 1).put f.rd.toNat (BitVec.ofNat 64 v)))) ∧
      (table.all (fun p => p.1 != n) = true →
        exec (.csrr .quill f) s = .next { s with leaf := s.leaf.stopChan 3 c (counted w 1) })) ∧
    (QlReady s (.csrw .quill f) 1 w c →
      exec (.csrw .quill f) s = .next { s with leaf := s.leaf.stopChan 3 c (counted w 1) }))

/-- The loads of both profiles. -/
def Obligations.LoadInstructions : Prop := LoadReadsGrantedBytes ∧ LeafLoadReadsConstantSpace

/-- `dg.ld` loads the sixteen projections of a digest body and answers its count; `dg.diff` subtracts those of a body and
answers the greatest magnitude; `dg.tol` answers the tolerance of R195, and 0 for R, DEPTH zero or a reserved ACCF. -/
def Obligations.DigestArithmetic : Prop :=
  ∀ (s : State) (f : FmtX) (st : BitVec 6) (c : BitVec 2) (x : Ctx),
    let a := (x.rg f.ra.toNat).toNat
    let proj : Nat → DWord := fun j => BitVec.ofNat 64 (num s.pz (a + 0x60 + 8 * j) 8)
    let pair : Ctx → Nat → DWord := fun y j => (y.ln f.sel.toNat (2 * j + 1)) ++ (y.ln f.sel.toNat (2 * j))
    (StReady s (.dgLd (.station st c) f) st c x → Readable s x a 224 8 →
      ∃ y, exec (.dgLd (.station st c) f) s = .next (stNext s st c y) ∧ (∀ j, j < 16 → pair y j = proj j) ∧
        (∀ i, 32 ≤ i → i < 64 → y.ln f.sel.toNat i = 0) ∧ (∀ r, r ≠ f.sel.toNat → tget y.v r = tget x.v r) ∧
        y.g = ((issued x).put f.rd.toNat (BitVec.ofNat 64 (num s.pz (a + 0x20) 8))).g) ∧
    (StReady s (.dgDiff (.station st c) f) st c x → Readable s x a 224 8 →
      ∃ y, exec (.dgDiff (.station st c) f) s = .next (stNext s st c y) ∧
        (∀ j, j < 16 → pair y j = pair x j - proj j) ∧
        (∀ i, 32 ≤ i → i < 64 → y.ln f.sel.toNat i = x.ln f.sel.toNat i) ∧
        (∃ m, y.g = ((issued x).put f.rd.toNat (BitVec.ofNat 64 m)).g ∧
          (∀ j, j < 16 → (pair y j).toInt.natAbs ≤ m) ∧ ∃ j, j < 16 ∧ (pair y j).toInt.natAbs = m)) ∧
    (StReady s (.dgTol (.station st c) f) st c x → Readable s x a 32 8 →
      let n := num s.pz a 8
      let sq := num s.pz (a + 8) 13
      let r := num s.pz (a + 0x18) 1
      let dep := num s.pz (a + 0x19) 1
      let ac := num s.pz (a + 0x1A) 1 % 8
      let k := if num s.pz (a + 0x1B) 1 = 0 then 8 else num s.pz (a + 0x1B) 1
      let put : Nat → State := fun v => stNext s st c ((issued x).put f.rd.toNat (BitVec.ofNat 64 v))
      (r = 0 ∨ dep = 0 ∨ 3 ≤ ac → exec (.dgTol (.station st c) f) s = .next (put 0)) ∧
      (∀ e, 0 < r → 0 < dep → (ac = 0 ∧ e = 2) ∨ (ac = 1 ∧ e = 28) ∨ (ac = 2 ∧ e = 34) →
        ∃ t, LeastTolerance k (n * (r + 1) ^ 2 * 2 ^ 16 + r * dep ^ 2 * sq * 2 ^ e) t ∧
          exec (.dgTol (.station st c) f) s = .next (put (min t (2 ^ 64 - 1)))))

/-- The epoch instructions (R264, Table 11.13) compare in the serial order of R25: -1 earlier, 0 equal, 1 later, 2 at the half
range; `ep.wait` completes once INKEP equals or is later than the operand and else waits; a SEL that is not zero faults with
ILLEGAL. -/
def Obligations.EpochComparison : Prop :=
  ∀ (s : State) (f : FmtX) (st : BitVec 6) (c : BitVec 2) (x : Ctx),
    let a : Word := (x.rg f.ra.toNat).setWidth 32
    let d := (a - s.pz.ctl.epoch).toInt
    let e : BitVec 16 := (x.rg f.ra.toNat).setWidth 16 - BitVec.ofNat 16 (s.pz.fld PzR.CF_STAT_LAST_CFG)
    let cmp : Bool → Int → DWord := fun half d => if half then 2 else if d < 0 then -1 else if d = 0 then 0 else 1
    (StReady s (.epCmp (.station st c) f) st c x → exec (.epCmp (.station st c) f) s =
      .next (stNext s st c ((issued x).put f.rd.toNat (cmp (decide (a - s.pz.ctl.epoch = 0x80000000)) d)))) ∧
    (StReady s (.epCfgcmp (.station st c) f) st c x → exec (.epCfgcmp (.station st c) f) s =
      .next (stNext s st c ((issued x).put f.rd.toNat (cmp (decide (e = 0x8000)) e.toInt)))) ∧
    (StReady s (.epWait (.station st c) f) st c x →
      (a - s.pz.ctl.epoch ≠ 0x80000000 → d ≤ 0 → exec (.epWait (.station st c) f) s =
        .next (stNext s st c ((issued x).put f.rd.toNat (s.pz.ctl.epoch.setWidth 64)))) ∧
      (0 < d ∨ a - s.pz.ctl.epoch = 0x80000000 → exec (.epWait (.station st c) f) s =
        .next (stNext s st c { issued x with wait := some (.epWait (.station st c) f, s.pz.now) }))) ∧
    (∀ mk ∈ [Instr.epCmp, .epWait, .epCfgcmp], f.sel ≠ 0 → s.pz.ctx st.toNat c.toNat = some x → x.wait = none →
      x.exec < x.image.budget → x.pc < x.image.code.length → exec (mk (.station st c) f) s =
        .next { s with pz := s.pz.faultAct st.toNat c.toNat (issued x) 1 (4 * x.pc) })

/-- The emit instructions: alarms against their credits, verdicts, advisories, traces and replies. -/
def Obligations.EmitInstructions : Prop := EmitAlarmTakesCredit ∧ EmitRecords

/-- Resets of the leaf and the isolation of its host inputs. -/
def Obligations.LeafResetAndIsolation : Prop := LeafResets ∧ HostIsolation

/-- The front-ends of event capture: items, the stop handshake, timeouts. -/
def Obligations.CaptureFrontEnds : Prop := FrontEndMakesItems ∧ BankClockStops

/-- What the capture core applies, control writes of groups, and the value ports. -/
def Obligations.CaptureCoreAndPorts : Prop := CoreAppliesItems ∧ GroupControlWrites ∧ ValuePortHolds

/-- Digest taps: buffering of beats and the engine. -/
def Obligations.DigestTaps : Prop := BeatsAreBuffered ∧ EngineTakesBeats

/-- In-field tests of host units. -/
def Obligations.HostUnitTests : Prop := TestMessages ∧ UnitDueAndOverdue ∧ HealthUpdates

/-- The heartbeat watch and the interrupt controller of the leaf. -/
def Obligations.HeartbeatAndInterrupts : Prop := HeartbeatWatch ∧ ClaimTakesTheHighest ∧ InterruptService

/-- Reads and writes of registers in both parts. -/
def Obligations.RegisterReadsAndWrites : Prop := LeafReads ∧ SplitReads ∧ RegisterWrites

/-- The leaf's time base, its sources and its servo. -/
def Obligations.LeafTimeAndServo : Prop := ReferenceClock ∧ SourcesAndServo

/-- The leaf's uplink: alarm credit, shaping, what starts, forwarding and receiving. -/
def Obligations.UplinkTraffic : Prop := AlarmCredits ∧ UplinkCells

/-- The Quill engine's tables: arming, slices, the program window, the local model. -/
def Obligations.QuillTables : Prop := ArmingAndSlices ∧ ProgramWindow ∧ LocalModel

/-- Frame instants, windows, frames, and the Inkline at a leaf. -/
def Obligations.WindowsAndInklines : Prop := WindowLife ∧ InklineAtLeaf

/-- The Reed chain's links, ticks and routes. -/
def Obligations.ReedLinksAndTicks : Prop := ReedLinks ∧ ReedTicks

/-- The chain master: elections, STATE and REPORT. -/
def Obligations.ChainMaster : Prop := ReedElections ∧ ReedStateAndReport

/-- Inklines, flush markers, alarms and waves on the chain. -/
def Obligations.ChainMessages : Prop := ReedInklines ∧ ReedAlarmsAndWaves

/-- The leaf's records, its Peat log and patrol scrub. -/
def Obligations.RecordsPeatAndScrub : Prop := PeatLog ∧ LeafRecorders ∧ PatrolScrub

/-- Configuration messages at a leaf. -/
def Obligations.LeafConfiguration : Prop := CopiesAreAcknowledged ∧ LeafLoading ∧ LeafOwnership

/-- The governor and the thermal limits of Polornaz. -/
def Obligations.GovernorAndThermal : Prop := Governor ∧ Thermal

/-- Power-up, power-down and resets of Polornaz. -/
def Obligations.PowerAndReset : Prop := PowerUp ∧ DeviceResets

/-- The links, the endpoint and the sideband of Polornaz. -/
def Obligations.LinksAndSideband : Prop := EndpointAndClock ∧ MeshAndPorts ∧ SidebandAndJtag ∧ SidebandSilent

/-- Snapshots, restores and the Peat store of Polornaz. -/
def Obligations.SnapshotsAndPeatStore : Prop := Snapshots ∧ PeatStoreRows

/-- Memory through BAR2. -/
def Obligations.MemoryThroughBar2 : Prop := MemoryWindow

/-- Rings and interrupt messages for the host. -/
def Obligations.HostRingsAndInterrupts : Prop := HostRings

/-- Cells and messages of leaves. -/
def Obligations.IngressOfCells : Prop := CellsArrive ∧ MessagesOfLeaves

/-- Records received, and liveness. -/
def Obligations.RecordsAndLiveness : Prop := RecordsReceived ∧ LivenessRows

/-- The Blotter of Polornaz. -/
def Obligations.BlotterInstances : Prop := BlotterRows ∧ HealthOfUnits ∧ VoteTakesLargestSet

/-- The mailbox: commits, order, and program messages. -/
def Obligations.MailboxAndPrograms : Prop := FrontOnly ∧ Commits ∧ ProgramMessages

/-- Models, groups, grants and notices. -/
def Obligations.ModelsAndNotices : Prop := ModelMessages ∧ Notices

/-- CONFIG messages at a job's home, and its times. -/
def Obligations.JobsAtTheirHome : Prop := PrepareMessages ∧ JobTimes

/-- The Control conversation of Polornaz. -/
def Obligations.ControlConversation : Prop := ConversationMessages

/-- Children, parents, chain masters and registration. -/
def Obligations.ParentsAndRegistration : Prop := WhoIsThere

/-- The two parts share nothing but the commands (what one sends reaches the other as a later command, assumption log 28): one of the leaf leaves
Polornaz as it is, and what it does to the leaf depends on the leaf alone; the same of a command of Polornaz, whose free values
besides come by the model's counter (assumption log 1). -/
def Obligations.TwoPartsAreApart : Prop :=
  ∀ (c : Instr) (s t : State), exec c s = .next t →
    (partOf c = .leaf → t.pz = s.pz ∧ ∀ s', s'.leaf = s.leaf → ∃ t', exec c s' = .next t' ∧ t'.leaf = t.leaf) ∧
    (partOf c = .pz → t.leaf = s.leaf ∧
      ∀ s', s'.pz = s.pz → s'.freeCtr = s.freeCtr → ∃ t', exec c s' = .next t' ∧ t'.pz = t.pz)

/-- Memory keeps its canonical form: addresses strictly rising, no listed byte equal to what an unlisted address reads as. -/
def Obligations.MemoryKeepsItsForm : Prop :=
  ∀ s t : State, Memory.wf s.pz.mem = true → step s = .next t → Memory.wf t.pz.mem = true

/-- What reset leaves (R56, R86, Tables 19.1 and 19.2): every register at its reset value, the others zero; no command waits and
memory lists nothing, so that it has its canonical form (what unwritten memory reads as is the model's choice, assumption log 7). -/
def Obligations.ResetState : Prop :=
  (∀ x ∈ leafResets, State.reset.leaf.reg x.1 = x.2) ∧
  (∀ r ∈ glRows, leafResets.all (fun x => x.1 != r.base) = true → State.reset.leaf.reg r.base = 0) ∧
  (∀ x ∈ pzResets, State.reset.pz.reg x.1 = x.2) ∧
  (∀ r ∈ pzRows, pzResets.all (fun x => x.1 != r.base) = true → State.reset.pz.reg r.base = 0) ∧
  State.reset.pending = [] ∧ Memory.wf State.reset.pz.mem = true ∧ State.reset.leaf.quill.win = none ∧
  State.reset.leaf.out = [] ∧ State.reset.pz.out = []

/-- Accesses without effect (R12, R13): one of another width than 32 bits, one that is not aligned, and one of an offset that no
register is assigned to answer zero when they read and change nothing when they write; no violation counts and no interrupt rises. -/
def Obligations.SilentAccesses : Prop :=
  ∀ (s : State) (p : Port) (addr : BitVec 26) (data : Word),
    (p.size ≠ 2 ∨ addr.toNat % 4 ≠ 0 ∨ glAssigned addr.toNat = false →
      exec (.registerWrite .leaf p addr data) s = .next s ∧
      ∀ i ∈ [Instr.splitValueLowRead .leaf p addr, .rcFieldRead .leaf p addr],
        exec i s = .next { s with leaf := { s.leaf with rdata := 0 } }) ∧
    (p.size ≠ 2 ∨ barOff addr % 4 ≠ 0 ∨ pzAssigned (barOff addr) = false →
      exec (.registerWrite .pz p addr data) s = .next s ∧
      ∀ i ∈ [Instr.splitValueLowRead .pz p addr, .rcFieldRead .pz p addr], ∃ t, exec i s = .next t ∧
        t.pz = { s.pz with rdata := 0 } ∧ t.leaf = s.leaf)

/-- Results of the scalar instructions (R246, Table 11.1): of three registers, with an immediate, and of order keys. -/
def Obligations.ScalarInstructions : Prop := ScalarRegisterResult ∧ ScalarImmediateResult ∧ KeyInstructionResult

/-- Stores: the bytes that change and those that do not, and the canonical form of memory. -/
def Obligations.StoreInstructions : Prop := StoreWritesItsBytesAlone ∧ StoreKeepsMemoryCanonical

/-- Branches, jumps, FENCE and END. -/
def Obligations.ControlInstructions : Prop := BranchGoesWhereItSays ∧ JumpLinkFenceAndEnd

/-- What faults at issue, and how a fault ends an activation. -/
def Obligations.FaultsOfActivations : Prop := IssueFaults ∧ FaultEndsActivation

/-- Reads of counter groups and of value ports by a channel. -/
def Obligations.CaptureReads : Prop := GroupReadInstructions ∧ PortReadTakesSample

/-- Frame fields, wave contributions and the local tree. -/
def Obligations.FieldsAndWave : Prop := FieldsKeepWhatIsWritten ∧ WaveAndLocalTree

/-- Vector results lane by lane, masks, and moves. -/
def Obligations.VectorInstructions : Prop := VectorLaneResult ∧ VectorCompareWritesMask ∧ VectorMoves

/-- Vector loads and stores, and reductions over lanes. -/
def Obligations.VectorMemoryAndReduction : Prop := VectorMemory ∧ VectorReduction

/-- Medians and quantile sketches. -/
def Obligations.OrderStatistics : Prop := MedianOfLanes ∧ SketchCountsAndRanks

/-- Moving averages and block reductions. -/
def Obligations.AveragesAndReductions : Prop := EwmaUpdatesLanes ∧ BlockReduction

/-- The stream instructions, and the launches, waits and sums of the tree ensembles. -/
def Obligations.StreamsAndTrees : Prop := StreamAccess ∧ PeerPushAndDrop ∧ LaunchWaitAndSum

/-- Triggers of station programs, their dispatch, and how activations end. -/
def Obligations.StationTriggersAndEvents : Prop := TriggersAndDispatch ∧ StationEvents

/-- PTP instances, time cells, stamps and pulses of Polornaz. -/
def Obligations.TimeOfPolornaz : Prop := PtpSends ∧ PtpReceives ∧ StampsAndPulses
end

