-- ==== Sys2Proof/Laws/Tables.lean ====
section
/-!
SUPPORT. Sys2Proof/Laws/Tables.lean: what the operations over sparse tables and memory do: a read after a write, and the
canonical form kept.
-/

namespace Sys2Proof.Machine

variable {α : Type}

/-! ## Reads after writes -/

theorem tblLookup_tblIns_same (t : Tbl α) (k : Nat) (v : α) : tblLookup (tblIns t k v) k = some v := by
  induction t with
  | nil => simp [tblIns, tblLookup]
  | cons p t ih =>
    obtain ⟨k', w⟩ := p
    unfold tblIns
    split
    · simp [tblLookup]
    · split
      · simp [tblLookup]
      · simp [tblLookup, *]

theorem tblLookup_tblIns_other (t : Tbl α) (k j : Nat) (v : α) (h : j ≠ k) :
    tblLookup (tblIns t k v) j = tblLookup t j := by
  induction t with
  | nil => simp [tblIns, tblLookup, h]
  | cons p t ih =>
    obtain ⟨k', w⟩ := p
    unfold tblIns
    split
    · simp [tblLookup, h]
    · split
      · next hk => subst hk; simp [tblLookup, h]
      · simp only [tblLookup]; split <;> simp_all

theorem tblLookup_tblDel_same (t : Tbl α) (k : Nat) : tblLookup (tblDel t k) k = none := by
  induction t with
  | nil => rfl
  | cons p t ih =>
    obtain ⟨k', w⟩ := p
    simp only [tblDel] at ih
    by_cases h : k' = k
    · simp [tblDel, h, ih]
    · simp [tblDel, h, tblLookup, ih, Ne.symm h]

theorem tblLookup_tblDel_other (t : Tbl α) (k j : Nat) (h : j ≠ k) : tblLookup (tblDel t k) j = tblLookup t j := by
  induction t with
  | nil => rfl
  | cons p t ih =>
    obtain ⟨k', w⟩ := p
    simp only [tblDel] at ih
    by_cases hk : k' = k
    · subst hk; simp [tblDel, tblLookup, h, ih]
    · by_cases hj : j = k'
      · subst hj; simp [tblDel, hk, tblLookup]
      · simp [tblDel, hk, tblLookup, hj, ih]

theorem tblPut_eq [DecidableEq α] (d : α) (t : Tbl α) (k : Nat) (v : α) :
    tblPut d t k v = if v = d then tblDel t k else tblIns t k v := by
  cases t <;> rfl

/-- A register or table entry reads as it was written. -/
theorem tblPut_read_same [DecidableEq α] (d : α) (t : Tbl α) (k : Nat) (v : α) :
    (tblLookup (tblPut d t k v) k).getD d = v := by
  rw [tblPut_eq]
  split
  · next h => simp [tblLookup_tblDel_same, h]
  · simp [tblLookup_tblIns_same]

/-- A write leaves every other key as it was. -/
theorem tblPut_read_other [DecidableEq α] (d : α) (t : Tbl α) (k j : Nat) (v : α) (h : j ≠ k) :
    tblLookup (tblPut d t k v) j = tblLookup t j := by
  rw [tblPut_eq]
  split
  · exact tblLookup_tblDel_other t k j h
  · exact tblLookup_tblIns_other t k j v h

@[simp] theorem tget_tput_same [Inhabited α] [DecidableEq α] (t : Tbl α) (k : Nat) (v : α) :
    tget (tput t k v) k = v := tblPut_read_same default t k v

theorem tget_tput_other [Inhabited α] [DecidableEq α] (t : Tbl α) (k j : Nat) (v : α) (h : j ≠ k) :
    tget (tput t k v) j = tget t j := by
  simp only [tget, tput, tblPut_read_other default t k j v h]

/-! ## The canonical form -/

/-- Every key of a table lies above `k`. -/
def Tbl.above (k : Nat) (t : Tbl α) : Prop := ∀ p ∈ t, k < p.1

theorem Tbl.wf_cons [DecidableEq α] (d : Nat → α) (p : Nat × α) (t : Tbl α) :
    Tbl.wf d (p :: t) = true ↔ Tbl.above p.1 t ∧ p.2 ≠ d p.1 ∧ Tbl.wf d t = true := by
  obtain ⟨k, v⟩ := p
  simp [Tbl.wf, Tbl.above, and_assoc]

theorem Tbl.above_tblIns (t : Tbl α) (j k : Nat) (v : α) (h : Tbl.above j t) (hk : j < k) :
    Tbl.above j (tblIns t k v) := by
  induction t with
  | nil => intro p hp; simp [tblIns] at hp; subst hp; exact hk
  | cons q t ih =>
    obtain ⟨k', w⟩ := q
    have hq : j < k' := h (k', w) (by simp)
    have ht : Tbl.above j t := fun p hp => h p (by simp [hp])
    intro p hp
    unfold tblIns at hp
    split at hp
    · rcases List.mem_cons.1 hp with rfl | hp
      · exact hk
      · exact h p hp
    · split at hp
      · rcases List.mem_cons.1 hp with rfl | hp
        · exact hk
        · exact ht p hp
      · rcases List.mem_cons.1 hp with rfl | hp
        · exact hq
        · exact ih ht p hp

theorem Tbl.above_trans (t : Tbl α) (j k : Nat) (h : Tbl.above k t) (hj : j ≤ k) : Tbl.above j t :=
  fun p hp => Nat.lt_of_le_of_lt hj (h p hp)

theorem Tbl.wf_tblIns [DecidableEq α] (d : Nat → α) (t : Tbl α) (k : Nat) (v : α) (h : Tbl.wf d t = true)
    (hv : v ≠ d k) : Tbl.wf d (tblIns t k v) = true := by
  induction t with
  | nil => simp [tblIns, Tbl.wf, hv]
  | cons q t ih =>
    obtain ⟨k', w⟩ := q
    obtain ⟨ha, hw, ht⟩ := (Tbl.wf_cons d (k', w) t).1 h
    unfold tblIns
    split
    · next hlt =>
      exact (Tbl.wf_cons d (k, v) _).2 ⟨fun p hp => by
        rcases List.mem_cons.1 hp with rfl | hp
        · exact hlt
        · exact Nat.lt_trans hlt (ha p hp), hv, h⟩
    · split
      · next he => subst he; exact (Tbl.wf_cons d (k, v) _).2 ⟨ha, hv, ht⟩
      · next hn he =>
        exact (Tbl.wf_cons d (k', w) _).2 ⟨Tbl.above_tblIns t k' k v ha (by simp only at ha; omega), hw, ih ht⟩

theorem Tbl.wf_filter [DecidableEq α] (d : Nat → α) (t : Tbl α) (f : Nat × α → Bool) (h : Tbl.wf d t = true) :
    Tbl.wf d (t.filter f) = true := by
  induction t with
  | nil => rfl
  | cons q t ih =>
    obtain ⟨ha, hw, ht⟩ := (Tbl.wf_cons d q t).1 h
    rw [List.filter_cons]
    split
    · exact (Tbl.wf_cons d q _).2 ⟨fun p hp => ha p (List.mem_filter.1 hp).1, hw, ih ht⟩
    · exact ih ht

/-- A write keeps the canonical form. -/
theorem Tbl.wf_tblPut [DecidableEq α] (d : Nat → α) (t : Tbl α) (k : Nat) (v : α) (h : Tbl.wf d t = true) :
    Tbl.wf d (tblPut (d k) t k v) = true := by
  rw [tblPut_eq]
  split
  · exact Tbl.wf_filter d t _ h
  · next hv => exact Tbl.wf_tblIns d t k v h hv

/-! ## Memory -/

/-- A byte written keeps memory canonical. -/
theorem Memory.wf_tput (m : Tbl Byte) (a : Nat) (b : Byte) (h : Memory.wf m = true) :
    Memory.wf (tput m a b) = true :=
  Tbl.wf_tblPut (fun _ => (0 : Byte)) m a b h

/-- Bytes put keep memory canonical. -/
theorem Memory.wf_memPut (ok : Nat → Bool) (m : Tbl Byte) (a : Nat) (bs : List Byte) (h : Memory.wf m = true) :
    Memory.wf (memPut ok m a bs) = true := by
  induction bs generalizing m a with
  | nil => exact h
  | cons b bs ih =>
    unfold memPut
    split
    · exact ih _ _ (Memory.wf_tput m a b h)
    · exact ih _ _ h

/-- A copy keeps memory canonical. -/
theorem Memory.wf_memCopy (m : Tbl Byte) (src dst n : Nat) (h : Memory.wf m = true) :
    Memory.wf (memCopy m src dst n) = true := by
  have hf : ∀ (ps : Tbl Byte) (t : Tbl Byte), Memory.wf t = true →
      Memory.wf (ps.foldl (fun t p => tput t (p.1 - src + dst) p.2) t) = true := by
    intro ps
    induction ps with
    | nil => exact fun _ h => h
    | cons p ps ih => exact fun t ht => ih _ (Memory.wf_tput t _ _ ht)
  exact hf _ _ (Tbl.wf_filter _ m _ h)

/-- A byte put outside the range leaves the byte at an address as it was. -/
theorem tget_memPut_other (ok : Nat → Bool) (m : Tbl Byte) (a x : Nat) (bs : List Byte)
    (h : x < a ∨ a + bs.length ≤ x) : tget (memPut ok m a bs) x = tget m x := by
  induction bs generalizing m a with
  | nil => rfl
  | cons b bs ih =>
    simp only [List.length_cons] at h
    unfold memPut
    rw [ih _ (a + 1) (by omega)]
    split
    · exact tget_tput_other m a x b (by omega)
    · rfl

end Sys2Proof.Machine
end

