-- ==== Sys2Proof/Laws/State.lean ====
section
/-!
SUPPORT. Sys2Proof/Laws/State.lean: what each elementary update of the state leaves as it was, one lemma per field, and how
what it changes reads.
-/

namespace Sys2Proof.Machine

/-! ## The two parts within the state -/

@[simp] theorem State.onLeaf_pz (g : Leaf → Leaf) (s : State) : (s.onLeaf g).pz = s.pz := rfl
@[simp] theorem State.onLeaf_pending (g : Leaf → Leaf) (s : State) : (s.onLeaf g).pending = s.pending := rfl
@[simp] theorem State.onLeaf_freeCtr (g : Leaf → Leaf) (s : State) : (s.onLeaf g).freeCtr = s.freeCtr := rfl
@[simp] theorem State.onLeaf_leaf (g : Leaf → Leaf) (s : State) : (s.onLeaf g).leaf = g s.leaf := rfl
@[simp] theorem State.onPz_leaf (g : Pz → Pz) (s : State) : (s.onPz g).leaf = s.leaf := rfl
@[simp] theorem State.onPz_pending (g : Pz → Pz) (s : State) : (s.onPz g).pending = s.pending := rfl
@[simp] theorem State.onPz_freeCtr (g : Pz → Pz) (s : State) : (s.onPz g).freeCtr = s.freeCtr := rfl
@[simp] theorem State.onPz_pz (g : Pz → Pz) (s : State) : (s.onPz g).pz = g s.pz := rfl

/-! ## The leaf -/

/-! ### `Leaf.setReg` (one register word) -/

@[simp] theorem Leaf.setReg_hard (l : Leaf) (o : Nat) (w : Word) : (l.setReg o w).hard = l.hard := rfl
@[simp] theorem Leaf.setReg_pins (l : Leaf) (o : Nat) (w : Word) : (l.setReg o w).pins = l.pins := rfl
@[simp] theorem Leaf.setReg_caps (l : Leaf) (o : Nat) (w : Word) : (l.setReg o w).caps = l.caps := rfl
@[simp] theorem Leaf.setReg_rdata (l : Leaf) (o : Nat) (w : Word) : (l.setReg o w).rdata = l.rdata := rfl
@[simp] theorem Leaf.setReg_cap (l : Leaf) (o : Nat) (w : Word) : (l.setReg o w).cap = l.cap := rfl
@[simp] theorem Leaf.setReg_quill (l : Leaf) (o : Nat) (w : Word) : (l.setReg o w).quill = l.quill := rfl
@[simp] theorem Leaf.setReg_time (l : Leaf) (o : Nat) (w : Word) : (l.setReg o w).time = l.time := rfl
@[simp] theorem Leaf.setReg_chain (l : Leaf) (o : Nat) (w : Word) : (l.setReg o w).chain = l.chain := rfl
@[simp] theorem Leaf.setReg_ul (l : Leaf) (o : Nat) (w : Word) : (l.setReg o w).ul = l.ul := rfl
@[simp] theorem Leaf.setReg_taps (l : Leaf) (o : Nat) (w : Word) : (l.setReg o w).taps = l.taps := rfl
@[simp] theorem Leaf.setReg_keys (l : Leaf) (o : Nat) (w : Word) : (l.setReg o w).keys = l.keys := rfl
@[simp] theorem Leaf.setReg_test (l : Leaf) (o : Nat) (w : Word) : (l.setReg o w).test = l.test := rfl
@[simp] theorem Leaf.setReg_hb (l : Leaf) (o : Nat) (w : Word) : (l.setReg o w).hb = l.hb := rfl
@[simp] theorem Leaf.setReg_irq (l : Leaf) (o : Nat) (w : Word) : (l.setReg o w).irq = l.irq := rfl
@[simp] theorem Leaf.setReg_iw (l : Leaf) (o : Nat) (w : Word) : (l.setReg o w).iw = l.iw := rfl
@[simp] theorem Leaf.setReg_peat (l : Leaf) (o : Nat) (w : Word) : (l.setReg o w).peat = l.peat := rfl
@[simp] theorem Leaf.setReg_ecc (l : Leaf) (o : Nat) (w : Word) : (l.setReg o w).ecc = l.ecc := rfl
@[simp] theorem Leaf.setReg_ctl (l : Leaf) (o : Nat) (w : Word) : (l.setReg o w).ctl = l.ctl := rfl
@[simp] theorem Leaf.setReg_ready (l : Leaf) (o : Nat) (w : Word) : (l.setReg o w).ready = l.ready := rfl
@[simp] theorem Leaf.setReg_out (l : Leaf) (o : Nat) (w : Word) : (l.setReg o w).out = l.out := rfl

/-! ### `Leaf.setFld` (one register field) -/

@[simp] theorem Leaf.setFld_hard (l : Leaf) (f : Fld) (v : Nat) : (l.setFld f v).hard = l.hard := rfl
@[simp] theorem Leaf.setFld_pins (l : Leaf) (f : Fld) (v : Nat) : (l.setFld f v).pins = l.pins := rfl
@[simp] theorem Leaf.setFld_caps (l : Leaf) (f : Fld) (v : Nat) : (l.setFld f v).caps = l.caps := rfl
@[simp] theorem Leaf.setFld_rdata (l : Leaf) (f : Fld) (v : Nat) : (l.setFld f v).rdata = l.rdata := rfl
@[simp] theorem Leaf.setFld_cap (l : Leaf) (f : Fld) (v : Nat) : (l.setFld f v).cap = l.cap := rfl
@[simp] theorem Leaf.setFld_quill (l : Leaf) (f : Fld) (v : Nat) : (l.setFld f v).quill = l.quill := rfl
@[simp] theorem Leaf.setFld_time (l : Leaf) (f : Fld) (v : Nat) : (l.setFld f v).time = l.time := rfl
@[simp] theorem Leaf.setFld_chain (l : Leaf) (f : Fld) (v : Nat) : (l.setFld f v).chain = l.chain := rfl
@[simp] theorem Leaf.setFld_ul (l : Leaf) (f : Fld) (v : Nat) : (l.setFld f v).ul = l.ul := rfl
@[simp] theorem Leaf.setFld_taps (l : Leaf) (f : Fld) (v : Nat) : (l.setFld f v).taps = l.taps := rfl
@[simp] theorem Leaf.setFld_keys (l : Leaf) (f : Fld) (v : Nat) : (l.setFld f v).keys = l.keys := rfl
@[simp] theorem Leaf.setFld_test (l : Leaf) (f : Fld) (v : Nat) : (l.setFld f v).test = l.test := rfl
@[simp] theorem Leaf.setFld_hb (l : Leaf) (f : Fld) (v : Nat) : (l.setFld f v).hb = l.hb := rfl
@[simp] theorem Leaf.setFld_irq (l : Leaf) (f : Fld) (v : Nat) : (l.setFld f v).irq = l.irq := rfl
@[simp] theorem Leaf.setFld_iw (l : Leaf) (f : Fld) (v : Nat) : (l.setFld f v).iw = l.iw := rfl
@[simp] theorem Leaf.setFld_peat (l : Leaf) (f : Fld) (v : Nat) : (l.setFld f v).peat = l.peat := rfl
@[simp] theorem Leaf.setFld_ecc (l : Leaf) (f : Fld) (v : Nat) : (l.setFld f v).ecc = l.ecc := rfl
@[simp] theorem Leaf.setFld_ctl (l : Leaf) (f : Fld) (v : Nat) : (l.setFld f v).ctl = l.ctl := rfl
@[simp] theorem Leaf.setFld_ready (l : Leaf) (f : Fld) (v : Nat) : (l.setFld f v).ready = l.ready := rfl
@[simp] theorem Leaf.setFld_out (l : Leaf) (f : Fld) (v : Nat) : (l.setFld f v).out = l.out := rfl

/-! ### `Leaf.addSat` (a saturating counter) -/

@[simp] theorem Leaf.addSat_hard (l : Leaf) (f : Fld) (n : Nat) : (l.addSat f n).hard = l.hard := rfl
@[simp] theorem Leaf.addSat_pins (l : Leaf) (f : Fld) (n : Nat) : (l.addSat f n).pins = l.pins := rfl
@[simp] theorem Leaf.addSat_caps (l : Leaf) (f : Fld) (n : Nat) : (l.addSat f n).caps = l.caps := rfl
@[simp] theorem Leaf.addSat_rdata (l : Leaf) (f : Fld) (n : Nat) : (l.addSat f n).rdata = l.rdata := rfl
@[simp] theorem Leaf.addSat_cap (l : Leaf) (f : Fld) (n : Nat) : (l.addSat f n).cap = l.cap := rfl
@[simp] theorem Leaf.addSat_quill (l : Leaf) (f : Fld) (n : Nat) : (l.addSat f n).quill = l.quill := rfl
@[simp] theorem Leaf.addSat_time (l : Leaf) (f : Fld) (n : Nat) : (l.addSat f n).time = l.time := rfl
@[simp] theorem Leaf.addSat_chain (l : Leaf) (f : Fld) (n : Nat) : (l.addSat f n).chain = l.chain := rfl
@[simp] theorem Leaf.addSat_ul (l : Leaf) (f : Fld) (n : Nat) : (l.addSat f n).ul = l.ul := rfl
@[simp] theorem Leaf.addSat_taps (l : Leaf) (f : Fld) (n : Nat) : (l.addSat f n).taps = l.taps := rfl
@[simp] theorem Leaf.addSat_keys (l : Leaf) (f : Fld) (n : Nat) : (l.addSat f n).keys = l.keys := rfl
@[simp] theorem Leaf.addSat_test (l : Leaf) (f : Fld) (n : Nat) : (l.addSat f n).test = l.test := rfl
@[simp] theorem Leaf.addSat_hb (l : Leaf) (f : Fld) (n : Nat) : (l.addSat f n).hb = l.hb := rfl
@[simp] theorem Leaf.addSat_irq (l : Leaf) (f : Fld) (n : Nat) : (l.addSat f n).irq = l.irq := rfl
@[simp] theorem Leaf.addSat_iw (l : Leaf) (f : Fld) (n : Nat) : (l.addSat f n).iw = l.iw := rfl
@[simp] theorem Leaf.addSat_peat (l : Leaf) (f : Fld) (n : Nat) : (l.addSat f n).peat = l.peat := rfl
@[simp] theorem Leaf.addSat_ecc (l : Leaf) (f : Fld) (n : Nat) : (l.addSat f n).ecc = l.ecc := rfl
@[simp] theorem Leaf.addSat_ctl (l : Leaf) (f : Fld) (n : Nat) : (l.addSat f n).ctl = l.ctl := rfl
@[simp] theorem Leaf.addSat_ready (l : Leaf) (f : Fld) (n : Nat) : (l.addSat f n).ready = l.ready := rfl
@[simp] theorem Leaf.addSat_out (l : Leaf) (f : Fld) (n : Nat) : (l.addSat f n).out = l.out := rfl

/-! ### `Leaf.addMod` (a wrapping counter) -/

@[simp] theorem Leaf.addMod_hard (l : Leaf) (f : Fld) (n : Nat) : (l.addMod f n).hard = l.hard := rfl
@[simp] theorem Leaf.addMod_pins (l : Leaf) (f : Fld) (n : Nat) : (l.addMod f n).pins = l.pins := rfl
@[simp] theorem Leaf.addMod_caps (l : Leaf) (f : Fld) (n : Nat) : (l.addMod f n).caps = l.caps := rfl
@[simp] theorem Leaf.addMod_rdata (l : Leaf) (f : Fld) (n : Nat) : (l.addMod f n).rdata = l.rdata := rfl
@[simp] theorem Leaf.addMod_cap (l : Leaf) (f : Fld) (n : Nat) : (l.addMod f n).cap = l.cap := rfl
@[simp] theorem Leaf.addMod_quill (l : Leaf) (f : Fld) (n : Nat) : (l.addMod f n).quill = l.quill := rfl
@[simp] theorem Leaf.addMod_time (l : Leaf) (f : Fld) (n : Nat) : (l.addMod f n).time = l.time := rfl
@[simp] theorem Leaf.addMod_chain (l : Leaf) (f : Fld) (n : Nat) : (l.addMod f n).chain = l.chain := rfl
@[simp] theorem Leaf.addMod_ul (l : Leaf) (f : Fld) (n : Nat) : (l.addMod f n).ul = l.ul := rfl
@[simp] theorem Leaf.addMod_taps (l : Leaf) (f : Fld) (n : Nat) : (l.addMod f n).taps = l.taps := rfl
@[simp] theorem Leaf.addMod_keys (l : Leaf) (f : Fld) (n : Nat) : (l.addMod f n).keys = l.keys := rfl
@[simp] theorem Leaf.addMod_test (l : Leaf) (f : Fld) (n : Nat) : (l.addMod f n).test = l.test := rfl
@[simp] theorem Leaf.addMod_hb (l : Leaf) (f : Fld) (n : Nat) : (l.addMod f n).hb = l.hb := rfl
@[simp] theorem Leaf.addMod_irq (l : Leaf) (f : Fld) (n : Nat) : (l.addMod f n).irq = l.irq := rfl
@[simp] theorem Leaf.addMod_iw (l : Leaf) (f : Fld) (n : Nat) : (l.addMod f n).iw = l.iw := rfl
@[simp] theorem Leaf.addMod_peat (l : Leaf) (f : Fld) (n : Nat) : (l.addMod f n).peat = l.peat := rfl
@[simp] theorem Leaf.addMod_ecc (l : Leaf) (f : Fld) (n : Nat) : (l.addMod f n).ecc = l.ecc := rfl
@[simp] theorem Leaf.addMod_ctl (l : Leaf) (f : Fld) (n : Nat) : (l.addMod f n).ctl = l.ctl := rfl
@[simp] theorem Leaf.addMod_ready (l : Leaf) (f : Fld) (n : Nat) : (l.addMod f n).ready = l.ready := rfl
@[simp] theorem Leaf.addMod_out (l : Leaf) (f : Fld) (n : Nat) : (l.addMod f n).out = l.out := rfl

/-! ### `Leaf.violate` (R17) -/

@[simp] theorem Leaf.violate_hard (b : Nat) (l : Leaf) : (l.violate b).hard = l.hard := rfl
@[simp] theorem Leaf.violate_pins (b : Nat) (l : Leaf) : (l.violate b).pins = l.pins := rfl
@[simp] theorem Leaf.violate_caps (b : Nat) (l : Leaf) : (l.violate b).caps = l.caps := rfl
@[simp] theorem Leaf.violate_rdata (b : Nat) (l : Leaf) : (l.violate b).rdata = l.rdata := rfl
@[simp] theorem Leaf.violate_cap (b : Nat) (l : Leaf) : (l.violate b).cap = l.cap := rfl
@[simp] theorem Leaf.violate_quill (b : Nat) (l : Leaf) : (l.violate b).quill = l.quill := rfl
@[simp] theorem Leaf.violate_time (b : Nat) (l : Leaf) : (l.violate b).time = l.time := rfl
@[simp] theorem Leaf.violate_chain (b : Nat) (l : Leaf) : (l.violate b).chain = l.chain := rfl
@[simp] theorem Leaf.violate_ul (b : Nat) (l : Leaf) : (l.violate b).ul = l.ul := rfl
@[simp] theorem Leaf.violate_taps (b : Nat) (l : Leaf) : (l.violate b).taps = l.taps := rfl
@[simp] theorem Leaf.violate_keys (b : Nat) (l : Leaf) : (l.violate b).keys = l.keys := rfl
@[simp] theorem Leaf.violate_test (b : Nat) (l : Leaf) : (l.violate b).test = l.test := rfl
@[simp] theorem Leaf.violate_hb (b : Nat) (l : Leaf) : (l.violate b).hb = l.hb := rfl
@[simp] theorem Leaf.violate_irq (b : Nat) (l : Leaf) : (l.violate b).irq = l.irq := rfl
@[simp] theorem Leaf.violate_iw (b : Nat) (l : Leaf) : (l.violate b).iw = l.iw := rfl
@[simp] theorem Leaf.violate_peat (b : Nat) (l : Leaf) : (l.violate b).peat = l.peat := rfl
@[simp] theorem Leaf.violate_ecc (b : Nat) (l : Leaf) : (l.violate b).ecc = l.ecc := rfl
@[simp] theorem Leaf.violate_ctl (b : Nat) (l : Leaf) : (l.violate b).ctl = l.ctl := rfl
@[simp] theorem Leaf.violate_ready (b : Nat) (l : Leaf) : (l.violate b).ready = l.ready := rfl
@[simp] theorem Leaf.violate_out (b : Nat) (l : Leaf) : (l.violate b).out = l.out := rfl

/-! ### `Leaf.setPort` (one Reed port) -/

@[simp] theorem Leaf.setPort_hard (l : Leaf) (p : Bool) (r : ReedPort) : (l.setPort p r).hard = l.hard := rfl
@[simp] theorem Leaf.setPort_pins (l : Leaf) (p : Bool) (r : ReedPort) : (l.setPort p r).pins = l.pins := rfl
@[simp] theorem Leaf.setPort_regs (l : Leaf) (p : Bool) (r : ReedPort) : (l.setPort p r).regs = l.regs := rfl
@[simp] theorem Leaf.setPort_caps (l : Leaf) (p : Bool) (r : ReedPort) : (l.setPort p r).caps = l.caps := rfl
@[simp] theorem Leaf.setPort_rdata (l : Leaf) (p : Bool) (r : ReedPort) : (l.setPort p r).rdata = l.rdata := rfl
@[simp] theorem Leaf.setPort_cap (l : Leaf) (p : Bool) (r : ReedPort) : (l.setPort p r).cap = l.cap := rfl
@[simp] theorem Leaf.setPort_quill (l : Leaf) (p : Bool) (r : ReedPort) : (l.setPort p r).quill = l.quill := rfl
@[simp] theorem Leaf.setPort_time (l : Leaf) (p : Bool) (r : ReedPort) : (l.setPort p r).time = l.time := rfl
@[simp] theorem Leaf.setPort_ul (l : Leaf) (p : Bool) (r : ReedPort) : (l.setPort p r).ul = l.ul := rfl
@[simp] theorem Leaf.setPort_taps (l : Leaf) (p : Bool) (r : ReedPort) : (l.setPort p r).taps = l.taps := rfl
@[simp] theorem Leaf.setPort_keys (l : Leaf) (p : Bool) (r : ReedPort) : (l.setPort p r).keys = l.keys := rfl
@[simp] theorem Leaf.setPort_test (l : Leaf) (p : Bool) (r : ReedPort) : (l.setPort p r).test = l.test := rfl
@[simp] theorem Leaf.setPort_hb (l : Leaf) (p : Bool) (r : ReedPort) : (l.setPort p r).hb = l.hb := rfl
@[simp] theorem Leaf.setPort_irq (l : Leaf) (p : Bool) (r : ReedPort) : (l.setPort p r).irq = l.irq := rfl
@[simp] theorem Leaf.setPort_iw (l : Leaf) (p : Bool) (r : ReedPort) : (l.setPort p r).iw = l.iw := rfl
@[simp] theorem Leaf.setPort_peat (l : Leaf) (p : Bool) (r : ReedPort) : (l.setPort p r).peat = l.peat := rfl
@[simp] theorem Leaf.setPort_ecc (l : Leaf) (p : Bool) (r : ReedPort) : (l.setPort p r).ecc = l.ecc := rfl
@[simp] theorem Leaf.setPort_ctl (l : Leaf) (p : Bool) (r : ReedPort) : (l.setPort p r).ctl = l.ctl := rfl
@[simp] theorem Leaf.setPort_ready (l : Leaf) (p : Bool) (r : ReedPort) : (l.setPort p r).ready = l.ready := rfl
@[simp] theorem Leaf.setPort_out (l : Leaf) (p : Bool) (r : ReedPort) : (l.setPort p r).out = l.out := rfl

/-! ## Polornaz -/

/-! ### `Pz.setReg` (one register word) -/

@[simp] theorem Pz.setReg_caps (z : Pz) (o : Nat) (w : Word) : (z.setReg o w).caps = z.caps := rfl
@[simp] theorem Pz.setReg_rdata (z : Pz) (o : Nat) (w : Word) : (z.setReg o w).rdata = z.rdata := rfl
@[simp] theorem Pz.setReg_b2data (z : Pz) (o : Nat) (w : Word) : (z.setReg o w).b2data = z.b2data := rfl
@[simp] theorem Pz.setReg_pins (z : Pz) (o : Nat) (w : Word) : (z.setReg o w).pins = z.pins := rfl
@[simp] theorem Pz.setReg_i3c (z : Pz) (o : Nat) (w : Word) : (z.setReg o w).i3c = z.i3c := rfl
@[simp] theorem Pz.setReg_time (z : Pz) (o : Nat) (w : Word) : (z.setReg o w).time = z.time := rfl
@[simp] theorem Pz.setReg_mem (z : Pz) (o : Nat) (w : Word) : (z.setReg o w).mem = z.mem := rfl
@[simp] theorem Pz.setReg_routes (z : Pz) (o : Nat) (w : Word) : (z.setReg o w).routes = z.routes := rfl
@[simp] theorem Pz.setReg_ing (z : Pz) (o : Nat) (w : Word) : (z.setReg o w).ing = z.ing := rfl
@[simp] theorem Pz.setReg_alarmQ (z : Pz) (o : Nat) (w : Word) : (z.setReg o w).alarmQ = z.alarmQ := rfl
@[simp] theorem Pz.setReg_alPhase (z : Pz) (o : Nat) (w : Word) : (z.setReg o w).alPhase = z.alPhase := rfl
@[simp] theorem Pz.setReg_recQ (z : Pz) (o : Nat) (w : Word) : (z.setReg o w).recQ = z.recQ := rfl
@[simp] theorem Pz.setReg_recPhase (z : Pz) (o : Nat) (w : Word) : (z.setReg o w).recPhase = z.recPhase := rfl
@[simp] theorem Pz.setReg_msixDue (z : Pz) (o : Nat) (w : Word) : (z.setReg o w).msixDue = z.msixDue := rfl
@[simp] theorem Pz.setReg_msixAt (z : Pz) (o : Nat) (w : Word) : (z.setReg o w).msixAt = z.msixAt := rfl
@[simp] theorem Pz.setReg_mb (z : Pz) (o : Nat) (w : Word) : (z.setReg o w).mb = z.mb := rfl
@[simp] theorem Pz.setReg_slots (z : Pz) (o : Nat) (w : Word) : (z.setReg o w).slots = z.slots := rfl
@[simp] theorem Pz.setReg_ctxs (z : Pz) (o : Nat) (w : Word) : (z.setReg o w).ctxs = z.ctxs := rfl
@[simp] theorem Pz.setReg_models (z : Pz) (o : Nat) (w : Word) : (z.setReg o w).models = z.models := rfl
@[simp] theorem Pz.setReg_launches (z : Pz) (o : Nat) (w : Word) : (z.setReg o w).launches = z.launches := rfl
@[simp] theorem Pz.setReg_blot (z : Pz) (o : Nat) (w : Word) : (z.setReg o w).blot = z.blot := rfl
@[simp] theorem Pz.setReg_ctl (z : Pz) (o : Nat) (w : Word) : (z.setReg o w).ctl = z.ctl := rfl
@[simp] theorem Pz.setReg_iw (z : Pz) (o : Nat) (w : Word) : (z.setReg o w).iw = z.iw := rfl
@[simp] theorem Pz.setReg_peat (z : Pz) (o : Nat) (w : Word) : (z.setReg o w).peat = z.peat := rfl
@[simp] theorem Pz.setReg_snap (z : Pz) (o : Nat) (w : Word) : (z.setReg o w).snap = z.snap := rfl
@[simp] theorem Pz.setReg_hl (z : Pz) (o : Nat) (w : Word) : (z.setReg o w).hl = z.hl := rfl
@[simp] theorem Pz.setReg_out (z : Pz) (o : Nat) (w : Word) : (z.setReg o w).out = z.out := rfl

/-! ### `Pz.setFld` (one register field) -/

@[simp] theorem Pz.setFld_caps (z : Pz) (f : Fld) (v : Nat) : (z.setFld f v).caps = z.caps := rfl
@[simp] theorem Pz.setFld_rdata (z : Pz) (f : Fld) (v : Nat) : (z.setFld f v).rdata = z.rdata := rfl
@[simp] theorem Pz.setFld_b2data (z : Pz) (f : Fld) (v : Nat) : (z.setFld f v).b2data = z.b2data := rfl
@[simp] theorem Pz.setFld_pins (z : Pz) (f : Fld) (v : Nat) : (z.setFld f v).pins = z.pins := rfl
@[simp] theorem Pz.setFld_i3c (z : Pz) (f : Fld) (v : Nat) : (z.setFld f v).i3c = z.i3c := rfl
@[simp] theorem Pz.setFld_time (z : Pz) (f : Fld) (v : Nat) : (z.setFld f v).time = z.time := rfl
@[simp] theorem Pz.setFld_mem (z : Pz) (f : Fld) (v : Nat) : (z.setFld f v).mem = z.mem := rfl
@[simp] theorem Pz.setFld_routes (z : Pz) (f : Fld) (v : Nat) : (z.setFld f v).routes = z.routes := rfl
@[simp] theorem Pz.setFld_ing (z : Pz) (f : Fld) (v : Nat) : (z.setFld f v).ing = z.ing := rfl
@[simp] theorem Pz.setFld_alarmQ (z : Pz) (f : Fld) (v : Nat) : (z.setFld f v).alarmQ = z.alarmQ := rfl
@[simp] theorem Pz.setFld_alPhase (z : Pz) (f : Fld) (v : Nat) : (z.setFld f v).alPhase = z.alPhase := rfl
@[simp] theorem Pz.setFld_recQ (z : Pz) (f : Fld) (v : Nat) : (z.setFld f v).recQ = z.recQ := rfl
@[simp] theorem Pz.setFld_recPhase (z : Pz) (f : Fld) (v : Nat) : (z.setFld f v).recPhase = z.recPhase := rfl
@[simp] theorem Pz.setFld_msixDue (z : Pz) (f : Fld) (v : Nat) : (z.setFld f v).msixDue = z.msixDue := rfl
@[simp] theorem Pz.setFld_msixAt (z : Pz) (f : Fld) (v : Nat) : (z.setFld f v).msixAt = z.msixAt := rfl
@[simp] theorem Pz.setFld_mb (z : Pz) (f : Fld) (v : Nat) : (z.setFld f v).mb = z.mb := rfl
@[simp] theorem Pz.setFld_slots (z : Pz) (f : Fld) (v : Nat) : (z.setFld f v).slots = z.slots := rfl
@[simp] theorem Pz.setFld_ctxs (z : Pz) (f : Fld) (v : Nat) : (z.setFld f v).ctxs = z.ctxs := rfl
@[simp] theorem Pz.setFld_models (z : Pz) (f : Fld) (v : Nat) : (z.setFld f v).models = z.models := rfl
@[simp] theorem Pz.setFld_launches (z : Pz) (f : Fld) (v : Nat) : (z.setFld f v).launches = z.launches := rfl
@[simp] theorem Pz.setFld_blot (z : Pz) (f : Fld) (v : Nat) : (z.setFld f v).blot = z.blot := rfl
@[simp] theorem Pz.setFld_ctl (z : Pz) (f : Fld) (v : Nat) : (z.setFld f v).ctl = z.ctl := rfl
@[simp] theorem Pz.setFld_iw (z : Pz) (f : Fld) (v : Nat) : (z.setFld f v).iw = z.iw := rfl
@[simp] theorem Pz.setFld_peat (z : Pz) (f : Fld) (v : Nat) : (z.setFld f v).peat = z.peat := rfl
@[simp] theorem Pz.setFld_snap (z : Pz) (f : Fld) (v : Nat) : (z.setFld f v).snap = z.snap := rfl
@[simp] theorem Pz.setFld_hl (z : Pz) (f : Fld) (v : Nat) : (z.setFld f v).hl = z.hl := rfl
@[simp] theorem Pz.setFld_out (z : Pz) (f : Fld) (v : Nat) : (z.setFld f v).out = z.out := rfl

/-! ### `Pz.addSat` (a saturating counter) -/

@[simp] theorem Pz.addSat_caps (z : Pz) (f : Fld) (n : Nat) : (z.addSat f n).caps = z.caps := rfl
@[simp] theorem Pz.addSat_rdata (z : Pz) (f : Fld) (n : Nat) : (z.addSat f n).rdata = z.rdata := rfl
@[simp] theorem Pz.addSat_b2data (z : Pz) (f : Fld) (n : Nat) : (z.addSat f n).b2data = z.b2data := rfl
@[simp] theorem Pz.addSat_pins (z : Pz) (f : Fld) (n : Nat) : (z.addSat f n).pins = z.pins := rfl
@[simp] theorem Pz.addSat_i3c (z : Pz) (f : Fld) (n : Nat) : (z.addSat f n).i3c = z.i3c := rfl
@[simp] theorem Pz.addSat_time (z : Pz) (f : Fld) (n : Nat) : (z.addSat f n).time = z.time := rfl
@[simp] theorem Pz.addSat_mem (z : Pz) (f : Fld) (n : Nat) : (z.addSat f n).mem = z.mem := rfl
@[simp] theorem Pz.addSat_routes (z : Pz) (f : Fld) (n : Nat) : (z.addSat f n).routes = z.routes := rfl
@[simp] theorem Pz.addSat_ing (z : Pz) (f : Fld) (n : Nat) : (z.addSat f n).ing = z.ing := rfl
@[simp] theorem Pz.addSat_alarmQ (z : Pz) (f : Fld) (n : Nat) : (z.addSat f n).alarmQ = z.alarmQ := rfl
@[simp] theorem Pz.addSat_alPhase (z : Pz) (f : Fld) (n : Nat) : (z.addSat f n).alPhase = z.alPhase := rfl
@[simp] theorem Pz.addSat_recQ (z : Pz) (f : Fld) (n : Nat) : (z.addSat f n).recQ = z.recQ := rfl
@[simp] theorem Pz.addSat_recPhase (z : Pz) (f : Fld) (n : Nat) : (z.addSat f n).recPhase = z.recPhase := rfl
@[simp] theorem Pz.addSat_msixDue (z : Pz) (f : Fld) (n : Nat) : (z.addSat f n).msixDue = z.msixDue := rfl
@[simp] theorem Pz.addSat_msixAt (z : Pz) (f : Fld) (n : Nat) : (z.addSat f n).msixAt = z.msixAt := rfl
@[simp] theorem Pz.addSat_mb (z : Pz) (f : Fld) (n : Nat) : (z.addSat f n).mb = z.mb := rfl
@[simp] theorem Pz.addSat_slots (z : Pz) (f : Fld) (n : Nat) : (z.addSat f n).slots = z.slots := rfl
@[simp] theorem Pz.addSat_ctxs (z : Pz) (f : Fld) (n : Nat) : (z.addSat f n).ctxs = z.ctxs := rfl
@[simp] theorem Pz.addSat_models (z : Pz) (f : Fld) (n : Nat) : (z.addSat f n).models = z.models := rfl
@[simp] theorem Pz.addSat_launches (z : Pz) (f : Fld) (n : Nat) : (z.addSat f n).launches = z.launches := rfl
@[simp] theorem Pz.addSat_blot (z : Pz) (f : Fld) (n : Nat) : (z.addSat f n).blot = z.blot := rfl
@[simp] theorem Pz.addSat_ctl (z : Pz) (f : Fld) (n : Nat) : (z.addSat f n).ctl = z.ctl := rfl
@[simp] theorem Pz.addSat_iw (z : Pz) (f : Fld) (n : Nat) : (z.addSat f n).iw = z.iw := rfl
@[simp] theorem Pz.addSat_peat (z : Pz) (f : Fld) (n : Nat) : (z.addSat f n).peat = z.peat := rfl
@[simp] theorem Pz.addSat_snap (z : Pz) (f : Fld) (n : Nat) : (z.addSat f n).snap = z.snap := rfl
@[simp] theorem Pz.addSat_hl (z : Pz) (f : Fld) (n : Nat) : (z.addSat f n).hl = z.hl := rfl
@[simp] theorem Pz.addSat_out (z : Pz) (f : Fld) (n : Nat) : (z.addSat f n).out = z.out := rfl

/-! ### `Pz.addMod` (a wrapping counter) -/

@[simp] theorem Pz.addMod_caps (z : Pz) (f : Fld) (n : Nat) : (z.addMod f n).caps = z.caps := rfl
@[simp] theorem Pz.addMod_rdata (z : Pz) (f : Fld) (n : Nat) : (z.addMod f n).rdata = z.rdata := rfl
@[simp] theorem Pz.addMod_b2data (z : Pz) (f : Fld) (n : Nat) : (z.addMod f n).b2data = z.b2data := rfl
@[simp] theorem Pz.addMod_pins (z : Pz) (f : Fld) (n : Nat) : (z.addMod f n).pins = z.pins := rfl
@[simp] theorem Pz.addMod_i3c (z : Pz) (f : Fld) (n : Nat) : (z.addMod f n).i3c = z.i3c := rfl
@[simp] theorem Pz.addMod_time (z : Pz) (f : Fld) (n : Nat) : (z.addMod f n).time = z.time := rfl
@[simp] theorem Pz.addMod_mem (z : Pz) (f : Fld) (n : Nat) : (z.addMod f n).mem = z.mem := rfl
@[simp] theorem Pz.addMod_routes (z : Pz) (f : Fld) (n : Nat) : (z.addMod f n).routes = z.routes := rfl
@[simp] theorem Pz.addMod_ing (z : Pz) (f : Fld) (n : Nat) : (z.addMod f n).ing = z.ing := rfl
@[simp] theorem Pz.addMod_alarmQ (z : Pz) (f : Fld) (n : Nat) : (z.addMod f n).alarmQ = z.alarmQ := rfl
@[simp] theorem Pz.addMod_alPhase (z : Pz) (f : Fld) (n : Nat) : (z.addMod f n).alPhase = z.alPhase := rfl
@[simp] theorem Pz.addMod_recQ (z : Pz) (f : Fld) (n : Nat) : (z.addMod f n).recQ = z.recQ := rfl
@[simp] theorem Pz.addMod_recPhase (z : Pz) (f : Fld) (n : Nat) : (z.addMod f n).recPhase = z.recPhase := rfl
@[simp] theorem Pz.addMod_msixDue (z : Pz) (f : Fld) (n : Nat) : (z.addMod f n).msixDue = z.msixDue := rfl
@[simp] theorem Pz.addMod_msixAt (z : Pz) (f : Fld) (n : Nat) : (z.addMod f n).msixAt = z.msixAt := rfl
@[simp] theorem Pz.addMod_mb (z : Pz) (f : Fld) (n : Nat) : (z.addMod f n).mb = z.mb := rfl
@[simp] theorem Pz.addMod_slots (z : Pz) (f : Fld) (n : Nat) : (z.addMod f n).slots = z.slots := rfl
@[simp] theorem Pz.addMod_ctxs (z : Pz) (f : Fld) (n : Nat) : (z.addMod f n).ctxs = z.ctxs := rfl
@[simp] theorem Pz.addMod_models (z : Pz) (f : Fld) (n : Nat) : (z.addMod f n).models = z.models := rfl
@[simp] theorem Pz.addMod_launches (z : Pz) (f : Fld) (n : Nat) : (z.addMod f n).launches = z.launches := rfl
@[simp] theorem Pz.addMod_blot (z : Pz) (f : Fld) (n : Nat) : (z.addMod f n).blot = z.blot := rfl
@[simp] theorem Pz.addMod_ctl (z : Pz) (f : Fld) (n : Nat) : (z.addMod f n).ctl = z.ctl := rfl
@[simp] theorem Pz.addMod_iw (z : Pz) (f : Fld) (n : Nat) : (z.addMod f n).iw = z.iw := rfl
@[simp] theorem Pz.addMod_peat (z : Pz) (f : Fld) (n : Nat) : (z.addMod f n).peat = z.peat := rfl
@[simp] theorem Pz.addMod_snap (z : Pz) (f : Fld) (n : Nat) : (z.addMod f n).snap = z.snap := rfl
@[simp] theorem Pz.addMod_hl (z : Pz) (f : Fld) (n : Nat) : (z.addMod f n).hl = z.hl := rfl
@[simp] theorem Pz.addMod_out (z : Pz) (f : Fld) (n : Nat) : (z.addMod f n).out = z.out := rfl

/-! ### `Pz.setCtx` (one context) -/

@[simp] theorem Pz.setCtx_regs (st c : Nat) (x : Option Ctx) (z : Pz) : (z.setCtx st c x).regs = z.regs := rfl
@[simp] theorem Pz.setCtx_caps (st c : Nat) (x : Option Ctx) (z : Pz) : (z.setCtx st c x).caps = z.caps := rfl
@[simp] theorem Pz.setCtx_rdata (st c : Nat) (x : Option Ctx) (z : Pz) : (z.setCtx st c x).rdata = z.rdata := rfl
@[simp] theorem Pz.setCtx_b2data (st c : Nat) (x : Option Ctx) (z : Pz) : (z.setCtx st c x).b2data = z.b2data := rfl
@[simp] theorem Pz.setCtx_pins (st c : Nat) (x : Option Ctx) (z : Pz) : (z.setCtx st c x).pins = z.pins := rfl
@[simp] theorem Pz.setCtx_i3c (st c : Nat) (x : Option Ctx) (z : Pz) : (z.setCtx st c x).i3c = z.i3c := rfl
@[simp] theorem Pz.setCtx_time (st c : Nat) (x : Option Ctx) (z : Pz) : (z.setCtx st c x).time = z.time := rfl
@[simp] theorem Pz.setCtx_mem (st c : Nat) (x : Option Ctx) (z : Pz) : (z.setCtx st c x).mem = z.mem := rfl
@[simp] theorem Pz.setCtx_routes (st c : Nat) (x : Option Ctx) (z : Pz) : (z.setCtx st c x).routes = z.routes := rfl
@[simp] theorem Pz.setCtx_ing (st c : Nat) (x : Option Ctx) (z : Pz) : (z.setCtx st c x).ing = z.ing := rfl
@[simp] theorem Pz.setCtx_alarmQ (st c : Nat) (x : Option Ctx) (z : Pz) : (z.setCtx st c x).alarmQ = z.alarmQ := rfl
@[simp] theorem Pz.setCtx_alPhase (st c : Nat) (x : Option Ctx) (z : Pz) : (z.setCtx st c x).alPhase = z.alPhase := rfl
@[simp] theorem Pz.setCtx_recQ (st c : Nat) (x : Option Ctx) (z : Pz) : (z.setCtx st c x).recQ = z.recQ := rfl
@[simp] theorem Pz.setCtx_recPhase (st c : Nat) (x : Option Ctx) (z : Pz) : (z.setCtx st c x).recPhase = z.recPhase := rfl
@[simp] theorem Pz.setCtx_msixDue (st c : Nat) (x : Option Ctx) (z : Pz) : (z.setCtx st c x).msixDue = z.msixDue := rfl
@[simp] theorem Pz.setCtx_msixAt (st c : Nat) (x : Option Ctx) (z : Pz) : (z.setCtx st c x).msixAt = z.msixAt := rfl
@[simp] theorem Pz.setCtx_mb (st c : Nat) (x : Option Ctx) (z : Pz) : (z.setCtx st c x).mb = z.mb := rfl
@[simp] theorem Pz.setCtx_slots (st c : Nat) (x : Option Ctx) (z : Pz) : (z.setCtx st c x).slots = z.slots := rfl
@[simp] theorem Pz.setCtx_models (st c : Nat) (x : Option Ctx) (z : Pz) : (z.setCtx st c x).models = z.models := rfl
@[simp] theorem Pz.setCtx_launches (st c : Nat) (x : Option Ctx) (z : Pz) : (z.setCtx st c x).launches = z.launches := rfl
@[simp] theorem Pz.setCtx_blot (st c : Nat) (x : Option Ctx) (z : Pz) : (z.setCtx st c x).blot = z.blot := rfl
@[simp] theorem Pz.setCtx_ctl (st c : Nat) (x : Option Ctx) (z : Pz) : (z.setCtx st c x).ctl = z.ctl := rfl
@[simp] theorem Pz.setCtx_iw (st c : Nat) (x : Option Ctx) (z : Pz) : (z.setCtx st c x).iw = z.iw := rfl
@[simp] theorem Pz.setCtx_peat (st c : Nat) (x : Option Ctx) (z : Pz) : (z.setCtx st c x).peat = z.peat := rfl
@[simp] theorem Pz.setCtx_snap (st c : Nat) (x : Option Ctx) (z : Pz) : (z.setCtx st c x).snap = z.snap := rfl
@[simp] theorem Pz.setCtx_hl (st c : Nat) (x : Option Ctx) (z : Pz) : (z.setCtx st c x).hl = z.hl := rfl
@[simp] theorem Pz.setCtx_out (st c : Nat) (x : Option Ctx) (z : Pz) : (z.setCtx st c x).out = z.out := rfl

/-! ### `Pz.setSlot` (one program slot) -/

@[simp] theorem Pz.setSlot_regs (st p : Nat) (g : PSlot → PSlot) (z : Pz) : (z.setSlot st p g).regs = z.regs := rfl
@[simp] theorem Pz.setSlot_caps (st p : Nat) (g : PSlot → PSlot) (z : Pz) : (z.setSlot st p g).caps = z.caps := rfl
@[simp] theorem Pz.setSlot_rdata (st p : Nat) (g : PSlot → PSlot) (z : Pz) : (z.setSlot st p g).rdata = z.rdata := rfl
@[simp] theorem Pz.setSlot_b2data (st p : Nat) (g : PSlot → PSlot) (z : Pz) : (z.setSlot st p g).b2data = z.b2data := rfl
@[simp] theorem Pz.setSlot_pins (st p : Nat) (g : PSlot → PSlot) (z : Pz) : (z.setSlot st p g).pins = z.pins := rfl
@[simp] theorem Pz.setSlot_i3c (st p : Nat) (g : PSlot → PSlot) (z : Pz) : (z.setSlot st p g).i3c = z.i3c := rfl
@[simp] theorem Pz.setSlot_time (st p : Nat) (g : PSlot → PSlot) (z : Pz) : (z.setSlot st p g).time = z.time := rfl
@[simp] theorem Pz.setSlot_mem (st p : Nat) (g : PSlot → PSlot) (z : Pz) : (z.setSlot st p g).mem = z.mem := rfl
@[simp] theorem Pz.setSlot_routes (st p : Nat) (g : PSlot → PSlot) (z : Pz) : (z.setSlot st p g).routes = z.routes := rfl
@[simp] theorem Pz.setSlot_ing (st p : Nat) (g : PSlot → PSlot) (z : Pz) : (z.setSlot st p g).ing = z.ing := rfl
@[simp] theorem Pz.setSlot_alarmQ (st p : Nat) (g : PSlot → PSlot) (z : Pz) : (z.setSlot st p g).alarmQ = z.alarmQ := rfl
@[simp] theorem Pz.setSlot_alPhase (st p : Nat) (g : PSlot → PSlot) (z : Pz) : (z.setSlot st p g).alPhase = z.alPhase := rfl
@[simp] theorem Pz.setSlot_recQ (st p : Nat) (g : PSlot → PSlot) (z : Pz) : (z.setSlot st p g).recQ = z.recQ := rfl
@[simp] theorem Pz.setSlot_recPhase (st p : Nat) (g : PSlot → PSlot) (z : Pz) : (z.setSlot st p g).recPhase = z.recPhase := rfl
@[simp] theorem Pz.setSlot_msixDue (st p : Nat) (g : PSlot → PSlot) (z : Pz) : (z.setSlot st p g).msixDue = z.msixDue := rfl
@[simp] theorem Pz.setSlot_msixAt (st p : Nat) (g : PSlot → PSlot) (z : Pz) : (z.setSlot st p g).msixAt = z.msixAt := rfl
@[simp] theorem Pz.setSlot_mb (st p : Nat) (g : PSlot → PSlot) (z : Pz) : (z.setSlot st p g).mb = z.mb := rfl
@[simp] theorem Pz.setSlot_ctxs (st p : Nat) (g : PSlot → PSlot) (z : Pz) : (z.setSlot st p g).ctxs = z.ctxs := rfl
@[simp] theorem Pz.setSlot_models (st p : Nat) (g : PSlot → PSlot) (z : Pz) : (z.setSlot st p g).models = z.models := rfl
@[simp] theorem Pz.setSlot_launches (st p : Nat) (g : PSlot → PSlot) (z : Pz) : (z.setSlot st p g).launches = z.launches := rfl
@[simp] theorem Pz.setSlot_blot (st p : Nat) (g : PSlot → PSlot) (z : Pz) : (z.setSlot st p g).blot = z.blot := rfl
@[simp] theorem Pz.setSlot_ctl (st p : Nat) (g : PSlot → PSlot) (z : Pz) : (z.setSlot st p g).ctl = z.ctl := rfl
@[simp] theorem Pz.setSlot_iw (st p : Nat) (g : PSlot → PSlot) (z : Pz) : (z.setSlot st p g).iw = z.iw := rfl
@[simp] theorem Pz.setSlot_peat (st p : Nat) (g : PSlot → PSlot) (z : Pz) : (z.setSlot st p g).peat = z.peat := rfl
@[simp] theorem Pz.setSlot_snap (st p : Nat) (g : PSlot → PSlot) (z : Pz) : (z.setSlot st p g).snap = z.snap := rfl
@[simp] theorem Pz.setSlot_hl (st p : Nat) (g : PSlot → PSlot) (z : Pz) : (z.setSlot st p g).hl = z.hl := rfl
@[simp] theorem Pz.setSlot_out (st p : Nat) (g : PSlot → PSlot) (z : Pz) : (z.setSlot st p g).out = z.out := rfl

/-! ### `Pz.setRoute` (one routing entry) -/

@[simp] theorem Pz.setRoute_regs (fleet : Word) (g : Route → Route) (z : Pz) : (z.setRoute fleet g).regs = z.regs := rfl
@[simp] theorem Pz.setRoute_caps (fleet : Word) (g : Route → Route) (z : Pz) : (z.setRoute fleet g).caps = z.caps := rfl
@[simp] theorem Pz.setRoute_rdata (fleet : Word) (g : Route → Route) (z : Pz) : (z.setRoute fleet g).rdata = z.rdata := rfl
@[simp] theorem Pz.setRoute_b2data (fleet : Word) (g : Route → Route) (z : Pz) : (z.setRoute fleet g).b2data = z.b2data := rfl
@[simp] theorem Pz.setRoute_pins (fleet : Word) (g : Route → Route) (z : Pz) : (z.setRoute fleet g).pins = z.pins := rfl
@[simp] theorem Pz.setRoute_i3c (fleet : Word) (g : Route → Route) (z : Pz) : (z.setRoute fleet g).i3c = z.i3c := rfl
@[simp] theorem Pz.setRoute_time (fleet : Word) (g : Route → Route) (z : Pz) : (z.setRoute fleet g).time = z.time := rfl
@[simp] theorem Pz.setRoute_mem (fleet : Word) (g : Route → Route) (z : Pz) : (z.setRoute fleet g).mem = z.mem := rfl
@[simp] theorem Pz.setRoute_ing (fleet : Word) (g : Route → Route) (z : Pz) : (z.setRoute fleet g).ing = z.ing := rfl
@[simp] theorem Pz.setRoute_alarmQ (fleet : Word) (g : Route → Route) (z : Pz) : (z.setRoute fleet g).alarmQ = z.alarmQ := rfl
@[simp] theorem Pz.setRoute_alPhase (fleet : Word) (g : Route → Route) (z : Pz) : (z.setRoute fleet g).alPhase = z.alPhase := rfl
@[simp] theorem Pz.setRoute_recQ (fleet : Word) (g : Route → Route) (z : Pz) : (z.setRoute fleet g).recQ = z.recQ := rfl
@[simp] theorem Pz.setRoute_recPhase (fleet : Word) (g : Route → Route) (z : Pz) : (z.setRoute fleet g).recPhase = z.recPhase := rfl
@[simp] theorem Pz.setRoute_msixDue (fleet : Word) (g : Route → Route) (z : Pz) : (z.setRoute fleet g).msixDue = z.msixDue := rfl
@[simp] theorem Pz.setRoute_msixAt (fleet : Word) (g : Route → Route) (z : Pz) : (z.setRoute fleet g).msixAt = z.msixAt := rfl
@[simp] theorem Pz.setRoute_mb (fleet : Word) (g : Route → Route) (z : Pz) : (z.setRoute fleet g).mb = z.mb := rfl
@[simp] theorem Pz.setRoute_slots (fleet : Word) (g : Route → Route) (z : Pz) : (z.setRoute fleet g).slots = z.slots := rfl
@[simp] theorem Pz.setRoute_ctxs (fleet : Word) (g : Route → Route) (z : Pz) : (z.setRoute fleet g).ctxs = z.ctxs := rfl
@[simp] theorem Pz.setRoute_models (fleet : Word) (g : Route → Route) (z : Pz) : (z.setRoute fleet g).models = z.models := rfl
@[simp] theorem Pz.setRoute_launches (fleet : Word) (g : Route → Route) (z : Pz) : (z.setRoute fleet g).launches = z.launches := rfl
@[simp] theorem Pz.setRoute_blot (fleet : Word) (g : Route → Route) (z : Pz) : (z.setRoute fleet g).blot = z.blot := rfl
@[simp] theorem Pz.setRoute_ctl (fleet : Word) (g : Route → Route) (z : Pz) : (z.setRoute fleet g).ctl = z.ctl := rfl
@[simp] theorem Pz.setRoute_iw (fleet : Word) (g : Route → Route) (z : Pz) : (z.setRoute fleet g).iw = z.iw := rfl
@[simp] theorem Pz.setRoute_peat (fleet : Word) (g : Route → Route) (z : Pz) : (z.setRoute fleet g).peat = z.peat := rfl
@[simp] theorem Pz.setRoute_snap (fleet : Word) (g : Route → Route) (z : Pz) : (z.setRoute fleet g).snap = z.snap := rfl
@[simp] theorem Pz.setRoute_hl (fleet : Word) (g : Route → Route) (z : Pz) : (z.setRoute fleet g).hl = z.hl := rfl
@[simp] theorem Pz.setRoute_out (fleet : Word) (g : Route → Route) (z : Pz) : (z.setRoute fleet g).out = z.out := rfl

/-! ### `Pz.setJob` (one job) -/

@[simp] theorem Pz.setJob_regs (tag : BitVec 24) (g : Job → Job) (z : Pz) : (z.setJob tag g).regs = z.regs := rfl
@[simp] theorem Pz.setJob_caps (tag : BitVec 24) (g : Job → Job) (z : Pz) : (z.setJob tag g).caps = z.caps := rfl
@[simp] theorem Pz.setJob_rdata (tag : BitVec 24) (g : Job → Job) (z : Pz) : (z.setJob tag g).rdata = z.rdata := rfl
@[simp] theorem Pz.setJob_b2data (tag : BitVec 24) (g : Job → Job) (z : Pz) : (z.setJob tag g).b2data = z.b2data := rfl
@[simp] theorem Pz.setJob_pins (tag : BitVec 24) (g : Job → Job) (z : Pz) : (z.setJob tag g).pins = z.pins := rfl
@[simp] theorem Pz.setJob_i3c (tag : BitVec 24) (g : Job → Job) (z : Pz) : (z.setJob tag g).i3c = z.i3c := rfl
@[simp] theorem Pz.setJob_time (tag : BitVec 24) (g : Job → Job) (z : Pz) : (z.setJob tag g).time = z.time := rfl
@[simp] theorem Pz.setJob_mem (tag : BitVec 24) (g : Job → Job) (z : Pz) : (z.setJob tag g).mem = z.mem := rfl
@[simp] theorem Pz.setJob_routes (tag : BitVec 24) (g : Job → Job) (z : Pz) : (z.setJob tag g).routes = z.routes := rfl
@[simp] theorem Pz.setJob_ing (tag : BitVec 24) (g : Job → Job) (z : Pz) : (z.setJob tag g).ing = z.ing := rfl
@[simp] theorem Pz.setJob_alarmQ (tag : BitVec 24) (g : Job → Job) (z : Pz) : (z.setJob tag g).alarmQ = z.alarmQ := rfl
@[simp] theorem Pz.setJob_alPhase (tag : BitVec 24) (g : Job → Job) (z : Pz) : (z.setJob tag g).alPhase = z.alPhase := rfl
@[simp] theorem Pz.setJob_recQ (tag : BitVec 24) (g : Job → Job) (z : Pz) : (z.setJob tag g).recQ = z.recQ := rfl
@[simp] theorem Pz.setJob_recPhase (tag : BitVec 24) (g : Job → Job) (z : Pz) : (z.setJob tag g).recPhase = z.recPhase := rfl
@[simp] theorem Pz.setJob_msixDue (tag : BitVec 24) (g : Job → Job) (z : Pz) : (z.setJob tag g).msixDue = z.msixDue := rfl
@[simp] theorem Pz.setJob_msixAt (tag : BitVec 24) (g : Job → Job) (z : Pz) : (z.setJob tag g).msixAt = z.msixAt := rfl
@[simp] theorem Pz.setJob_mb (tag : BitVec 24) (g : Job → Job) (z : Pz) : (z.setJob tag g).mb = z.mb := rfl
@[simp] theorem Pz.setJob_slots (tag : BitVec 24) (g : Job → Job) (z : Pz) : (z.setJob tag g).slots = z.slots := rfl
@[simp] theorem Pz.setJob_ctxs (tag : BitVec 24) (g : Job → Job) (z : Pz) : (z.setJob tag g).ctxs = z.ctxs := rfl
@[simp] theorem Pz.setJob_models (tag : BitVec 24) (g : Job → Job) (z : Pz) : (z.setJob tag g).models = z.models := rfl
@[simp] theorem Pz.setJob_launches (tag : BitVec 24) (g : Job → Job) (z : Pz) : (z.setJob tag g).launches = z.launches := rfl
@[simp] theorem Pz.setJob_blot (tag : BitVec 24) (g : Job → Job) (z : Pz) : (z.setJob tag g).blot = z.blot := rfl
@[simp] theorem Pz.setJob_iw (tag : BitVec 24) (g : Job → Job) (z : Pz) : (z.setJob tag g).iw = z.iw := rfl
@[simp] theorem Pz.setJob_peat (tag : BitVec 24) (g : Job → Job) (z : Pz) : (z.setJob tag g).peat = z.peat := rfl
@[simp] theorem Pz.setJob_snap (tag : BitVec 24) (g : Job → Job) (z : Pz) : (z.setJob tag g).snap = z.snap := rfl
@[simp] theorem Pz.setJob_hl (tag : BitVec 24) (g : Job → Job) (z : Pz) : (z.setJob tag g).hl = z.hl := rfl
@[simp] theorem Pz.setJob_out (tag : BitVec 24) (g : Job → Job) (z : Pz) : (z.setJob tag g).out = z.out := rfl

/-! ### `Pz.emit` (one output) -/

@[simp] theorem Pz.emit_regs (o : PzOut) (z : Pz) : (z.emit o).regs = z.regs := rfl
@[simp] theorem Pz.emit_caps (o : PzOut) (z : Pz) : (z.emit o).caps = z.caps := rfl
@[simp] theorem Pz.emit_rdata (o : PzOut) (z : Pz) : (z.emit o).rdata = z.rdata := rfl
@[simp] theorem Pz.emit_b2data (o : PzOut) (z : Pz) : (z.emit o).b2data = z.b2data := rfl
@[simp] theorem Pz.emit_pins (o : PzOut) (z : Pz) : (z.emit o).pins = z.pins := rfl
@[simp] theorem Pz.emit_i3c (o : PzOut) (z : Pz) : (z.emit o).i3c = z.i3c := rfl
@[simp] theorem Pz.emit_time (o : PzOut) (z : Pz) : (z.emit o).time = z.time := rfl
@[simp] theorem Pz.emit_mem (o : PzOut) (z : Pz) : (z.emit o).mem = z.mem := rfl
@[simp] theorem Pz.emit_routes (o : PzOut) (z : Pz) : (z.emit o).routes = z.routes := rfl
@[simp] theorem Pz.emit_ing (o : PzOut) (z : Pz) : (z.emit o).ing = z.ing := rfl
@[simp] theorem Pz.emit_alarmQ (o : PzOut) (z : Pz) : (z.emit o).alarmQ = z.alarmQ := rfl
@[simp] theorem Pz.emit_alPhase (o : PzOut) (z : Pz) : (z.emit o).alPhase = z.alPhase := rfl
@[simp] theorem Pz.emit_recQ (o : PzOut) (z : Pz) : (z.emit o).recQ = z.recQ := rfl
@[simp] theorem Pz.emit_recPhase (o : PzOut) (z : Pz) : (z.emit o).recPhase = z.recPhase := rfl
@[simp] theorem Pz.emit_msixDue (o : PzOut) (z : Pz) : (z.emit o).msixDue = z.msixDue := rfl
@[simp] theorem Pz.emit_msixAt (o : PzOut) (z : Pz) : (z.emit o).msixAt = z.msixAt := rfl
@[simp] theorem Pz.emit_mb (o : PzOut) (z : Pz) : (z.emit o).mb = z.mb := rfl
@[simp] theorem Pz.emit_slots (o : PzOut) (z : Pz) : (z.emit o).slots = z.slots := rfl
@[simp] theorem Pz.emit_ctxs (o : PzOut) (z : Pz) : (z.emit o).ctxs = z.ctxs := rfl
@[simp] theorem Pz.emit_models (o : PzOut) (z : Pz) : (z.emit o).models = z.models := rfl
@[simp] theorem Pz.emit_launches (o : PzOut) (z : Pz) : (z.emit o).launches = z.launches := rfl
@[simp] theorem Pz.emit_blot (o : PzOut) (z : Pz) : (z.emit o).blot = z.blot := rfl
@[simp] theorem Pz.emit_ctl (o : PzOut) (z : Pz) : (z.emit o).ctl = z.ctl := rfl
@[simp] theorem Pz.emit_iw (o : PzOut) (z : Pz) : (z.emit o).iw = z.iw := rfl
@[simp] theorem Pz.emit_peat (o : PzOut) (z : Pz) : (z.emit o).peat = z.peat := rfl
@[simp] theorem Pz.emit_snap (o : PzOut) (z : Pz) : (z.emit o).snap = z.snap := rfl
@[simp] theorem Pz.emit_hl (o : PzOut) (z : Pz) : (z.emit o).hl = z.hl := rfl

/-! ### `Pz.record` (one Inkwell record) -/

@[simp] theorem Pz.record_regs (r code origin tag : Nat) (body : List Byte) (z : Pz) : (z.record r code origin tag body).regs = z.regs := rfl
@[simp] theorem Pz.record_caps (r code origin tag : Nat) (body : List Byte) (z : Pz) : (z.record r code origin tag body).caps = z.caps := rfl
@[simp] theorem Pz.record_rdata (r code origin tag : Nat) (body : List Byte) (z : Pz) : (z.record r code origin tag body).rdata = z.rdata := rfl
@[simp] theorem Pz.record_b2data (r code origin tag : Nat) (body : List Byte) (z : Pz) : (z.record r code origin tag body).b2data = z.b2data := rfl
@[simp] theorem Pz.record_pins (r code origin tag : Nat) (body : List Byte) (z : Pz) : (z.record r code origin tag body).pins = z.pins := rfl
@[simp] theorem Pz.record_i3c (r code origin tag : Nat) (body : List Byte) (z : Pz) : (z.record r code origin tag body).i3c = z.i3c := rfl
@[simp] theorem Pz.record_time (r code origin tag : Nat) (body : List Byte) (z : Pz) : (z.record r code origin tag body).time = z.time := rfl
@[simp] theorem Pz.record_mem (r code origin tag : Nat) (body : List Byte) (z : Pz) : (z.record r code origin tag body).mem = z.mem := rfl
@[simp] theorem Pz.record_routes (r code origin tag : Nat) (body : List Byte) (z : Pz) : (z.record r code origin tag body).routes = z.routes := rfl
@[simp] theorem Pz.record_ing (r code origin tag : Nat) (body : List Byte) (z : Pz) : (z.record r code origin tag body).ing = z.ing := rfl
@[simp] theorem Pz.record_alarmQ (r code origin tag : Nat) (body : List Byte) (z : Pz) : (z.record r code origin tag body).alarmQ = z.alarmQ := rfl
@[simp] theorem Pz.record_alPhase (r code origin tag : Nat) (body : List Byte) (z : Pz) : (z.record r code origin tag body).alPhase = z.alPhase := rfl
@[simp] theorem Pz.record_recQ (r code origin tag : Nat) (body : List Byte) (z : Pz) : (z.record r code origin tag body).recQ = z.recQ := rfl
@[simp] theorem Pz.record_recPhase (r code origin tag : Nat) (body : List Byte) (z : Pz) : (z.record r code origin tag body).recPhase = z.recPhase := rfl
@[simp] theorem Pz.record_msixDue (r code origin tag : Nat) (body : List Byte) (z : Pz) : (z.record r code origin tag body).msixDue = z.msixDue := rfl
@[simp] theorem Pz.record_msixAt (r code origin tag : Nat) (body : List Byte) (z : Pz) : (z.record r code origin tag body).msixAt = z.msixAt := rfl
@[simp] theorem Pz.record_mb (r code origin tag : Nat) (body : List Byte) (z : Pz) : (z.record r code origin tag body).mb = z.mb := rfl
@[simp] theorem Pz.record_slots (r code origin tag : Nat) (body : List Byte) (z : Pz) : (z.record r code origin tag body).slots = z.slots := rfl
@[simp] theorem Pz.record_ctxs (r code origin tag : Nat) (body : List Byte) (z : Pz) : (z.record r code origin tag body).ctxs = z.ctxs := rfl
@[simp] theorem Pz.record_models (r code origin tag : Nat) (body : List Byte) (z : Pz) : (z.record r code origin tag body).models = z.models := rfl
@[simp] theorem Pz.record_launches (r code origin tag : Nat) (body : List Byte) (z : Pz) : (z.record r code origin tag body).launches = z.launches := rfl
@[simp] theorem Pz.record_blot (r code origin tag : Nat) (body : List Byte) (z : Pz) : (z.record r code origin tag body).blot = z.blot := rfl
@[simp] theorem Pz.record_ctl (r code origin tag : Nat) (body : List Byte) (z : Pz) : (z.record r code origin tag body).ctl = z.ctl := rfl
@[simp] theorem Pz.record_peat (r code origin tag : Nat) (body : List Byte) (z : Pz) : (z.record r code origin tag body).peat = z.peat := rfl
@[simp] theorem Pz.record_snap (r code origin tag : Nat) (body : List Byte) (z : Pz) : (z.record r code origin tag body).snap = z.snap := rfl
@[simp] theorem Pz.record_hl (r code origin tag : Nat) (body : List Byte) (z : Pz) : (z.record r code origin tag body).hl = z.hl := rfl
@[simp] theorem Pz.record_out (r code origin tag : Nat) (body : List Byte) (z : Pz) : (z.record r code origin tag body).out = z.out := rfl

/-! ## How what an update changes reads -/

@[simp] theorem Leaf.reg_setReg_same (l : Leaf) (o : Nat) (w : Word) : (l.setReg o w).reg o = w :=
  tblPut_read_same (glReset o) l.regs o w

theorem Leaf.reg_setReg_other (l : Leaf) (o p : Nat) (w : Word) (h : p ≠ o) : (l.setReg o w).reg p = l.reg p := by
  simp only [Leaf.reg, Leaf.setReg, tblPut_read_other (glReset o) l.regs o p w h]

@[simp] theorem Pz.reg_setReg_same (z : Pz) (o : Nat) (w : Word) : (z.setReg o w).reg o = w :=
  tblPut_read_same (pzReset o) z.regs o w

theorem Pz.reg_setReg_other (z : Pz) (o p : Nat) (w : Word) (h : p ≠ o) : (z.setReg o w).reg p = z.reg p := by
  simp only [Pz.reg, Pz.setReg, tblPut_read_other (pzReset o) z.regs o p w h]

@[simp] theorem Pz.ctx_setCtx_same (st c : Nat) (x : Option Ctx) (z : Pz) : (z.setCtx st c x).ctx st c = x :=
  tget_tput_same z.ctxs (4 * st + c) x

@[simp] theorem Pz.slot_setSlot_same (st p : Nat) (g : PSlot → PSlot) (z : Pz) :
    (z.setSlot st p g).slot st p = g (z.slot st p) :=
  tget_tput_same z.slots (16 * st + p) (g (z.slot st p))

end Sys2Proof.Machine
end

