-- ==== Sys2Proof/Laws/Fields.lean ====
section
/-!
SUPPORT. Sys2Proof/Laws/Fields.lean: what a field of a register reads after a field of the same or of another register is
written, and the numbers behind it.
-/

namespace Sys2Proof.Machine

/-! ## Fields of numbers -/

/-- The bits of a field, each by its place. -/
theorem testBit_bits (w hi lo i : Nat) : (bits w hi lo).testBit i = (decide (i < hi + 1 - lo) && w.testBit (lo + i)) := by
  simp [bits, Nat.testBit_mod_two_pow, Nat.testBit_shiftRight]

/-- A number with a field replaced: the field's bits are those of the value, every other bit stays. -/
theorem testBit_setBits (w hi lo v i : Nat) :
    (setBits w hi lo v).testBit i = if lo ≤ i ∧ i < hi + 1 then v.testBit (i - lo) else w.testBit i := by
  by_cases hl : lo < hi + 1
  · have hn : (hi + 1 - lo) + lo = hi + 1 := by omega
    have e1 : setBits w hi lo v =
        2 ^ lo * (2 ^ (hi + 1 - lo) * (w / 2 ^ lo / 2 ^ (hi + 1 - lo)) + v % 2 ^ (hi + 1 - lo)) + w % 2 ^ lo := by
      have a := Nat.div_add_mod w (2 ^ lo)
      have b := Nat.div_add_mod (w / 2 ^ lo) (2 ^ (hi + 1 - lo))
      simp only [setBits, bits, Nat.shiftRight_eq_div_pow]
      generalize w / 2 ^ lo = q at *
      generalize q / 2 ^ (hi + 1 - lo) = q1 at *
      generalize q % 2 ^ (hi + 1 - lo) = r at *
      generalize v % 2 ^ (hi + 1 - lo) = v1 at *
      generalize w % 2 ^ lo = m at *
      rw [← a, ← b]
      simp only [Nat.mul_add]
      omega
    rw [e1, Nat.testBit_two_pow_mul_add _ (Nat.mod_lt _ (Nat.two_pow_pos _)),
      Nat.testBit_two_pow_mul_add _ (Nat.mod_lt _ (Nat.two_pow_pos _))]
    by_cases h1 : i < lo
    · rw [if_pos h1, if_neg (by omega), Nat.testBit_mod_two_pow, decide_eq_true h1, Bool.true_and]
    · by_cases h2 : i < hi + 1
      · simp [h1, h2, Nat.testBit_mod_two_pow, show i - lo < hi + 1 - lo by omega, show lo ≤ i by omega]
      · rw [if_neg h1, if_neg (by omega), if_neg (by omega), Nat.testBit_div_two_pow, Nat.testBit_div_two_pow]
        congr 1; omega
  · have hz : hi + 1 - lo = 0 := by omega
    have : setBits w hi lo v = w := by simp [setBits, bits, hz, Nat.mod_one]
    rw [this, if_neg (by omega)]

/-- The field that was replaced reads the value, as far as it has room. -/
theorem bits_setBits_same (w hi lo v : Nat) : bits (setBits w hi lo v) hi lo = v % 2 ^ (hi + 1 - lo) := by
  apply Nat.eq_of_testBit_eq
  intro i
  rw [testBit_bits, testBit_setBits, Nat.testBit_mod_two_pow]
  by_cases h : i < hi + 1 - lo
  · simp [h, show lo + i < hi + 1 by omega]
  · simp [h]

/-- A field apart from the one replaced reads as before. -/
theorem bits_setBits_other (w hi lo v hi' lo' : Nat) (h : hi' < lo ∨ hi < lo') :
    bits (setBits w hi lo v) hi' lo' = bits w hi' lo' := by
  apply Nat.eq_of_testBit_eq
  intro i
  rw [testBit_bits, testBit_bits, testBit_setBits]
  by_cases hi2 : i < hi' + 1 - lo'
  · rw [if_neg (by omega)]
  · simp [hi2]

/-- A field is smaller than its width allows. -/
theorem bits_lt (w hi lo : Nat) : bits w hi lo < 2 ^ (hi + 1 - lo) := Nat.mod_lt _ (Nat.two_pow_pos _)

/-- A field below bit 32 of a number cut to 32 bits. -/
theorem bits_ofNat32 (n hi lo : Nat) (h : hi < 32) : bits (BitVec.ofNat 32 n).toNat hi lo = bits n hi lo := by
  apply Nat.eq_of_testBit_eq
  intro i
  rw [testBit_bits, testBit_bits, BitVec.toNat_ofNat, Nat.testBit_mod_two_pow]
  by_cases hi2 : i < hi + 1 - lo
  · simp [hi2, show lo + i < 32 by omega]
  · simp [hi2]

/-! ## Fields of registers -/

/-- A leaf field reads what was written to it, as far as it has room. -/
theorem Leaf.fld_setFld_same (l : Leaf) (f : Fld) (v : Nat) (h : f.hi < 32) :
    (l.setFld f v).fld f = v % 2 ^ (f.hi + 1 - f.lo) := by
  simp only [Leaf.fld, Leaf.setFld, Leaf.reg_setReg_same]
  rw [bits_ofNat32 _ _ _ h, bits_setBits_same]

/-- A leaf field of another register reads as before. -/
theorem Leaf.fld_setFld_reg (l : Leaf) (f g : Fld) (v : Nat) (h : g.off ≠ f.off) : (l.setFld f v).fld g = l.fld g := by
  simp only [Leaf.fld, Leaf.setFld]
  rw [Leaf.reg_setReg_other l f.off g.off _ h]

/-- A leaf field of the same register, apart from the one written, reads as before. -/
theorem Leaf.fld_setFld_field (l : Leaf) (f g : Fld) (v : Nat) (hg : g.hi < 32) (h : g.hi < f.lo ∨ f.hi < g.lo) :
    (l.setFld f v).fld g = l.fld g := by
  by_cases ho : g.off = f.off
  · simp only [Leaf.fld, Leaf.setFld, ho, Leaf.reg_setReg_same]
    rw [bits_ofNat32 _ _ _ hg, bits_setBits_other _ _ _ _ _ _ h]
  · exact Leaf.fld_setFld_reg l f g v ho

/-- A leaf register other than the one whose field is written. -/
theorem Leaf.reg_setFld_other (l : Leaf) (f : Fld) (o v : Nat) (h : o ≠ f.off) : (l.setFld f v).reg o = l.reg o :=
  Leaf.reg_setReg_other l f.off o _ h

/-- A field of Polornaz reads what was written to it, as far as it has room. -/
theorem Pz.fld_setFld_same (z : Pz) (f : Fld) (v : Nat) (h : f.hi < 32) :
    (z.setFld f v).fld f = v % 2 ^ (f.hi + 1 - f.lo) := by
  simp only [Pz.fld, Pz.setFld, Pz.reg_setReg_same]
  rw [bits_ofNat32 _ _ _ h, bits_setBits_same]

/-- A field of another register of Polornaz reads as before. -/
theorem Pz.fld_setFld_reg (z : Pz) (f g : Fld) (v : Nat) (h : g.off ≠ f.off) : (z.setFld f v).fld g = z.fld g := by
  simp only [Pz.fld, Pz.setFld]
  rw [Pz.reg_setReg_other z f.off g.off _ h]

/-- A field of the same register of Polornaz, apart from the one written, reads as before. -/
theorem Pz.fld_setFld_field (z : Pz) (f g : Fld) (v : Nat) (hg : g.hi < 32) (h : g.hi < f.lo ∨ f.hi < g.lo) :
    (z.setFld f v).fld g = z.fld g := by
  by_cases ho : g.off = f.off
  · simp only [Pz.fld, Pz.setFld, ho, Pz.reg_setReg_same]
    rw [bits_ofNat32 _ _ _ hg, bits_setBits_other _ _ _ _ _ _ h]
  · exact Pz.fld_setFld_reg z f g v ho

/-- A register of Polornaz other than the one whose field is written. -/
theorem Pz.reg_setFld_other (z : Pz) (f : Fld) (o v : Nat) (h : o ≠ f.off) : (z.setFld f v).reg o = z.reg o :=
  Pz.reg_setReg_other z f.off o _ h

/-- A counter of the leaf after it counts: held at its largest value. -/
theorem Leaf.fld_addSat_same (l : Leaf) (f : Fld) (n : Nat) (h : f.hi < 32) :
    (l.addSat f n).fld f = min (l.fld f + n) (2 ^ (f.hi + 1 - f.lo) - 1) := by
  simp only [Leaf.addSat]
  rw [Leaf.fld_setFld_same l f _ h, Nat.mod_eq_of_lt]
  have := Nat.two_pow_pos (f.hi + 1 - f.lo)
  omega

/-- A counter of Polornaz after it counts: held at its largest value. -/
theorem Pz.fld_addSat_same (z : Pz) (f : Fld) (n : Nat) (h : f.hi < 32) :
    (z.addSat f n).fld f = min (z.fld f + n) (2 ^ (f.hi + 1 - f.lo) - 1) := by
  simp only [Pz.addSat]
  rw [Pz.fld_setFld_same z f _ h, Nat.mod_eq_of_lt]
  have := Nat.two_pow_pos (f.hi + 1 - f.lo)
  omega

end Sys2Proof.Machine
end

