-- ==== Sys2Proof/Laws/Access.lean ====
section
/-!
SUPPORT. Sys2Proof/Laws/Access.lean: what a register access can do (it passes, is silent, or is a violation), what an instruction
can do on either engine, and how a mailbox message is taken and given back.
-/

namespace Sys2Proof.Machine

/-! ## Register accesses -/

/-- An access that is let through has its register's effect. -/
theorem Leaf.guarded_pass (p : Port) (off : Nat) (w : Bool) (f : Leaf → Leaf) (l : Leaf) (h : l.verdict p off w = .pass) :
    l.guarded p off w f = f l := by
  simp [Leaf.guarded, h]

/-- A silent access changes nothing. -/
theorem Leaf.guarded_silent (p : Port) (off : Nat) (w : Bool) (f : Leaf → Leaf) (l : Leaf) (h : l.verdict p off w = .silent) :
    l.guarded p off w f = l := by
  simp [Leaf.guarded, h]

/-- An access of the wrong world counts a violation of its block, and no more. -/
theorem Leaf.guarded_violation (p : Port) (off b : Nat) (w : Bool) (f : Leaf → Leaf) (l : Leaf)
    (h : l.verdict p off w = .violation b) : l.guarded p off w f = l.violate b := by
  simp [Leaf.guarded, h]

/-- A secure access that is let through has its register's effect and no more. -/
theorem Pz.guarded_pass (p : Port) (addr : BitVec 26) (f : Pz → Pz) (z : Pz) (h : z.verdict p addr = .pass)
    (hs : z.secure p addr = true) : z.guarded p addr f = f z := by
  simp [Pz.guarded, h, hs]

/-- A silent access changes nothing. -/
theorem Pz.guarded_silent (p : Port) (addr : BitVec 26) (f : Pz → Pz) (z : Pz) (h : z.verdict p addr = .silent) :
    z.guarded p addr f = z := by
  simp [Pz.guarded, h]

/-- An access of the wrong world counts a violation of its block, and no more. -/
theorem Pz.guarded_violation (p : Port) (addr : BitVec 26) (b : Nat) (f : Pz → Pz) (z : Pz)
    (h : z.verdict p addr = .violation b) : z.guarded p addr f = z.violate b := by
  simp [Pz.guarded, h]

/-! ## Instructions -/

/-- An instruction of the Quill engine leaves Polornaz as it is. -/
theorem State.jarRun_quill (i : Instr) (cost : Leaf → Nat) (bl : Leaf → Window → Nat → LRes) (bs : Pz → Ctx → SRes) (s : State) :
    s.jarRun i .quill cost bl bs = s.onLeaf (fun l => l.jarend i (cost l) bl) := rfl

/-- An instruction of a station leaves the leaf as it is. -/
theorem State.jarRun_station (i : Instr) (st : BitVec 6) (c : BitVec 2) (cost : Leaf → Nat) (bl : Leaf → Window → Nat → LRes)
    (bs : Pz → Ctx → SRes) (s : State) :
    s.jarRun i (.station st c) cost bl bs = s.onPz (Pz.station i st.toNat c.toNat bs) := rfl

/-- No instruction touches the queue. -/
@[simp] theorem State.jarRun_pending (i : Instr) (e : Engine) (cost : Leaf → Nat) (bl : Leaf → Window → Nat → LRes)
    (bs : Pz → Ctx → SRes) (s : State) : (s.jarRun i e cost bl bs).pending = s.pending := by
  cases e <;> rfl

/-- No instruction draws a free value of the model's counter. -/
@[simp] theorem State.jarRun_freeCtr (i : Instr) (e : Engine) (cost : Leaf → Nat) (bl : Leaf → Window → Nat → LRes)
    (bs : Pz → Ctx → SRes) (s : State) : (s.jarRun i e cost bl bs).freeCtr = s.freeCtr := by
  cases e <;> rfl

/-- An instruction on a context that runs, within its budget and code and of its profile, has its body's answer. -/
theorem Pz.station_runs (i : Instr) (st c : Nat) (body : Pz → Ctx → SRes) (z : Pz) (x : Ctx) (hx : z.ctx st c = some x)
    (hw : x.wait = none) (hb : x.exec < x.image.budget) (hc : x.pc < x.image.code.length)
    (hp : jarProfileS i = true) (hu : jarUnused i = true) :
    z.station i st c body =
      (body z { x with exec := x.exec + 1, pc := x.pc + 1 }).settle i st c { x with exec := x.exec + 1, pc := x.pc + 1 } := by
  simp [Pz.station, hx, hw, Nat.not_le.2 hb, Nat.not_le.2 hc, hp, hu]

/-- A context without an activation, or one that waits, runs nothing. -/
theorem Pz.station_idle (i : Instr) (st c : Nat) (body : Pz → Ctx → SRes) (z : Pz)
    (h : z.ctx st c = none ∨ ∃ x, z.ctx st c = some x ∧ x.wait.isSome = true) : z.station i st c body = z := by
  rcases h with h | ⟨x, h, hw⟩
  · simp [Pz.station, h]
  · simp [Pz.station, h, hw]

/-- An instruction of an open window's channel, within its budget, on a word that is good, of its profile: its body's answer. -/
theorem Leaf.jarend_runs (i : Instr) (cost : Nat) (body : Leaf → Window → Nat → LRes) (l : Leaf) (w : Window) (c : Nat)
    (hw : l.quill.win = some w) (hc : w.chan = some c) (hb : w.exec + cost ≤ l.chanBudget w c) (hpc : w.pc < 64)
    (hg : l.isBad (progCw (bankPage w.bank + (64 * c + w.pc) / 2048) ((64 * c + w.pc) % 2048)) = false)
    (hp : (jarProfileL i && jarRegsL i && jarUnused i) = true) :
    l.jarend i cost body = (match body l { w with exec := w.exec + cost, pc := w.pc + 1 } c with
      | .error code => l.stopChan (leafFault code) c { w with exec := w.exec + cost, pc := w.pc + 1 }
      | .ok (l, w) => { l with quill := { l.quill with win := some w } }) := by
  simp only [Leaf.jarend, hw, hc, Nat.not_lt.2 hb, Nat.not_le.2 hpc, hg, hp]
  rfl

/-! ## The mailbox -/

/-- A slot's word 0 after it is given back: OWN clear, the status written, the rest as it was. -/
theorem Pz.mbDone_word (n st : Nat) (z : Pz) : tget (z.mbDone n st).mb.words (1024 * n) =
    BitVec.ofNat 32 (setBits (setBits (tget z.mb.words (1024 * n)).toNat 30 24 st) 31 31 0) := by
  simp only [Pz.mbDone, tmod, tget_tput_same]

theorem Pz.mbDone_own (n st : Nat) (z : Pz) : bits (tget (z.mbDone n st).mb.words (1024 * n)).toNat 31 31 = 0 := by
  rw [Pz.mbDone_word, bits_ofNat32 _ _ _ (by omega)]
  exact (bits_setBits_same _ _ _ _).trans (Nat.zero_mod _)

theorem Pz.mbDone_status (n st : Nat) (z : Pz) (h : st < 128) :
    bits (tget (z.mbDone n st).mb.words (1024 * n)).toNat 30 24 = st := by
  rw [Pz.mbDone_word, bits_ofNat32 _ _ _ (by omega), bits_setBits_other _ _ _ _ _ _ (by omega), bits_setBits_same]
  exact Nat.mod_eq_of_lt h

/-- A message of a slot that asks for no reply record is answered in its slot at once. -/
theorem Pz.finish_slot (m : MbMsg) (n : BitVec 4) (st : Nat) (body : List Byte) (z : Pz) (hm : m.src = .slot n)
    (hr : m.reply = false) : z.finish m st body = z.mbDone n.toNat st := by
  simp [Pz.finish, hm, hr]

/-- With no message left in the queue nothing more is refused. -/
theorem Pz.settled_empty (z : Pz) (h : z.mb.queue = []) : z.settled = z := by
  simp [Pz.settled, h, Pz.settle]

/-- The one message in the queue, of the type and operation, is processed. -/
theorem Pz.front_alone (ty : Nat) (op : Nat → Bool) (f : MbMsg → Pz → Pz) (z : Pz) (m : MbMsg) (hq : z.mb.queue = [m])
    (ht : m.mtype.toNat = ty) (ho : op m.op = true) :
    z.front ty op f = (f m { z with mb := { z.mb with queue := [] } }).settled := by
  simp [Pz.front, hq, ht, ho]

end Sys2Proof.Machine
end

