-- ==== Sys2Proof/Laws/Memory.lean ====
section
/-!
SUPPORT. Sys2Proof/Laws/Memory.lean: the writes of Polornaz memory keep its canonical form, and leave every byte outside what
they store as it was.
-/

namespace Sys2Proof.Machine

/-- Memory after reset lists nothing, so it has its canonical form. -/
theorem State.reset_mem_wf : Memory.wf State.reset.pz.mem = true := by
  have h : State.reset.pz.mem = [] := rfl
  rw [h]; rfl

/-- A value given to a field keeps what holds of memory. -/
theorem Pz.setFld_keeps (P : Tbl Byte → Prop) (f : Fld) (v : Nat) (z : Pz) (h : P z.mem) : P (z.setFld f v).mem := h

theorem Pz.withSnap_mem (z : Pz) (x : SnapSt) : ({ z with snap := x } : Pz).mem = z.mem := rfl

@[simp] theorem Pz.dropSnap_mem (z : Pz) : z.dropSnap.mem = z.mem := by
  unfold Pz.dropSnap
  exact (Pz.withSnap_mem (z.setFld PzR.SN_STAT_STATE 0) _).trans (Pz.setFld_mem z PzR.SN_STAT_STATE 0)

/-- A fold of updates that each keep a property keeps it. -/
theorem foldl_keeps {α β : Type} (P : β → Prop) (f : β → α → β) (hf : ∀ b a, P b → P (f b a)) (l : List α) (b : β) (h : P b) :
    P (l.foldl f b) := by
  induction l generalizing b with
  | nil => exact h
  | cons a l ih => exact ih _ (hf b a h)

/-! ## Alarms and records touch no byte of memory -/

@[simp] theorem Pz.send_mem (port : Nat) (m : Message) (z : Pz) : (z.send port m).mem = z.mem := by
  unfold Pz.send; split <;> rfl

@[simp] theorem Pz.sendUp_mem (m : Message) (z : Pz) : (z.sendUp m).mem = z.mem := by
  unfold Pz.sendUp; repeat' split
  all_goals simp

@[simp] theorem Pz.postMsix_mem (v : Nat) (z : Pz) : (z.postMsix v).mem = z.mem := by
  simp only [Pz.postMsix]; split <;> simp

@[simp] theorem Pz.postHeld_mem (v : Nat) (z : Pz) : (z.postHeld v).mem = z.mem := by
  simp only [Pz.postHeld]; split <;> simp

@[simp] theorem Pz.alarmUp_mem (e : AlarmEntry) (z : Pz) : (z.alarmUp e).mem = z.mem := by
  unfold Pz.alarmUp; split <;> simp

@[simp] theorem Pz.raise_mem (v : Nat) (z : Pz) : (z.raise v).mem = z.mem := by
  unfold Pz.raise; split <;> simp

@[simp] theorem Pz.almPin_mem (z : Pz) : z.almPin.mem = z.mem := by
  simp only [Pz.almPin]; split <;> simp

@[simp] theorem Pz.alarmIn_mem (e : AlarmEntry) (n : Nat) (z : Pz) : (z.alarmIn e n).mem = z.mem := rfl

@[simp] theorem Pz.stage_mem (e : AlarmEntry) (z : Pz) : (z.stage e).mem = z.mem := by
  simp only [Pz.stage]; repeat' split
  all_goals simp

@[simp] theorem Pz.deviceAlarm_mem (code unit : Nat) (z : Pz) : (z.deviceAlarm code unit).mem = z.mem := by
  unfold Pz.deviceAlarm; split <;> simp

@[simp] theorem Pz.uncorrAt_mem (w : Nat) (z : Pz) : (z.uncorrAt w).mem = z.mem := by
  simp only [Pz.uncorrAt]; repeat' split
  all_goals simp

/-- An uncorrectable word read changes no byte of memory. -/
@[simp] theorem Pz.uncorrMem_mem (w : Nat) (x : Bool) (z : Pz) : (z.uncorrMem w x).mem = z.mem := by
  simp [Pz.uncorrMem]

/-! ## Writes and copies -/

/-- A page copied into the snapshot image keeps memory canonical. -/
theorem Pz.copyPage_wf (pg : Nat) (z : Pz) (h : Memory.wf z.mem = true) : Memory.wf (z.copyPage pg).mem = true := by
  unfold Pz.copyPage
  split
  · exact h
  · split
    · rw [Pz.dropSnap_mem, Pz.uncorrMem_mem]; exact h
    · exact Memory.wf_memCopy _ _ _ _ h

/-- Drain-ahead keeps memory canonical. -/
theorem Pz.drainAhead_wf (a n : Nat) (z : Pz) (h : Memory.wf z.mem = true) : Memory.wf (z.drainAhead a n).mem = true := by
  unfold Pz.drainAhead
  split
  · exact h
  · refine foldl_keeps (fun z : Pz => Memory.wf z.mem = true) _ ?_ _ _ h
    exact fun z pg hz => Pz.copyPage_wf pg z hz

/-- A write keeps memory canonical. -/
theorem Pz.write_wf (a : Nat) (bs : List Byte) (z : Pz) (h : Memory.wf z.mem = true) : Memory.wf (z.write a bs).mem = true :=
  Memory.wf_memPut _ _ _ _ (Pz.drainAhead_wf a bs.length z h)

/-- While no snapshot runs, a write touches its own bytes alone. -/
theorem Pz.write_other (a x : Nat) (bs : List Byte) (z : Pz) (hs : z.snap.now = none) (h : x < a ∨ a + bs.length ≤ x) :
    tget (z.write a bs).mem x = tget z.mem x := by
  simp only [Pz.write, Pz.drainAhead, hs]
  exact tget_memPut_other _ _ _ _ _ h

/-- Bytes put where the test admits them read back. -/
theorem tget_memPut_same (ok : Nat → Bool) (m : Tbl Byte) (a i : Nat) (bs : List Byte) (hi : i < bs.length) (hok : ok (a + i) = true) :
    tget (memPut ok m a bs) (a + i) = bs[i] := by
  induction bs generalizing m a i with
  | nil => simp at hi
  | cons b bs ih =>
    unfold memPut
    cases i with
    | zero =>
      rw [tget_memPut_other _ _ _ _ _ (by omega)]
      simp only [Nat.add_zero] at hok
      simp [hok]
    | succ i =>
      have := ih (if ok a then tput m a b else m) (a + 1) i (by simpa using hi) (by rwa [Nat.add_right_comm, Nat.add_assoc] )
      simpa [Nat.add_right_comm, Nat.add_assoc] using this

/-- While no snapshot runs and no word of memory is uncorrectable, a byte reads as it was written. -/
theorem Pz.write_read (a i : Nat) (bs : List Byte) (z : Pz) (hs : z.snap.now = none) (hb : z.hl.bad = []) (hi : i < bs.length) :
    tget (z.write a bs).mem (a + i) = bs[i] := by
  simp only [Pz.write, Pz.drainAhead, hs, hb]
  exact tget_memPut_same _ _ _ _ _ hi (by simp)

/-- A tree copied into SRAM keeps memory canonical. -/
theorem Pz.copyTrees_wf (ps : List (Tree × Nat)) (z : Pz) (h : Memory.wf z.mem = true) :
    Memory.wf (z.copyTrees ps).2.mem = true := by
  unfold Pz.copyTrees
  refine foldl_keeps (fun a : List Tree × Pz => Memory.wf a.2.mem = true) _ ?_ _ _ h
  intro a p ha
  simp only
  split
  · rw [Pz.uncorrMem_mem]; exact ha
  · exact Memory.wf_memCopy _ _ _ _ (Pz.drainAhead_wf _ _ _ ha)

/-- A restore keeps memory canonical. -/
theorem Pz.restoreDone_wf (z : Pz) (h : Memory.wf z.mem = true) : Memory.wf z.restoreDone.mem = true := by
  unfold Pz.restoreDone
  split
  · exact h
  · simp only [Pz.snState]
    refine Pz.setFld_keeps (fun m => Memory.wf m = true) _ _ _ ?_
    refine foldl_keeps (fun z : Pz => Memory.wf z.mem = true) _ ?_ _ _ h
    exact fun z r hz => Memory.wf_memCopy _ _ _ _ hz

end Sys2Proof.Machine
end

