-- ==== Sys2Proof/Tests/Slice0.lean ====
section
/-!
SUPPORT. Sys2Proof/Tests/Slice0.lean: tests of single steps, refusals of WellFormed, and for every statement with hypotheses a
state and operands that meet them.
-/

namespace Sys2Proof.Tests

open Sys2Proof.Machine Sys2Proof.Claims

set_option maxRecDepth 20000
set_option Elab.async false

/-! ## Small states -/

/-- The state after a command (the state itself, did the command stop). -/
def after (c : Instr) (s : State) : State := match exec c s with
  | .next t => t
  | _ => s

/-- Polornaz once powered up: step 10, every die in service, the endpoint up. -/
def pzUp : Pz :=
  let z := { Pz.reset with pins := { PzPins.reset with porN := true, perstN := true, ready := true, pcieUp := true, busMaster := true } }
  ((z.setFld PzR.PWR_STAT_STEP 10).setFld PzR.PKG_STAT_DIE_OK 0xFFFF)

/-- The leaf once powered up. -/
def leafUp : Leaf :=
  { Leaf.reset with pins := { LeafPins.reset with porN := true, hostIsoN := true } }.setFld GlR.IDENT_STATUS_READY 1

/-- Both parts powered up, with no command waiting. -/
def up : State := { State.reset with leaf := leafUp, pz := pzUp }

/-- The secure view over PCIe, and the leaf's secure requester. -/
def secure : Port := { ns := false, src := 0, size := 2, side := true }

/-- An image of sixteen words that grants 64 KiB of SRAM above the reserved part. -/
def img : Image := { (default : Image) with
  budget := 100, code := List.replicate 16 0, secure := true, models := [0, 0, 0, 0, 0, 0, 0, 0]
  regions := [{ base := 0x8000000, size := 0x10000, write := true }, { base := 0x8010000, size := 0x1000, write := false }]
  binds := [{ tag := 0, kind := 4, depth := 4, arg := 0 }, { tag := 0, kind := 5, depth := 4, arg := 0 },
            { tag := 0, kind := 6, depth := 2, arg := 0 }] }

/-- A context that runs it. -/
def cx : Ctx := {
  slot := 2, image := img, pc := 3, g := [(1, 0x8000100), (2, 5), (3, 0xFFFFFFFFFFFFFFFE), (4, 12)], v := [], k := [(1, 5)], exec := 7
  kind := 0, late := false, data := 0, coal := 0, wait := none, asks := [], cur := none }

/-- It runs as context 1 of station 5. -/
def run : State := { up with pz := (up.pz.setSlot 5 2 (fun q => { q with active := some img })).setCtx 5 1 (some cx) }

/-- An open window of the Quill engine in bank 0, channel 3. -/
def win : Window := {
  instant := 200000, epoch := 1, cfg := 1, tag := 7, untimed := false, held := false, newEp := false, fenced := false, mixed := false
  stale := false, bank := false, pcode := 0, chan := some 3, pc := 9, regs := [(1, 5), (2, 0xFFFFFFFFFFFFFFFD), (3, 0x123456789)]
  inval := [], exec := 4, total := 10, fields := [], written := [], stopped := 0, overrun := false, incompl := false, waves := []
  wdrop := false }

/-- Channel 3 runs: EN, BUDGET 100, FBASE 10, FCNT 4, RED and ALM. -/
def chan : State := { up with leaf := { up.leaf with quill := { up.leaf.quill with
  sliceA := [(3, BitVec.ofNat 32 (2 ^ 31 + 100 * 2 ^ 24 + 10 * 2 ^ 16 + 4 * 2 ^ 11 + 3 * 2 ^ 9))], win := some win } } }

/-! ## Jarend: scalar, memory, control -/

theorem test_scalar_station : ∀ p ∈ scalar3, StReady run (p.1 (.station 5 1) ⟨6, 3, 2⟩) 5 1 cx ∧
    after (p.1 (.station 5 1) ⟨6, 3, 2⟩) run =
      stNext run 5 1 ((issued cx).put 6 (p.2 (cx.rg 3) (cx.rg 2))) := by unfold StReady; decide

theorem test_scalar_quill : ∀ p ∈ scalar3, QlReady chan (p.1 .quill ⟨6, 2, 1⟩) 1 win 3 ∧
    after (p.1 .quill ⟨6, 2, 1⟩) chan =
      qlNext chan ((counted win 1).result 6 (p.2 (win.g 2) (win.g 1)) [2, 1]) := by unfold QlReady; decide

theorem test_immediate : ∀ p ∈ scalarImm.take 4, StReady run (p.1 (.station 5 1) ⟨2, 3, 0x8001⟩) 5 1 cx ∧
    after (p.1 (.station 5 1) ⟨2, 3, 0x8001⟩) run = stNext run 5 1 ((issued cx).put 2 (p.2 (cx.rg 3) 0x8001)) ∧
    QlReady chan (p.1 .quill ⟨6, 2, 9⟩) 1 win 3 ∧
    after (p.1 .quill ⟨6, 2, 9⟩) chan = qlNext chan ((counted win 1).result 6 (p.2 (win.g 2) 9) [2]) := by
  unfold StReady QlReady; decide

theorem test_lui : StReady run (.lui (.station 5 1) ⟨2, 0, 0x8001⟩) 5 1 cx ∧
    (after (.lui (.station 5 1) ⟨2, 0, 0x8001⟩) run).pz.ctx 5 1 =
      some ((issued cx).put 2 0xFFFFFFFF80010000) := by unfold StReady; decide

theorem test_shift : ∀ p ∈ scalarShift, StReady run (p.1 (.station 5 1) ⟨2, 3, 0, 63⟩) 5 1 cx ∧
    after (p.1 (.station 5 1) ⟨2, 3, 0, 63⟩) run = stNext run 5 1 ((issued cx).put 2 (p.2 (cx.rg 3) 63)) ∧
    QlReady chan (p.1 .quill ⟨6, 2, 0, 1⟩) 1 win 3 ∧
    after (p.1 .quill ⟨6, 2, 0, 1⟩) chan = qlNext chan ((counted win 1).result 6 (p.2 (win.g 2) 1) [2]) := by
  unfold StReady QlReady; decide

theorem test_key : ∀ p ∈ keyRows, StReady run (p.1 (.station 5 1) ⟨2, 3, 0⟩) 5 1 cx ∧
    after (p.1 (.station 5 1) ⟨2, 3, 0⟩) run = stNext run 5 1 ((issued cx).put 2 (p.2 ((cx.rg 3).setWidth 32))) ∧
    QlReady chan (p.1 .quill ⟨6, 3, 0⟩) 1 win 3 ∧
    after (p.1 .quill ⟨6, 3, 0⟩) chan = qlNext chan ((counted win 1).result 6 (p.2 ((win.g 3).setWidth 32)) [3]) := by
  unfold StReady QlReady; decide

/-- Table 12.1: 1.0 and -1.0 in fp32, and a NaN. -/
theorem test_key_f32 : keyF32 0x3F800000 = 0xBF800000 ∧ keyF32 0xBF800000 = 0x407FFFFF ∧ keyF32 0x7FC00000 = 0xFFFFFFFF := by
  decide

/-- Memory with one word at the granted address. -/
def stored : State := { run with pz := run.pz.write 0x8000108 [0x11, 0x22, 0x33, 0x44, 0x55, 0x66, 0x77, 0x88] }

theorem test_load : ∀ p ∈ loadRows, StReady stored (p.1 (.station 5 1) ⟨6, 1, BitVec.ofNat 14 (8 / p.2)⟩) 5 1 cx ∧
    Readable stored cx 0x8000108 p.2 p.2 ∧
    after (p.1 (.station 5 1) ⟨6, 1, BitVec.ofNat 14 (8 / p.2)⟩) stored = stNext stored 5 1
      ((issued cx).put 6 (BitVec.ofNat 64 (0x8877665544332211 % 2 ^ (8 * p.2)))) := by
  unfold StReady Readable; decide

theorem test_load_faults : StReady stored (.ldW (.station 5 1) ⟨6, 4, 0⟩) 5 1 cx ∧ cx.image.grants 12 4 false = false ∧
    after (.ldW (.station 5 1) ⟨6, 4, 0⟩) stored = { stored with pz := stored.pz.faultAct 5 1 (issued cx) 3 12 } ∧
    after (.ldD (.station 5 1) ⟨6, 4, 0⟩) stored = { stored with pz := stored.pz.faultAct 5 1 (issued cx) 4 12 } := by
  unfold StReady; decide

theorem test_load_quill : ∀ p ∈ loadRows, QlReady chan (p.1 .quill ⟨6, 0, 0⟩) 1 win 3 ∧
    chan.leaf.isBad (constCw 0) = false ∧ after (p.1 .quill ⟨6, 0, 0⟩) chan = qlNext chan ((counted win 1).result 6 0 [0]) ∧
    (p.2 ≠ 1 → after (p.1 .quill ⟨6, 1, 0⟩) chan = { chan with leaf := chan.leaf.stopChan 3 3 (counted win 1) }) := by
  unfold QlReady; decide

theorem test_store : ∀ p ∈ storeRows, StReady run (p.1 (.station 5 1) ⟨3, 1, BitVec.ofNat 14 (8 / p.2)⟩) 5 1 cx ∧
    Writable run cx 0x8000108 p.2 p.2 ∧
    (let t := after (p.1 (.station 5 1) ⟨3, 1, BitVec.ofNat 14 (8 / p.2)⟩) run
     memBytes t.pz.mem 0x8000108 p.2 = leB p.2 (0xFFFFFFFFFFFFFFFE % 2 ^ (8 * p.2)) ∧ tget t.pz.mem (0x8000108 + p.2) = 0 ∧
     tget t.pz.mem 0x8000107 = 0 ∧ t.pz.ctxs = (stNext run 5 1 (issued cx)).pz.ctxs ∧ t.pz.slots = run.pz.slots ∧
     Memory.wf t.pz.mem = true) := by unfold StReady Writable; decide

/-- The stored word, with a context that names it. -/
def atWord : Ctx := { cx with g := [(1, 0x8000108), (2, 0xFFFFFFFFFFFFFFFF), (5, 0x8877665544332211)] }

def amoRun : State := { stored with pz := stored.pz.setCtx 5 1 (some atWord) }

theorem test_amo : ∀ p ∈ amoRows, StReady amoRun (p.1 (.station 5 1) ⟨6, 1, 2⟩) 5 1 atWord ∧
    Readable amoRun atWord 0x8000108 8 8 ∧ Writable amoRun atWord 0x8000108 8 8 ∧
    (let t := after (p.1 (.station 5 1) ⟨6, 1, 2⟩) amoRun
     memBytes t.pz.mem 0x8000108 8 = leB 8 (p.2 0x8877665544332211 0xFFFFFFFFFFFFFFFF).toNat ∧
     t.pz.ctx 5 1 = some ((issued atWord).put 6 0x8877665544332211)) := by unfold StReady Readable Writable; decide

theorem test_amo_cas : StReady amoRun (.amoCas (.station 5 1) ⟨5, 1, 2⟩) 5 1 atWord ∧
    (let t := after (.amoCas (.station 5 1) ⟨5, 1, 2⟩) amoRun
     memBytes t.pz.mem 0x8000108 8 = List.replicate 8 0xFF ∧ t.pz.ctx 5 1 = some ((issued atWord).put 5 0x8877665544332211)) ∧
    memBytes (after (.amoCas (.station 5 1) ⟨6, 1, 2⟩) amoRun).pz.mem 0x8000108 8 = leB 8 0x8877665544332211 := by
  unfold StReady; decide

theorem test_branch : ∀ p ∈ branchRows, StReady run (p.1 (.station 5 1) ⟨2, 3, 6⟩) 5 1 cx ∧
    after (p.1 (.station 5 1) ⟨2, 3, 6⟩) run = stNext run 5 1 (if p.2 5 0xFFFFFFFFFFFFFFFE then { issued cx with pc := 9 }
      else issued cx) ∧
    (p.2 5 0xFFFFFFFFFFFFFFFE = true → after (p.1 (.station 5 1) ⟨2, 3, 13⟩) run =
      { run with pz := run.pz.faultAct 5 1 (issued cx) 1 12 }) ∧
    QlReady chan (p.1 .quill ⟨1, 2, 0xFFFF⟩) 1 win 3 ∧
    after (p.1 .quill ⟨1, 2, 0xFFFF⟩) chan = qlNext chan (if p.2 5 0xFFFFFFFFFFFFFFFD then { counted win 1 with pc := 8 }
      else counted win 1) := by unfold StReady QlReady; decide

theorem test_jumps : StReady run (.jal (.station 5 1) 0x3FFFFFF) 5 1 cx ∧ StReady run (.jr (.station 5 1) ⟨6, 4, 0⟩) 5 1 cx ∧
    after (.jal (.station 5 1) 0x3FFFFFF) run = stNext run 5 1 { (issued cx).put 31 16 with pc := 2 } ∧
    after (.jal (.station 5 1) 13) run = { run with pz := run.pz.faultAct 5 1 (issued cx) 1 12 } ∧
    after (.jr (.station 5 1) ⟨6, 4, 0⟩) run = stNext run 5 1 { (issued cx).put 6 16 with pc := 3 } ∧
    after (.jr (.station 5 1) ⟨6, 2, 0⟩) run = { run with pz := run.pz.faultAct 5 1 (issued cx) 1 12 } := by
  unfold StReady; decide

theorem test_fence_end : StReady run (.fence (.station 5 1) ⟨0, 0, 0, 0⟩) 5 1 cx ∧
    StReady run (.finish (.station 5 1) ⟨0, 0, 0, 0⟩) 5 1 cx ∧ QlReady chan (.finish .quill ⟨0, 0, 0, 0⟩) 1 win 3 ∧
    after (.fence (.station 5 1) ⟨0, 0, 0, 0⟩) run = stNext run 5 1 (issued cx) ∧
    (after (.finish (.station 5 1) ⟨0, 0, 0, 0⟩) run).pz.ctx 5 1 = none ∧
    (after (.finish .quill ⟨0, 0, 0, 0⟩) chan).leaf.fld (GlR.QL_CHST_DONE.at 12) = 1 := by unfold StReady QlReady; decide

theorem test_finish_quill : ((after (.finish .quill ⟨0, 0, 0, 0⟩) chan).leaf.quill.win.map (fun v => (v.chan, v.total))) =
    some (none, 17) := by decide

/-- A context whose budget is used up; one past its last word. -/
def spent : Ctx := { cx with exec := 100 }
def beyond : Ctx := { cx with pc := 16 }

theorem test_issue_faults :
    after (.add (.station 5 1) ⟨1, 1, 1⟩) { run with pz := run.pz.setCtx 5 1 (some spent) } =
      { run with pz := (run.pz.setCtx 5 1 (some spent)).faultAct 5 1 spent 6 12 } ∧
    after (.add (.station 5 1) ⟨1, 1, 1⟩) { run with pz := run.pz.setCtx 5 1 (some beyond) } =
      { run with pz := (run.pz.setCtx 5 1 (some beyond)).faultAct 5 1 beyond 1 64 } ∧
    after (.fldW (.station 5 1) ⟨0, 0, 0, 0⟩) run = { run with pz := run.pz.faultAct 5 1 (issued cx) 1 12 } ∧
    after (.add .quill ⟨1, 1, 1⟩) (qlNext chan { win with exec := 100 }) =
      { chan with leaf := (qlNext chan { win with exec := 100 }).leaf.stopChan 1 3 { win with exec := 100 } } ∧
    after (.add .quill ⟨1, 1, 1⟩) (qlNext chan { win with pc := 64 }) =
      { chan with leaf := (qlNext chan { win with pc := 64 }).leaf.stopChan 3 3 { win with pc := 64 } } := by decide

theorem test_fault_ends : (run.pz.faultAct 5 1 (issued cx) 4 12).ctx 5 1 = none ∧
    (run.pz.faultAct 5 1 (issued cx) 4 12).fld (PzR.PG_STAT_LAST_FLT.at (slotOff 5 2)) = 4 ∧
    (run.pz.faultAct 5 1 (issued cx) 4 12).fld (PzR.ST_STAT_FAULTS.at (0x400 * 5)) = 1 := by decide

/-- Table 10.2: WHERE of station 5, context 1, slot 2; EXEC before the read itself; a number that is not listed. -/
theorem test_csrr : StReady run (.csrr (.station 5 1) ⟨6, 0, 2, 0⟩) 5 1 cx ∧
    after (.csrr (.station 5 1) ⟨6, 0, 2, 0⟩) run = stNext run 5 1 ((issued cx).put 6 0x20105) ∧
    after (.csrr (.station 5 1) ⟨6, 3, 0, 0⟩) run = stNext run 5 1 ((issued cx).put 6 7) ∧
    after (.csrr (.station 5 1) ⟨6, 3, 1, 0⟩) run = stNext run 5 1 ((issued cx).put 6 93) ∧
    after (.csrr (.station 5 1) ⟨6, 5, 0, 0⟩) run = { run with pz := run.pz.faultAct 5 1 (issued cx) 0xB 12 } ∧
    QlReady chan (.csrr .quill ⟨6, 0, 1, 0⟩) 1 win 3 ∧
    after (.csrr .quill ⟨6, 0, 1, 0⟩) chan = qlNext chan ((counted win 1).put 6 1) ∧
    after (.csrr .quill ⟨6, 2, 0, 0⟩) chan = { chan with leaf := chan.leaf.stopChan 3 3 (counted win 1) } := by
  unfold StReady QlReady; decide

/-- Tray time at 50. -/
def run50 : State := { run with pz := run.pz.advanceTo 50 }

theorem test_csrw : StReady run50 (.csrw (.station 5 1) ⟨2, 7, 0, 0⟩) 5 1 cx ∧
    (let t := after (.csrw (.station 5 1) ⟨2, 7, 0, 0⟩) run50
     (t.pz.slot 5 2).tnext = 0 ∧ (t.pz.slot 5 2).tim = some ⟨5, true, 0⟩) ∧
    ((after (.csrw (.station 5 1) ⟨1, 7, 0, 0⟩) run50).pz.slot 5 2).tnext = 0x8000100 ∧
    after (.csrw (.station 5 1) ⟨2, 1, 0, 0⟩) run50 = { run50 with pz := run50.pz.faultAct 5 1 (issued cx) 0xB 12 } ∧
    after (.csrw .quill ⟨2, 7, 0, 0⟩) chan = { chan with leaf := chan.leaf.stopChan 3 3 (counted win 1) } := by
  unfold StReady; decide

/-! ## Jarend: capture, vectors, statistics -/

/-- Bank 0 has a sample: counter 4 of group 2, and group 2 is bound; value port 5 holds a half-precision one. -/
def set0 : BankSet := { (default : BankSet) with
  cnt := [(22, 77)], startL := [(22, 11)], endL := [(22, 33)], streams := [(0, { (default : StreamState) with lastId := 9 })] }

def sampled : State := { chan with leaf := { (chan.leaf.setFld (GlR.CG_CTL_CMD_EN.at (0x50 * 2)) 1) with
  cap := { chan.leaf.cap with
    sample := [(0, set0)]
    sampleVals := [(5, { (default : ValuePort) with val := some (3, 0x3C00), fresh := true, upd := 6 })] } } }

theorem test_group_read : QlReady sampled (.capCnt .quill ⟨6, 0, 2, 4⟩) 1 win 3 ∧ sampled.leaf.bankOn 0 = true ∧
    sampled.leaf.isBad (.sample 0) = false ∧
    after (.capCnt .quill ⟨6, 0, 2, 4⟩) sampled = qlNext sampled ((counted win 1).result 6 77 [0]) ∧
    after (.capStart .quill ⟨6, 0, 2, 4⟩) sampled = qlNext sampled ((counted win 1).result 6 11 [0]) ∧
    after (.capEnd .quill ⟨6, 0, 2, 4⟩) sampled = qlNext sampled ((counted win 1).result 6 33 [0]) ∧
    after (.capStrm .quill ⟨6, 0, 2, 5⟩) sampled = qlNext sampled ((counted win 1).result 6 9 [0]) ∧
    after (.capEnd .quill ⟨6, 0, 3, 4⟩) sampled = qlNext sampled ((counted win 1).result 6 0 [0]) := by unfold QlReady; decide

theorem test_group_read_edges : QlReady chan (.capCnt .quill ⟨6, 0, 0xFF, 9⟩) 1 win 3 ∧
    after (.capCnt .quill ⟨6, 0, 0xFF, 9⟩) chan = { chan with leaf := chan.leaf.stopChan 3 3 (counted win 1) } ∧
    (let s := { chan with leaf := { chan.leaf with hard := { chan.leaf.hard with bankEn := 0x7FFF } } }
     s.leaf.bankOn 15 = false ∧
     after (.capCnt .quill ⟨6, 0, 0xFF, 8⟩) s = qlNext s ((counted win 1).result 6 0 [0])) := by unfold QlReady; decide

theorem test_port_read : QlReady sampled (.capVal .quill ⟨6, 1, 0, 0⟩) 1 win 3 ∧
    after (.capVal .quill ⟨6, 1, 0, 0⟩) sampled = qlNext sampled ((counted win 1).result 6 0x3C00 [1]) ∧
    after (.capVtag .quill ⟨6, 1, 0, 0⟩) sampled = qlNext sampled ((counted win 1).put 6 3) ∧
    after (.capFresh .quill ⟨6, 1, 0, 0⟩) sampled = qlNext sampled ((counted win 1).result 6 1 [1]) ∧
    after (.capUpd .quill ⟨6, 1, 0, 0⟩) sampled = qlNext sampled ((counted win 1).result 6 6 [1]) ∧
    after (.capVal .quill ⟨6, 0, 6, 0⟩) sampled = qlNext sampled ((counted win 1).putInval 6 0 false) ∧
    after (.capVtag .quill ⟨6, 0, 64, 0⟩) sampled = qlNext sampled ((counted win 1).put 6 7) ∧
    after (.capUpd .quill ⟨6, 0, 64, 0⟩) sampled = qlNext sampled ((counted win 1).putInval 6 0 false) := by
  unfold QlReady; decide

theorem test_field_write : QlReady chan (.fldW .quill ⟨3, 0, 3, 0⟩) 1 win 3 ∧
    (after (.fldW .quill ⟨3, 0, 3, 0⟩) chan).leaf.quill.win.map (fun v => (v.fields, v.written)) =
      some ([(13, 0x23456789)], [13]) ∧
    after (.fldW .quill ⟨3, 0, 4, 0⟩) chan = { chan with leaf := chan.leaf.stopChan 2 3 (counted win 1) } ∧
    (after (.fldInv .quill ⟨0, 0, 3, 0⟩) chan).leaf.quill.win.map (fun v => (v.fields, v.written)) = some ([], [13]) ∧
    after (.fldRd .quill ⟨6, 0, 13, 0⟩) (qlNext chan { win with fields := [(13, 5)] }) =
      qlNext chan ((counted { win with fields := [(13, 5)] } 1).result 6 5 [0]) ∧
    after (.fldRd .quill ⟨6, 0, 13, 0⟩) chan = qlNext chan ((counted win 1).putInval 6 0 false) := by unfold QlReady; decide

/-- Feature 2 in force: WAVE_F is 4. -/
def waved : State := { chan with leaf := { chan.leaf with chain := { chan.leaf.chain with waveF := 4 } } }

theorem test_wave : QlReady waved (.redAdd .quill ⟨3, 0, 2, 0⟩) 1 win 3 ∧ slRed (waved.leaf.slice false 3) = true ∧
    win.valid 3 = true ∧
    (after (.redAdd .quill ⟨3, 0, 2, 0⟩) waved).leaf.quill.win.map (·.waves) = some [(2, ⟨1, 0x23456789, 1, 1⟩)] ∧
    (after (.redAdd .quill ⟨3, 0, 2, 0⟩) (after (.redAdd .quill ⟨2, 0, 2, 0⟩) waved)).leaf.quill.win.map (·.waves) =
      some [(2, ⟨2, 0x23456786, 1, 0xFFFFFFFF⟩)] ∧
    (after (.redAdd .quill ⟨3, 0, 4, 0⟩) waved).leaf.quill.win.map (·.wdrop) = some true ∧
    after (.redAdd .quill ⟨3, 0, 4, 0⟩) waved =
      qlNext (waved.onLeaf (fun l => l.addSat GlR.CH_WAVE_DROP 1)) { counted win 1 with wdrop := true } := by unfold QlReady; decide

/-- One directory entry with a leaf node at node 6: score 1.0, class 2. -/
def treed : State := { chan with leaf := { (chan.leaf.setFld GlR.QL_LM_CTL_D 3) with
  quill := { chan.leaf.quill with pages := [(2048 * 40 + 5, 0x80000006), (2048 * 48 + 12, 0x00020004), (2048 * 48 + 13, 0x3F800000)] } } }

theorem test_tree_local_stops : QlReady chan (.treeLocal .quill ⟨6, 0, 0, 0⟩) (1 + chan.leaf.lmD) win 3 ∧ chan.leaf.lmD = 0 ∧
    after (.treeLocal .quill ⟨6, 0, 0, 0⟩) chan = { chan with leaf := chan.leaf.stopChan 3 3 (counted win 1) } := by
  unfold QlReady; decide

theorem test_tree_local : QlReady treed (.treeLocal .quill ⟨6, 1, 0, 0⟩) (1 + treed.leaf.lmD) win 3 ∧ treed.leaf.lmD = 3 ∧
    ndLeaf (treed.leaf.lmNode 6) = true ∧ treed.leaf.isBad (modelCw 6) = false ∧
    after (.treeLocal .quill ⟨6, 1, 0, 0⟩) treed = qlNext treed ((counted win 4).result 6 0x23F800000 [1]) := by
  unfold QlReady; decide

/-- The context as it stands. -/
def ctxAt (s : State) : Ctx := (s.pz.ctx 5 1).getD cx

/-- Lanes 0 to 3 of v1 and v2. -/
def vx : Ctx := { cx with v := [(1, [1, 0xFFFFFFFF, 3, 0x80000000]), (2, [5, 6, 35, 0x7FFFFFFF])] }
def vrun : State := { run with pz := run.pz.setCtx 5 1 (some vx) }

theorem test_vector_lane : ∀ p ∈ vec3Rows, StReady vrun (p.1 (.station 5 1) ⟨3, 1, 2, 1⟩) 5 1 vx ∧
    (let y := ctxAt (after (p.1 (.station 5 1) ⟨3, 1, 2, 1⟩) vrun)
     y.ln 3 0 = p.2 1 5 ∧ y.ln 3 1 = 0 ∧ y.ln 3 2 = p.2 3 35 ∧ y.ln 3 3 = 0 ∧ tget y.v 1 = tget vx.v 1 ∧ y.pc = 4) := by
  unfold StReady; decide

theorem test_vector_key : ∀ p ∈ vkeyRows, StReady vrun (p.1 (.station 5 1) ⟨1, 1, 0, 0⟩) 5 1 vx ∧
    (let y := ctxAt (after (p.1 (.station 5 1) ⟨1, 1, 0, 0⟩) vrun)
     y.ln 1 1 = p.2 0xFFFFFFFF ∧ y.ln 1 3 = p.2 0x80000000 ∧ y.ln 1 63 = p.2 0) := by unfold StReady; decide

theorem test_vector_compare : ∀ p ∈ vcmpRows, StReady vrun (p.1 (.station 5 1) ⟨2, 1, 2, 1⟩) 5 1 vx ∧
    (let y := ctxAt (after (p.1 (.station 5 1) ⟨2, 1, 2, 1⟩) vrun)
     (y.kr 2).getLsbD 0 = p.2 1 5 ∧ (y.kr 2).getLsbD 1 = false ∧ (y.kr 2).getLsbD 2 = p.2 3 35 ∧ y.kr 1 = 5) ∧
    after (p.1 (.station 5 1) ⟨0, 1, 2, 1⟩) vrun = stNext vrun 5 1 (issued vx) ∧
    after (p.1 (.station 5 1) ⟨8, 1, 2, 1⟩) vrun = { vrun with pz := vrun.pz.faultAct 5 1 (issued vx) 2 12 } := by
  unfold StReady; decide

theorem test_vector_store : StReady vrun (.vst (.station 5 1) ⟨1, 1, 1, 0⟩) 5 1 vx ∧ Writable vrun vx 0x8000100 256 4 ∧
    vrun.pz.snap.now = none ∧
    memBytes (after (.vst (.station 5 1) ⟨1, 1, 1, 0⟩) vrun).pz.mem 0x8000100 16 =
      [1, 0, 0, 0, 0, 0, 0, 0, 3, 0, 0, 0, 0, 0, 0, 0] := by unfold StReady Writable; decide

theorem test_vector_load : StReady vrun (.vld (.station 5 1) ⟨1, 1, 1, 0⟩) 5 1 vx ∧ Readable vrun vx 0x8000100 256 4 ∧
    (let y := ctxAt (after (.vld (.station 5 1) ⟨1, 1, 1, 0⟩) { vrun with pz := vrun.pz.write 0x8000108 [9] })
     y.ln 1 0 = 0 ∧ y.ln 1 1 = 0xFFFFFFFF ∧ y.ln 1 2 = 9 ∧ y.ln 1 3 = 0x80000000) := by
  unfold StReady Readable; decide

theorem test_vector_reduction : ∀ p ∈ vredRows, StReady vrun (p.1 (.station 5 1) ⟨6, 0, 1, 1⟩) 5 1 vx ∧
    after (p.1 (.station 5 1) ⟨6, 0, 1, 1⟩) vrun = stNext vrun 5 1 ((issued vx).put 6 (p.2 [1, 3])) := by unfold StReady; decide

theorem test_vector_moves : StReady vrun (.vsplat (.station 5 1) ⟨0, 2, 1, 0⟩) 5 1 vx ∧
    StReady vrun (.vins (.station 5 1) ⟨2, 4, 1, 0⟩) 5 1 vx ∧ StReady vrun (.vext (.station 5 1) ⟨6, 0, 2, 0⟩) 5 1 vx ∧
    StReady vrun (.vmov (.station 5 1) ⟨3, 0, 1, 0⟩) 5 1 vx ∧
    (let y := ctxAt (after (.vsplat (.station 5 1) ⟨0, 2, 1, 0⟩) vrun)
     y.ln 1 0 = 5 ∧ y.ln 1 63 = 5) ∧
    (let y := ctxAt (after (.vins (.station 5 1) ⟨2, 4, 1, 0⟩) vrun)
     y.ln 1 5 = 12 ∧ y.ln 1 0 = 1 ∧ y.ln 1 6 = 0) ∧
    (after (.vext (.station 5 1) ⟨6, 0, 2, 0⟩) vrun).pz.ctx 5 1 = some ((issued vx).put 6 5) ∧
    (let y := ctxAt (after (.vmov (.station 5 1) ⟨3, 0, 1, 0⟩) vrun)
     y.ln 3 3 = 0x80000000) ∧
    after (.vmov (.station 5 1) ⟨16, 0, 1, 0⟩) vrun = { vrun with pz := vrun.pz.faultAct 5 1 (issued vx) 2 12 } := by
  unfold StReady; decide

/-- Keys in lanes 0 to 3 of v1, the NaN key elsewhere. -/
def kx : Ctx := { cx with g := [(1, 0x8000100), (2, 0), (3, 0x4000)], v := [(1, [7, 3, 9, 100] ++ List.replicate 60 0xFFFFFFFF)] }
def krun : State := { run with pz := run.pz.setCtx 5 1 (some kx) }

theorem test_median : StReady krun (.statMed (.station 5 1) ⟨6, 2, 1, 0⟩) 5 1 kx ∧ pickKeys kx 1 0 = [7, 3, 9, 100] ∧
    after (.statMed (.station 5 1) ⟨6, 2, 1, 0⟩) krun = stNext krun 5 1 ((issued kx).put 6 (BitVec.ofNat 64 (7 + 4 * 2 ^ 32))) ∧
    after (.statMad (.station 5 1) ⟨6, 2, 1, 0⟩) krun = stNext krun 5 1 ((issued kx).put 6 (BitVec.ofNat 64 (7 + 2 * 2 ^ 32))) ∧
    pickKeys kx 1 0x8000000000000000 = [] := by unfold StReady; decide

/-! ## Jarend: sketches, reductions, digests, streams, trees, epochs, emit -/

theorem test_sketch_add : StReady krun (.statQsAdd (.station 5 1) ⟨6, 1, 1, 0⟩) 5 1 kx ∧ Writable krun kx 0x8000100 16640 256 ∧
    Readable krun kx 0x8000100 16640 256 ∧ krun.pz.snap.now = none ∧ num krun.pz 0x800010C 4 = 0 ∧
    (let t := after (.statQsAdd (.station 5 1) ⟨6, 1, 1, 0⟩) krun
     num t.pz (0x8000200 + 4 * 8) 4 = 1 ∧ num t.pz (0x8000200 + 4 * 4) 4 = 1 ∧ num t.pz (0x8000200 + 4 * 101) 4 = 1 ∧
     num t.pz 0x8000108 4 = 4 ∧ t.pz.mem.length = 5 ∧
     t.pz.ctxs = (stNext krun 5 1 ((issued kx).put 6 4)).pz.ctxs) := by
  unfold StReady Writable Readable; decide

/-- Two keys in bin 3, one in bin 9. -/
def sketched : State := { krun with pz := ((krun.pz.write 0x8000108 [3]).write 0x800020C [2]).write 0x8000224 [1] }

theorem test_sketch_rank : StReady sketched (.statQsQ (.station 5 1) ⟨3, 1, 0, 0⟩) 5 1 kx ∧ num sketched.pz 0x8000108 4 = 3 ∧
    after (.statQsQ (.station 5 1) ⟨3, 1, 0, 0⟩) sketched = stNext sketched 5 1 ((issued kx).put 3 2) ∧
    after (.statQsQ (.station 5 1) ⟨1, 1, 0, 0⟩) sketched = stNext sketched 5 1 ((issued kx).put 1 2) ∧
    after (.statQsQ (.station 5 1) ⟨1, 1, 0, 0⟩) krun = stNext krun 5 1 ((issued kx).put 1 0xFFFFFFFF) := by
  unfold StReady; decide

/-- Key of 2.0 in lane 0, the NaN key elsewhere. -/
def ex : Ctx := { cx with g := [(1, 0x8000100), (3, 1)], v := [(1, 0xC0000000 :: List.replicate 63 0xFFFFFFFF)] }
def erun : State := { run with pz := run.pz.setCtx 5 1 (some ex) }

theorem test_ewma : StReady erun (.statEwma (.station 5 1) ⟨3, 1, 1, 0⟩) 5 1 ex ∧ Writable erun ex 0x8000100 512 256 ∧
    Readable erun ex 0x8000100 512 256 ∧ erun.pz.snap.now = none ∧
    (let t := after (.statEwma (.station 5 1) ⟨3, 1, 1, 0⟩) erun
     num t.pz 0x8000100 4 = 0x3F800000 ∧ num t.pz 0x8000200 4 = 0x3F800000 ∧ num t.pz 0x8000104 4 = 0 ∧
     t.pz.ctxs = (stNext erun 5 1 ((issued ex).put 3 1)).pz.ctxs) := by unfold StReady Writable Readable; decide

theorem test_rdx : StReady vrun (.rdxAdd (.station 5 1) ⟨2, 1, 1, 0⟩) 5 1 vx ∧ Writable vrun vx 0x8000100 3072 256 ∧
    Readable vrun vx 0x8000100 3072 256 ∧ vrun.pz.snap.now = none ∧
    (let t := after (.rdxAdd (.station 5 1) ⟨2, 1, 1, 0⟩) vrun
     num t.pz 0x8000100 4 = 1 ∧ num t.pz 0x8000110 8 = 1 ∧ num t.pz 0x8000118 4 = 0 ∧ num t.pz (0x8000100 + 48 + 16) 8 = 3) := by
  unfold StReady Writable Readable; decide

theorem test_rdx_fold : StReady vrun (.rdxMax (.station 5 1) ⟨2, 1, 1, 0⟩) 5 1 vx ∧
    StReady vrun (.rdxMin (.station 5 1) ⟨2, 1, 1, 0⟩) 5 1 vx ∧
    num (after (.rdxMax (.station 5 1) ⟨2, 1, 1, 0⟩) vrun).pz (0x8000100 + 48 + 8) 4 = 3 ∧
    (let s := { vrun with pz := vrun.pz.write 0x8000134 [9] }
     num (after (.rdxMin (.station 5 1) ⟨2, 1, 1, 0⟩) s).pz (0x8000100 + 48 + 4) 4 = 3) := by unfold StReady; decide

theorem test_rdx_close : StReady vrun (.rdxClose (.station 5 1) ⟨6, 1, 0, 0⟩) 5 1 vx ∧
    (let s := { vrun with pz := (vrun.pz.write 0x8000100 [7]).write 0x8000118 [2] }
     (after (.rdxClose (.station 5 1) ⟨6, 1, 0, 0⟩) s).pz.ctxs = (stNext vrun 5 1 ((issued vx).put 6 9)).pz.ctxs) := by
  unfold StReady; decide

/-- A digest body at the granted address: projection 0 is 5, projection 1 is -1, COUNT 9, DEPTH 1, R 0. -/
def digested : State := { run with pz := ((run.pz.write 0x8000120 [9]).write 0x8000160 [5]).write 0x8000168 (List.replicate 8 0xFF) }

theorem test_dg : StReady digested (.dgLd (.station 5 1) ⟨6, 1, 2, 0⟩) 5 1 cx ∧ Readable digested cx 0x8000100 224 8 ∧
    StReady digested (.dgDiff (.station 5 1) ⟨6, 1, 2, 0⟩) 5 1 cx ∧ StReady digested (.dgTol (.station 5 1) ⟨6, 1, 0, 0⟩) 5 1 cx ∧
    (let y := ctxAt (after (.dgLd (.station 5 1) ⟨6, 1, 2, 0⟩) digested)
     y.ln 2 0 = 5 ∧ y.ln 2 1 = 0 ∧ y.ln 2 2 = 0xFFFFFFFF ∧ y.ln 2 3 = 0xFFFFFFFF ∧ y.rg 6 = 9) ∧
    (let y := ctxAt (after (.dgDiff (.station 5 1) ⟨6, 1, 2, 0⟩) digested)
     y.ln 2 0 = 0xFFFFFFFB ∧ y.ln 2 1 = 0xFFFFFFFF ∧ y.ln 2 2 = 1 ∧ y.rg 6 = 5) ∧
    after (.dgTol (.station 5 1) ⟨6, 1, 0, 0⟩) digested = stNext digested 5 1 ((issued cx).put 6 0) := by
  unfold StReady Readable; decide

/-- N 4, SUMSQ 2^10, R 1, DEPTH 1, ACCF 0, KTOL 8: V is 8 + 2^-5, and 8 times its root lies under 23. -/
theorem test_dg_tol : (let s := { run with pz := ((run.pz.write 0x8000100 [4]).write 0x8000108 [0, 4]).write 0x8000118 [1, 1] }
    after (.dgTol (.station 5 1) ⟨6, 1, 0, 0⟩) s = stNext s 5 1 ((issued cx).put 6 23)) ∧
    LeastTolerance 8 (4 * 2 ^ 2 * 2 ^ 16 + 1024 * 2 ^ 2) 23 := by
  refine ⟨by decide +kernel, by decide, ?_⟩
  intro u hu; have : u ≤ 22 := by omega
  have : u * u ≤ 22 * 22 := Nat.mul_le_mul this this
  omega

/-! ## Jarend: streams, trees, epochs, emit -/

/-- Two items of eight bytes wait in stream 0, one score in stream 1; tag 9 is the next of the slot, 7 outstanding. -/
def item8 : StreamItem := { bytes := [1, 2, 3, 4, 5, 6, 7, 8], came := 0, ask := none }
def item2 : StreamItem := { bytes := [0, 0, 0x80, 0x3F], came := 0, ask := none }
def srun : State := { run with pz := run.pz.setSlot 5 2 (fun q =>
  { q with streams := [(0, [item8, item2]), (1, [item2])], tag := 9, out := [7] }) }

theorem test_stream_pop : StReady srun (.strPop (.station 5 1) ⟨6, 1, 0, 0⟩) 5 1 cx ∧
    (srun.pz.slot 5 2).active = some cx.image ∧ cx.image.bind 0 = some ⟨0, 4, 4, 0⟩ ∧ cx.image.bind 3 = none ∧
    srun.pz.accessFault cx 0x8000100 8 64 true = none ∧ srun.pz.badIn 0x8000100 8 = none ∧
    (let t := after (.strPop (.station 5 1) ⟨6, 1, 0, 0⟩) srun
     memBytes t.pz.mem 0x8000100 9 = [1, 2, 3, 4, 5, 6, 7, 8, 0] ∧ (t.pz.slot 5 2).items 0 = [item2] ∧ (ctxAt t).rg 6 = 8) ∧
    after (.strPop (.station 5 1) ⟨6, 1, 3, 0⟩) srun = { srun with pz := srun.pz.faultAct 5 1 (issued cx) 7 12 } ∧
    after (.strPop (.station 5 1) ⟨6, 1, 2, 0⟩) srun =
      stNext srun 5 1 { issued cx with wait := some (.strPop (.station 5 1) ⟨6, 1, 2, 0⟩, srun.pz.now) } := by
  unfold StReady; decide

theorem test_stream_rest : StReady srun (.strPeek (.station 5 1) ⟨6, 1, 0, 0⟩) 5 1 cx ∧
    StReady srun (.strSkip (.station 5 1) ⟨6, 2, 0, 0⟩) 5 1 cx ∧ StReady srun (.strLen (.station 5 1) ⟨6, 0, 0, 0⟩) 5 1 cx ∧
    (let t := after (.strPeek (.station 5 1) ⟨6, 1, 0, 0⟩) srun
     memBytes t.pz.mem 0x8000100 9 = [1, 2, 3, 4, 5, 6, 7, 8, 0] ∧ (t.pz.slot 5 2).items 0 = [item8, item2] ∧
     (ctxAt t).rg 6 = 8) ∧
    after (.strPeek (.station 5 1) ⟨6, 1, 2, 0⟩) srun = stNext srun 5 1 ((issued cx).put 6 0) ∧
    (let t := after (.strSkip (.station 5 1) ⟨6, 2, 0, 0⟩) srun
     (t.pz.slot 5 2).items 0 = [] ∧ (ctxAt t).rg 6 = 2) ∧
    after (.strLen (.station 5 1) ⟨6, 0, 0, 0⟩) srun = stNext srun 5 1 ((issued cx).put 6 2) := by unfold StReady; decide

/-- Destination of the push: station 5, slot 2. -/
def pushCx : Ctx := { cx with g := [(1, 0x8000100), (6, 0x502)] }
def pushRun : State := { run with pz := run.pz.setCtx 5 1 (some pushCx) }

theorem test_push : StReady pushRun (.strPush (.station 5 1) ⟨6, 1, 0, 0⟩) 5 1 pushCx ∧ Readable pushRun pushCx 0x8000100 64 64 ∧
    (pushRun.pz.slot 5 2).active = some img ∧ img.lowest 6 = some (2, ⟨0, 6, 2, 0⟩) ∧
    (let t := after (.strPush (.station 5 1) ⟨6, 1, 0, 0⟩) pushRun
     ((t.pz.slot 5 2).items 2).length = 1 ∧ (ctxAt t).rg 6 = 1) ∧
    (let s := { pushRun with pz := pushRun.pz.setSlot 5 2 (fun q => { q with streams := [(2, [item8, item8])] }) }
     after (.strPush (.station 5 1) ⟨6, 1, 0, 0⟩) s =
       stNext (s.onPz (fun z => z.addMod (PzR.PG_DROP_COUNT.at (slotOff 5 2)) 1)) 5 1 ((issued pushCx).put 6 0)) ∧
    (let s := { pushRun with pz := pushRun.pz.setSlot 5 2 (fun q => { q with active := some { img with binds := [] } }) }
     after (.strPush (.station 5 1) ⟨6, 1, 0, 0⟩) s = { s with pz := s.pz.faultAct 5 1 (issued pushCx) 7 12 }) := by
  unfold StReady Readable; decide

/-- Model 4 is active with one tree of two features; the image names it first. -/
def tree4 : Tree := { idx := 0, die := 1, addr := 0x8100000, len := 1, depth := 1, omitted := false }
def model4 : Model := { (default : Model) with id := 4, st := .active, nf := 2, nclass := 1, trees := [tree4] }
def img4 : Image := { img with models := [4, 0, 0, 0, 0, 0, 0, 0] }
def cx4 : Ctx := { cx with image := img4 }
def lrun : State := { up with pz := { (up.pz.setSlot 5 2 (fun q => { q with active := some img4, tag := 9, out := [7] })).setCtx 5 1
  (some cx4) with models := [(4, model4)] } }

theorem test_launch : StReady lrun (.treeLaunch (.station 5 1) ⟨6, 1, 0, 0⟩) 5 1 cx4 ∧ lrun.pz.modelOf 4 = some model4 ∧
    img4.lowest 5 = some (1, ⟨0, 5, 4, 0⟩) ∧ Readable lrun cx4 0x8000100 8 4 ∧ lrun.pz.storeUsed 1 + 8 ≤ 8388608 ∧
    (let t := after (.treeLaunch (.station 5 1) ⟨6, 1, 0, 0⟩) lrun
     t.pz.launches.map (fun l => (l.tag, l.trees, l.feats)) = [(9, [tree4], [0, 0])] ∧ (t.pz.slot 5 2).out = [7, 9] ∧
     (ctxAt t).rg 6 = 9) ∧
    (let s := { lrun with pz := lrun.pz.setSlot 5 2 (fun q => { q with out := [5, 6, 7, 8] }) }
     after (.treeLaunch (.station 5 1) ⟨6, 1, 0, 0⟩) s =
       stNext s 5 1 { issued cx4 with wait := some (.treeLaunch (.station 5 1) ⟨6, 1, 0, 0⟩, s.pz.now) }) := by
  unfold StReady Readable; decide

theorem test_tree_wait_sum : StReady srun (.treeWait (.station 5 1) ⟨6, 2, 0, 0⟩) 5 1 cx ∧
    StReady srun (.treeSum (.station 5 1) ⟨6, 4, 1, 0⟩) 5 1 cx ∧
    after (.treeWait (.station 5 1) ⟨6, 2, 0, 0⟩) srun = stNext srun 5 1 ((issued cx).put 6 1) ∧
    after (.treeWait (.station 5 1) ⟨6, 4, 0, 0⟩) srun =
      stNext srun 5 1 { issued cx with wait := some (.treeWait (.station 5 1) ⟨6, 4, 0, 0⟩, srun.pz.now) } ∧
    after (.treeSum (.station 5 1) ⟨6, 0, 1, 0⟩) srun = stNext srun 5 1 ((issued cx).put 6 0) ∧
    (let s := stNext srun 5 1 { cx with g := [(2, 1)] }
     let t := after (.treeSum (.station 5 1) ⟨6, 2, 1, 0⟩) s
     (ctxAt t).rg 6 = 0x3F800000 ∧ (t.pz.slot 5 2).items 1 = []) := by unfold StReady; decide

theorem test_epoch : StReady run (.epCmp (.station 5 1) ⟨6, 2, 0, 0⟩) 5 1 cx ∧
    StReady run (.epWait (.station 5 1) ⟨6, 2, 0, 0⟩) 5 1 cx ∧ StReady run (.epCfgcmp (.station 5 1) ⟨6, 3, 0, 0⟩) 5 1 cx ∧
    after (.epCmp (.station 5 1) ⟨6, 2, 0, 0⟩) run = stNext run 5 1 ((issued cx).put 6 1) ∧
    after (.epCmp (.station 5 1) ⟨6, 3, 0, 0⟩) run = stNext run 5 1 ((issued cx).put 6 (-1)) ∧
    after (.epCfgcmp (.station 5 1) ⟨6, 3, 0, 0⟩) run = stNext run 5 1 ((issued cx).put 6 (-1)) ∧
    after (.epWait (.station 5 1) ⟨6, 3, 0, 0⟩) run = stNext run 5 1 ((issued cx).put 6 0) ∧
    after (.epWait (.station 5 1) ⟨6, 2, 0, 0⟩) run =
      stNext run 5 1 { issued cx with wait := some (.epWait (.station 5 1) ⟨6, 2, 0, 0⟩, run.pz.now) } ∧
    after (.epCmp (.station 5 1) ⟨6, 2, 1, 0⟩) run = { run with pz := run.pz.faultAct 5 1 (issued cx) 1 12 } := by
  unfold StReady; decide

/-- An alarm code in g5, a code below 0x0100 in g2. -/
def alCx : Ctx := { cx with g := [(1, 0x8000100), (2, 5), (5, 0x123)] }
def arun : State := { run with pz := run.pz.setCtx 5 1 (some alCx) }
def aspent : State := { arun with pz := arun.pz.setSlot 5 2 (fun q => { q with spent := 64 }) }

theorem test_alarm : StReady arun (.emitAlarm (.station 5 1) ⟨6, 5, 0, 0⟩) 5 1 alCx ∧ (alCx.rg 5).toNat % 65536 = 0x123 ∧
    (let t := after (.emitAlarm (.station 5 1) ⟨6, 5, 0, 0⟩) arun
     (ctxAt t).rg 6 = 1 ∧ (t.pz.slot 5 2).spent = 1 ∧ t.pz.ctl.aseq = 1) ∧
    (let t := after (.emitAlarm (.station 5 1) ⟨6, 2, 0, 0⟩) arun
     (ctxAt t).rg 6 = 0 ∧ t.pz.alarmQ = arun.pz.alarmQ ∧ t.pz.slots = arun.pz.slots) ∧
    (let t := after (.emitAlarm (.station 5 1) ⟨6, 5, 0, 0⟩) aspent
     (ctxAt t).rg 6 = 0 ∧ (t.pz.slot 5 2).supp = true ∧ t.pz.fld (PzR.ST_EGDROP_ALMSUPP.at (0x400 * 5)) = 1) ∧
    (let s := { chan with leaf := { chan.leaf with quill := { chan.leaf.quill with sliceA := [(3, 0xE40A2400)] } } }
     QlReady s (.emitAlarm .quill ⟨6, 2, 0, 0⟩) 1 win 3 ∧ slAlm (s.leaf.slice false 3) = false ∧
     after (.emitAlarm .quill ⟨6, 2, 0, 0⟩) s = { s with leaf := s.leaf.stopChan 3 3 (counted win 1) }) := by
  unfold StReady QlReady; decide

/-- A record body of 8 bytes, code 0x85, at the granted address. -/
def erec : State := { run with pz := run.pz.write 0x8000100 [8, 0, 0x85, 0] }

theorem test_emit : StReady erec (.emitVerdict (.station 5 1) ⟨6, 1, 0, 0⟩) 5 1 cx ∧
    StReady erec (.emitAdv (.station 5 1) ⟨6, 1, 0, 0⟩) 5 1 cx ∧ Readable erec cx 0x8000100 8 4 ∧ Readable run cx 0x8000100 4 4 ∧
    num erec.pz 0x8000100 4 = 0x850008 ∧ erec.pz.recQ = [] ∧
    (∀ b ∈ [false, true], let t := after ((if b then Instr.emitAdv else .emitVerdict) (.station 5 1) ⟨6, 1, 0, 0⟩) erec
     t.pz.ctl.rseq = 1 ∧ (ctxAt t).rg 6 = 1) ∧
    (let t := after (.emitVerdict (.station 5 1) ⟨6, 1, 0, 0⟩) run
     t.pz.out = run.pz.out ∧ (ctxAt t).rg 6 = 0) := by unfold StReady Readable; decide

theorem test_emit_trace : StReady erec (.emitTrace (.station 5 1) ⟨6, 1, 0, 0⟩) 5 1 cx ∧
    StReady erec (.emitReply (.station 5 1) ⟨6, 1, 0, 0⟩) 5 1 cx ∧ Readable erec cx 0x8000100 56 4 ∧
    (after (.emitTrace (.station 5 1) ⟨6, 1, 0, 0⟩) erec).freeCtr = erec.freeCtr + 1 ∧
    after (.emitReply (.station 5 1) ⟨6, 1, 0, 0⟩) erec = stNext erec 5 1 ((issued cx).put 6 0) ∧
    (let y := { cx with cur := some (default : MbMsg), asks := [default] }
     let z := ctxAt (after (.emitReply (.station 5 1) ⟨6, 1, 0, 0⟩) (stNext erec 5 1 y))
     z.cur = none ∧ z.asks = [] ∧ z.rg 6 = 1) := by unfold StReady Readable; decide

/-! ## The leaf: resets, isolation, capture -/

/-- A page word written, and its register. -/
def used : State := up.onLeaf (fun l => { l.setFld GlR.CG_CTL_EN 1 with quill := { l.quill with pages := [(9, 5)], win := some win } })

theorem test_power_on_reset : ∀ i ∈ [Instr.leafPowerOnReset, Instr.supplyMonitorReset], used.leaf.fld GlR.CG_CTL_EN = 1 ∧
    (let t := after i used
     t.leaf.regs = [] ∧ t.leaf.quill = default ∧ t.leaf.hard = used.leaf.hard ∧ t.leaf.pins.porN = false ∧ t.pz = used.pz ∧
     (after .leafPowerUp t).leaf.flag GlR.IDENT_STATUS_READY = true ∧
     (after .leafPowerUp t).leaf.fld GlR.IDENT_STATUS_RESET_CAUSE = 1) := by decide

theorem test_warm_reset : used.leaf.pins.porN = true ∧ after .leafPowerUp used = used ∧
    (let t := after (.warmReset 3 []) used
     t.leaf.flag GlR.IDENT_STATUS_READY = true ∧ t.leaf.fld GlR.IDENT_STATUS_RESET_CAUSE = 3 ∧ t.leaf.quill.pages = [(9, 5)] ∧
     t.leaf.quill.win = none ∧ t.leaf.fld GlR.CG_CTL_EN = 0) ∧
    (after (.warmReset 1 []) used).leaf.fld GlR.IDENT_STATUS_RESET_CAUSE = 2 ∧
    after (.warmReset 1 []) (after .leafPowerOnReset used) = after .leafPowerOnReset used := by
  decide +kernel

/-- The host isolated. -/
def iso : State := after (.hostIsoChange false) up

theorem test_host_isolation : iso.leaf.pins.hostIsoN = false ∧ iso.leaf.flag GlR.IDENT_STATUS_HOST_ISO = true ∧
    after (.valuePortHandshake 5 0 7) iso = iso ∧
    (tget (after (.strobeItem 3 ⟨2, [(1, 1)]⟩ [⟨3, true, true, 9⟩]) iso).leaf.cap.front 3).edges = 2 := by decide

/-- Bank 3 has 255 edges and an instant marker to take. -/
def front3 : BankFront := { (default : BankFront) with edges := 255, toMark := [.instant 40] }
def capt : State := up.onLeaf (fun l => { l with cap := { l.cap with front := [(3, front3)], instWait := [3] } })

theorem test_front_end : capt.leaf.bankOn 3 = true ∧ capt.leaf.pins.hostIsoN = true ∧ front3.hold = [] ∧ front3.stopReq = false ∧
    capt.leaf.strobesAt 3 [⟨3, false, true, 9⟩] ≠ [] ∧
    (let f := tget (after (.periodicItem 3 ⟨1, [(2, 1)]⟩) capt).leaf.cap.front 3
     f.edges = 0 ∧ f.queue.map (fun it => (it.edges, it.lines, it.markers)) = [(256, [(2, 1)], [])]) ∧
    (tget (after (.periodicItem 3 ⟨0, []⟩) capt).leaf.cap.front 3).edges = 255 ∧
    (let f := tget (after (.strobeItem 3 ⟨1, []⟩ [⟨3, false, true, 9⟩]) capt).leaf.cap.front 3
     f.queue.map (fun it => (it.edges, it.starts)) = [(256, [3])] ∧ f.toMark = [.instant 40]) := by decide

theorem test_front_marker : (let f := tget (after (.markerItem 3 ⟨1, []⟩ []) capt).leaf.cap.front 3
     f.queue.map (·.markers) = [[.instant 40]] ∧ f.toMark = []) ∧
    (let f := tget (after (.evStopReq 3 ⟨1, []⟩ []) capt).leaf.cap.front 3
     f.queue.length = 1 ∧ f.stopReq = true ∧ f.edges = 0) := by decide

/-- Bank 3 with a stop requested, everything crossed; bank 4 with a full queue and an item that waits. -/
def frontStop : BankFront := { (default : BankFront) with stopReq := true }
def frontFull : BankFront := { (default : BankFront) with queue := List.replicate 31 default, hold := [default] }
def stopping : State := up.onLeaf (fun l => { l with cap := { l.cap with front := [(3, frontStop), (4, frontFull)] } })

theorem test_stop_handshake : (tget (after (.evStopAck 3 true) stopping).leaf.cap.front 3).clk = .stoppedAck ∧
    (tget (after (.evStopAck 3 true) stopping).leaf.cap.front 3).stopAck = true ∧
    (tget (after (.evStopAck 4 true) stopping).leaf.cap.front 4).stopAck = false ∧
    (tget (after (.evStopRelease 3) (after (.evStopAck 3 true) stopping)).leaf.cap.front 3).clk = .running ∧
    (let f := tget (after (.markerHoldRelease 4) stopping).leaf.cap.front 4
     f.queue.length = 32 ∧ f.hold = []) := by decide

/-- A control change that waits in bank 3. -/
def ch3 : CtlChange := { group := 0x30, ctl := some 0x80000000, slot := none, clr := true }
def frontCtl : BankFront := { (default : BankFront) with toMark := [.control ch3] }

theorem test_marker_timeouts : 0x31 ∈ bankGroups 3 ∧
    (let t := after (.markerTimeout 3) capt
     (tget t.leaf.cap.front 3).clk = .stoppedDead ∧ t.leaf.flag (GlR.CG_STAT_HELD.at (0x50 * 0x31)) = true) ∧
    (let s := up.onLeaf (fun l => { l with cap := { l.cap with front := [(3, frontCtl)] } })
     (after (.controlWriteTimeout 3) s).leaf.flag (GlR.CG_STAT_CLR_PEND.at (0x50 * 0x30)) = true) := by decide

/-- An item of bank 3 with 200 edges, line 2 high on 7, and an instant marker; slots 0 and 1 of group 0x31 count. -/
def it3 : Item := { edges := 200, lines := [(2, 7)], fins := [], starts := [], streams := [], markers := [] }
def coreS (it : Item) : State := up.onLeaf (fun l =>
  { ((((l.setFld (GlR.CG_CTL_EN.at (0x50 * 0x31)) 1).setFld (GlR.CG_HI_EN.at (0x50 * 0x31)) 1).setFld
      (GlR.CG_HI_EN.at (0x50 * 0x31 + 8)) 1).setFld (GlR.CG_HI_LINE.at (0x50 * 0x31 + 8)) 2) with
    cap := { l.cap with front := [(3, { (default : BankFront) with queue := [it] })], instWait := [3, 4]
                        core := [(3, { (default : BankSet) with cnt := [(9, 2 ^ 48 - 1)] })] } })

theorem test_core_applies : (tget (coreS it3).leaf.cap.front 3).queue = [it3] ∧
    (let t := after (.coreApplyItem 3) (coreS it3)
     (tget t.leaf.cap.core 3).cnt = [(9, 199), (10, 7)] ∧ (tget t.leaf.cap.front 3).queue = [] ∧ t.leaf.cap.sample = []) ∧
    (let t := after (.coreApplyItem 3) (coreS { it3 with markers := [.instant 40] })
     tget t.leaf.cap.sample 3 = tget t.leaf.cap.core 3 ∧ t.leaf.cap.instWait = [4]) := by decide

theorem test_group_control : up.leaf.verdict secure (0x4048 + 0x50 * 0x31) true = .pass ∧ up.leaf.bankOn 3 = true ∧
    (tget up.leaf.cap.front 3).clk = .running ∧ up.leaf.streamBank 3 = 3 ∧ up.leaf.streamBank 4 ≠ 3 ∧
    (let t := after (.cgControlWrite 0x31 none secure 0xF0300000) up
     (tget t.leaf.cap.front 3).toMark = [.control ⟨0x31, some 0xF0300000, none, true⟩] ∧
     t.leaf.fld (GlR.CG_CTL_VIEW.at (0x50 * 0x31)) = 7 ∧ t.leaf.fld (GlR.CG_CTL_USER_RD.at (0x50 * 0x31)) = 1 ∧
     t.leaf.fld (GlR.CG_CTL_EN.at (0x50 * 0x31)) = 0) ∧
    (after (.cgBind 0x31 secure 0x0A000000) up).leaf.flag (GlR.CG_STAT_BIND_ERR.at (0x50 * 0x31)) = true ∧
    ((tget (after (.cgBind 0x31 secure 0x01800000) up).leaf.cap.front 3).toMark).length = 1 ∧
    ((tget (after (.cgClear 0x31 secure 0) up).leaf.cap.front 3).toMark.length = 1) ∧
    up.leaf.verdict secure (0x4004 + 0x50 * 0x31 + 8 * 8) true = .pass ∧
    (tget (after (.cgControlWrite 0x31 (some 8) secure 5) up).leaf.cap.front 3).toMark =
      [.control ⟨0x31, none, some (8, 5), false⟩] := by decide

theorem test_value_port : bit up.leaf.hard.vpEn.toNat 5 = true ∧
    (tget (after (.valuePortHandshake 5 2 0x12345678) up).leaf.cap.vals 5).val = some (2, 0x12345678) ∧
    (tget (after (.valuePortHandshake 5 4 0x12345678) up).leaf.cap.vals 5).val = some (4, 0x5678) ∧
    (let v := tget (after (.valuePortHandshake 5 5 0x12345678) up).leaf.cap.vals 5
     v.val = none ∧ v.tagErr = true ∧ v.upd = 1 ∧ v.fresh = true) ∧
    (tget (after (.valuePortHandshake 5 7 0x12345678) up).leaf.cap.vals 5).tagErr = false := by decide

/-! ## The leaf: digests, tests, heartbeat, interrupts -/

/-- Tap 1 enabled, its entry 2 matches every tensor; a first beat has come. -/
def tapped : State := up.onLeaf (fun l => (l.setFld GlR.DG_CTL_TAP_EN 2).setReg (entOff 1 2 + 4) 0x8000)
def beat1 : State := after (.digestBeat 1 0x3F800000 true false 0 5) tapped
def open1 : State := after (.digestEngineBeat 1) beat1

theorem test_beats : tapped.leaf.hard.tapEn.getLsbD 1 = true ∧
    (tget beat1.leaf.taps 1).buf = [⟨0, 0x3F800000, true, false, 0, 5⟩] ∧
    after (.digestBeat 0 1 true true 0 5) tapped = tapped ∧
    (let s := tapped.onLeaf (fun l => l.modTap 1 (fun p => { p with buf := List.replicate 64 default }))
     let t := after (.digestBeat 1 1 true true 0 5) s
     (tget t.leaf.taps 1).discs = 1 ∧ t.leaf.fld (GlR.DG_DISC_COUNT.at 4) = 1 ∧ (tget t.leaf.taps 1).buf.length = 64) := by decide

theorem test_engine_opens : after (.digestEngineBeat 1) tapped = tapped ∧ beat1.leaf.isTest 1 5 = false ∧
    beat1.leaf.entryFor 1 5 = some 2 ∧ (tget open1.leaf.taps 1).buf = [] ∧
    ((tget open1.leaf.taps 1).tensor.map (fun x => (x.beats, x.entry, x.tid, x.fmt))) = some (1, some 2, 5, 0) ∧
    (let t := after (.digestEngineBeat 1) (after (.digestBeat 1 7 false false 0 5) tapped)
     (tget t.leaf.taps 1).buf = [] ∧ t.leaf.fld (GlR.DG_TAPST_ORPHAN.at 4) = 1) := by decide

theorem test_engine_closes :
    (let t := after (.digestEngineBeat 1) (after (.digestBeat 1 7 false false 0 5) open1)
     (tget t.leaf.taps 1).tensor.map (fun x => (x.beats, x.entry)) = some (2, some 2)) ∧
    open1.leaf.isBad (.tap 1) = false ∧ open1.leaf.tapQueued 1 = 0 ∧
    (let t := after (.digestEngineBeat 1) (after (.digestBeat 1 7 false true 0 5) open1)
     (tget t.leaf.taps 1).tensor = none ∧ (tget t.leaf.taps 1).tseq = 1 ∧
     (tget t.leaf.ul.queues 3).map (fun q => (q.msg.ty, q.sent)) = [(0x0B, 0)]) := by decide +kernel

/-- Units 2 and 3 are fitted, unit 2 is due. -/
def tested : State := up.onLeaf (fun l => ((((l.setUnit GlR.TS_UNIT_FITTED 2 1).setUnit GlR.TS_UNIT_FITTED 3 1).setUnit
  GlR.TS_UNIT_DUE 2 1).setFld GlR.TS_CTL_EN 1))
def granted : State := after (.testGrantIn 0x8203E80000000000 false) tested

theorem test_grant : tested.leaf.isDue 2 = true ∧ tested.leaf.roundRuns 2 = false ∧ tget tested.leaf.test.repeats 2 = none ∧
    (tget granted.leaf.test.rounds 2).map (fun r => (r.unit, r.waiting == r.unit :: r.others, r.window)) =
      some (2, true, 0x03E800) ∧
    granted.leaf.test.rcount = 1 ∧
    (after (.testGrantIn 0x8303E80000000000 false) tested).leaf.fld GlR.TS_STAT_IGNORED = 1 ∧
    (let t := after (.testGrantIn 0x8203E80000000000 true) tested
     t.leaf.fld GlR.TS_STAT_TPDROP = 1 ∧ t.leaf.out = tested.leaf.out ++ [.test 0x4000000000000000]) ∧
    after (.testGrantIn 0x8203E80000000000 false) iso = iso := by decide

/-- A round of unit 2 with unit 3, round number 5. -/
def round2 : Round := { unit := 2, others := [3], waiting := [2, 3], round := 5, seed := 9, stress := 0, start := 0, window := 10 }
def rounding : State := tested.onLeaf (fun l => { l with test := { l.test with rounds := [(2, some round2)], lastOut := some 7 } })
def lastDone : State := rounding.onLeaf (fun l => { l with test := { l.test with rounds := [(2, some { round2 with waiting := [2] })] } })

theorem test_done : rounding.leaf.roundOf 2 = some round2 ∧ lastDone.leaf.roundOf 2 = some { round2 with waiting := [2] } ∧
    tget (after (.testDone 0x9200000000050000 false) rounding).leaf.test.rounds 2 = some { round2 with waiting := [3] } ∧
    (let t := after (.testDone 0x9200000000050001 false) rounding
     tget t.leaf.test.rounds 2 = none ∧ t.leaf.fld GlR.TS_STAT_ABORTS = 1 ∧
     t.leaf.out = rounding.leaf.out ++ [.test 0x3200000500000000]) ∧
    (after (.testDone 0x9200000000050000 false) lastDone).leaf.isDue 2 = false ∧
    (after (.testDone 0x9700000000050000 false) rounding).leaf.fld GlR.TS_STAT_IGNORED = 1 := by decide

theorem test_refuse_resend :
    (let t := after (.testRefuse 0xA300000000000000 false) rounding
     tget t.leaf.test.rounds 2 = none ∧ t.leaf.fld GlR.TS_STAT_ABORTS = 1) ∧
    (after (.testResendIn 0xB000000000000000 false) rounding).leaf.out = rounding.leaf.out ++ [.test 7] := by decide

theorem test_unit_due : tested.leaf.fitted 3 = true ∧ tested.leaf.isDue 3 = false ∧
    (let t := after (.testDue 3) tested
     t.leaf.isDue 3 = true ∧ t.leaf.out = tested.leaf.out ++ [.test 0x1300000000000000] ∧
     (tget t.leaf.ul.queues 1).map (fun q => q.msg.ty) = [0x0A]) ∧
    after (.testDue 2) tested = tested ∧
    (let t := after (.testOverdue 2) tested
     t.leaf.unitFld GlR.TS_UNIT_OVERDUE 2 = 1 ∧ t.leaf.unitFld GlR.TS_UNIT_STATE 2 = 1 ∧ t.leaf.fld GlR.TS_STAT_LATE_EV = 1 ∧
     (tget (after (.testLateAdvisory 2) t).leaf.ul.queues 1).length = 2) ∧
    after (.testOverdue 3) tested = tested ∧ after (.testLateAdvisory 2) tested = tested := by decide

theorem test_round_timeout : tget rounding.leaf.test.rounds 2 = some round2 ∧
    (let t := after (.testRoundTimeout 2) rounding
     t.leaf.fld GlR.TS_STAT_ABORTS = 1 ∧ tget t.leaf.test.rounds 2 = none) := by decide

/-- Every unit of the round has answered. -/
def answered : State := rounding.onLeaf (fun l => { l with test := { l.test with rounds := [(2, some { round2 with waiting := [] })] } })

theorem test_health : tget answered.leaf.test.repeats 2 = none ∧
    (let t := after (.healthUpdateRx ⟨2, 1, true, 3, 9, 4, 5, .clean⟩ []) answered
     t.leaf.unitFld GlR.TS_UNIT_STATE 2 = 1 ∧ t.leaf.unitFld GlR.TS_UNIT_COND 2 = 1 ∧ t.leaf.unitFld GlR.TS_UNIT_CTBIN 2 = 3 ∧
     t.leaf.unitFld GlR.TS_UNIT_CSIG 2 = 9 ∧ t.leaf.unitFld GlR.TS_UNIT_CLEAN 2 = 4 ∧ tget t.leaf.test.rounds 2 = none) ∧
    (let t := after (.healthUpdateRx ⟨2, 1, true, 3, 9, 4, 5, .disputed⟩ []) answered
     (tget t.leaf.test.rounds 2).map (fun r => (r.seed, r.round, r.waiting.length)) = some (9, 5, 2)) ∧
    after (.testRoundTimeout 2) answered = answered := by
  decide +kernel

/-- The watch runs with MISS 1. -/
def watched : State := up.onLeaf (fun l => (l.setFld GlR.HB_CTL_EN 1).setFld GlR.TM_REFFREQ_KHZ 100000)

theorem test_heartbeat : watched.leaf.hb.lastTog = none ∧
    (after .heartbeatBeat watched).leaf.fld GlR.HB_BEATS_COUNT = 1 ∧
    after .heartbeatBeat (after .heartbeatBeat watched) = after .heartbeatBeat watched ∧
    after .heartbeatBeat iso = iso ∧ after .heartbeatExpiry up = up := by decide

theorem test_heartbeat_hang : watched.leaf.hbRuns = true ∧ held GlR.HB_STAT_MISSED 1 = max 1 watched.leaf.hb.miss ∧
    (let t := after .heartbeatExpiry watched
     t.leaf.flag GlR.HB_STAT_HUNG = true ∧ t.leaf.fld GlR.HB_STAT_MISSED = 1 ∧ t.leaf.fld GlR.HB_STAT_HANGS = 1 ∧
     tget t.leaf.irq.cnt 450 = 1 ∧ (after .heartbeatBeat t).leaf.flag GlR.HB_STAT_HUNG = false) ∧
    (let s := watched.onLeaf (fun l => { l with hb := { l.hb with miss := 3 } })
     (after .heartbeatExpiry s).leaf.flag GlR.HB_STAT_HUNG = false) := by decide

/-- Sources 5, 450 and 451 have counted once; all are routed to target 2, 451 with priority 3, 450 with 1. -/
def claims : State := up.onLeaf (fun l => { ((((l.setFld (GlR.IRQ_TCTL_SEC.at 0x40) 1).setReg 0xA44 0x0400).setReg (0xA40 + 4 * 112) 0x04040000).setReg 0xC40 0x3100) with
  irq := { l.irq with cnt := [(5, 1), (450, 1), (451, 2)] } })

theorem test_claim : Tbl.wf (fun _ => 0) claims.leaf.irq.cnt = true ∧ claims.leaf.bestClaim 2 = some 451 ∧
    claims.leaf.bestClaim 1 = none ∧ claims.leaf.verdict secure (0xD00 + 0x20 * 2) false = .pass ∧
    (let t := after (.irqClaim 2 secure) claims
     t.leaf.rdata = 0x201C3 ∧ t.leaf.irq.cnt = [(5, 1), (450, 1)] ∧
     (tget t.leaf.irq.targets 2).stack = [(451, 3)] ∧ t.leaf.bestClaim 2 = none ∧
     (tget (after (.irqEoi 2 secure 451) t).leaf.irq.targets 2).stack = [] ∧
     (after (.irqEoi 2 secure 450) t).leaf.fld (GlR.IRQ_TSTAT_BADEOI.at (0x20 * 2)) = 1) ∧
    (after (.irqClaim 1 secure) claims).leaf.rdata = 0xFFFF := by decide

theorem test_claim_ordinary : (let s := claims.onLeaf (fun l => { l with irq := { l.irq with cnt := [(5, 1)] } })
     let t := after (.irqClaim 2 secure) s
     t.leaf.rdata = 0x10005 ∧ (tget t.leaf.irq.targets 2).nasvc = some 5 ∧
     (tget (after (.irqEoi 2 secure 5) t).leaf.irq.targets 2).nasvc = none) ∧
    (after (.irqIdleRise 2 true) claims).leaf.pins.irqIdle.getLsbD 2 = true ∧
    (tget (after (.holdoffExpiry 2) claims).leaf.irq.targets 2).hold = none := by decide

/-! ## The leaf: registers, time, uplink -/

theorem test_leaf_writes : ∀ o ∈ leafPlain, up.leaf.verdict secure o true = .pass ∧ (findRow glRows o).isSome = true ∧
    (let t := after (.registerWrite .leaf secure (BitVec.ofNat 26 o) 0x8000FFFF) up
     ∀ r ∈ (findRow glRows o).toList, ∀ f ∈ r.flds, bits (t.leaf.reg o).toNat f.hi f.lo =
       writtenBits f (up.leaf.reg o).toNat 0x8000FFFF) := by decide +kernel

theorem test_pz_writes : ∀ o ∈ pzPlain, up.pz.verdict secure (BitVec.ofNat 26 o) = .pass ∧ (findRow pzRows o).isSome = true ∧
    up.pz.secure secure (BitVec.ofNat 26 o) = true ∧
    (let t := after (.registerWrite .pz secure (BitVec.ofNat 26 o) 0x8000FFFF) up
     ∀ r ∈ (findRow pzRows o).toList, ∀ f ∈ r.flds, bits (t.pz.reg o).toNat f.hi f.lo =
       writtenBits f (up.pz.reg o).toNat 0x8000FFFF) := by decide +kernel

/-- A requester of the non-secure world. -/
def plainPort : Port := { ns := true, src := 3, size := 2, side := false }

/-- Violations of block 0 counted; aligned time past 2^32. -/
def noted : State := up.onLeaf (fun l => { (l.setReg 0x440 9) with time := { l.time with ns := 0x500000007 } })

theorem test_leaf_reads : noted.leaf.verdict secure 0x440 false = .pass ∧
    (let t := after (.rcFieldRead .leaf secure 0x440) noted
     t.leaf.rdata = 9 ∧ t.leaf.reg 0x440 = 0) ∧
    noted.leaf.verdict secure 0x1010 false = .pass ∧ noted.leaf.verdict secure 0x1014 false = .pass ∧
    (let t := after (.splitValueLowRead .leaf secure 0x1010) noted
     t.leaf.rdata = 7 ∧ (let u := t.onLeaf (fun l => { l with time := { l.time with ns := 0x600000000 } })
      let v := after (.rcFieldRead .leaf secure 0x1014) u
      v.leaf.rdata = 5 ∧ v.leaf.caps = [])) := by decide

theorem test_refused : up.leaf.verdict plainPort 0x400 false = .violation 1 ∧ up.leaf.verdict plainPort 0x2 false = .silent ∧
    up.leaf.verdict plainPort 0x400 true = .violation 1 ∧ up.leaf.verdict plainPort 0x2 true = .silent ∧
    up.pz.verdict plainPort 0x2 = .silent := by decide

theorem test_refclk : up.leaf.verdict secure 0x1008 true = .pass ∧
    (let t := after (.reffreqWrite secure 100000) up
     t.leaf.fld GlR.TM_REFFREQ_KHZ = 100000 ∧ t.leaf.timeRuns = true ∧
     (let u := after .refclkLost t
      u.leaf.timeRuns = false ∧ u.leaf.flag GlR.IDENT_STATUS_REFCLK_LOST = true ∧ tget u.leaf.irq.cnt 448 = 1 ∧
      (after .refclkRestored u).leaf.timeRuns = true) ∧
     (after (.fallbackCalibrate 77) t).leaf.time.ratio = 77) ∧
    after (.reffreqWrite secure 24999) up = up ∧ after (.reffreqWrite secure 200001) up = up ∧
    after (.fallbackCalibrate 77) up = up := by decide

/-- The time base runs; T3 of frame 5 was 300. -/
def timed : State := up.onLeaf (fun l => { (l.setFld GlR.TM_REFFREQ_KHZ 100000) with
  time := { l.time with ns := 1000, t3 := [(5, 300)] } })

theorem test_exchange : timed.leaf.exchange ⟨0, 800, 10, 10, 5, 0, 200⟩ = some (-150, 380) ∧ timed.leaf.timeRuns = true ∧
    timed.leaf.hard.tmMode = false ∧ timed.leaf.fld GlR.TM_CTL_SRC ≠ 2 ∧
    (let t := after (.timeCellRx ⟨0, 800, 10, 10, 5, 0, 200⟩) timed
     t.leaf.fld GlR.TM_EXCH_EXCH = 1 ∧ t.leaf.time.lastUp = some 0 ∧ t.leaf.fld GlR.TM_STAT_SOURCE = 1 ∧
     (after (.sourceTimeout false) t).leaf.fld GlR.TM_STAT_SOURCE = 0) ∧
    after (.timeCellRx ⟨0, 800, 10, 10, 6, 0, 200⟩) timed = timed := by decide

/-- The servo LOCKED with the uplink as its source; then without. -/
def locked : State := timed.onLeaf (fun l => { (l.setFld GlR.TM_STAT_STATE svLocked) with
  time := { l.time with lastUp := some 0, stepPend := some (40, false) } })

theorem test_servo : (let t := after (.sourceTimeout false) locked
     t.leaf.fld GlR.TM_STAT_STATE = svHold ∧
     (let u := after .holdExpiry t
      u.leaf.fld GlR.TM_STAT_STATE = svFree ∧ u.leaf.flag GlR.TM_STAT_LOSTLOCK = true)) ∧
    after .holdExpiry locked = locked ∧
    (let t := after .phaseStep locked
     t.leaf.time.ns = 960 ∧ t.leaf.time.stepPend = none ∧ t.leaf.flag GlR.TM_STAT_STEPPED = true) ∧
    after .phaseStep timed = timed := by decide +kernel

/-- An alarm suppressed. -/
def supped : State := timed.onLeaf (fun l => { l with ul := { l.ul with supp := true } })

theorem test_alarm_credit : after .alarmCredit up = up ∧ supped.leaf.timeRuns = true ∧
    (after .alarmCredit timed).leaf.fld GlR.UL_ALM_CREDIT = min 64 (timed.leaf.fld GlR.UL_ALM_CREDIT + 1) ∧
    (let t := after .alarmCredit supped
     t.leaf.ul.supp = false ∧ (tget t.leaf.ul.queues 0).map (fun q => (q.msg.ty, q.sent)) = [(2, 0)] ∧
     t.leaf.fld GlR.UL_ALM_SEQ = 1) := by decide

/-- One Alarm message of 16 bytes waits; one Control message. -/
def q0 : Queued := { msg := ⟨0, 0, 2, 0, false, List.replicate 16 7⟩, sent := 0, fseq := none, mseq := 3, came := 1 }
def q1 : Queued := { msg := ⟨0, 1, 9, 0, false, List.replicate 16 7⟩, sent := 0, fseq := none, mseq := 3, came := 1 }
def wait0 : State := up.onLeaf (fun l => { l with ul := { l.ul with queues := [(0, [q0]), (1, [q1])] } })
def wait1 : State := up.onLeaf (fun l => { l with ul := { l.ul with queues := [(1, [q1])] } })

theorem test_uplink_start : wait0.leaf.refill.ceilOk 0 q0.cell = true ∧ wait1.leaf.refill.bucketOk 1 q1.cell = true ∧
    wait1.leaf.refill.ceilOk 1 q1.cell = true ∧
    (let t := after (.uplinkCellStart false) wait0
     t.leaf.out.length = 1 ∧ tget t.leaf.ul.queues 0 = [] ∧ tget t.leaf.ul.queues 1 = [q1] ∧
     t.leaf.fld GlR.UL_TXCNT_CELLS = 1) ∧
    (let t := after (.uplinkCellStart false) wait1
     t.leaf.out.length = 1 ∧ tget t.leaf.ul.queues 1 = []) ∧
    (let t := after (.uplinkCellStart true) wait0
     t.leaf.out.map (fun o => match o with | .cell _ x => some x | _ => none) = [some { q0.cell with ccrc := ~~~q0.cell.ccrc }] ∧ t.leaf.fld GlR.EC_STAT_PAR = 1) ∧
    (after (.uplinkCellStart false) up).leaf.out = [] := by decide +kernel

theorem test_shapers : up.leaf.verdict secure 0x3018 true = .pass ∧ up.leaf.verdict secure 0x3000 true = .pass ∧
    (let t := after (.ulShpWrite 1 secure 0x00000400) up
     bits (t.leaf.shp 2) 15 0 = 0x400 ∧ t.leaf.rate 2 = up.leaf.rate 2 ∧ t.leaf.tokens 2 = byteUnits 0x400) ∧
    (after (.ulOvhWrite secure 32) up).leaf.ovh = 32 ∧ after (.ulOvhWrite secure 33) up = up := by decide

/-- A good cell, alone in its message, of the leaf's own fleet ID and of another. -/
def goodCell (f : Word) : Cell := cellSealed ⟨f, 1, true, true, false, 0, 0, 0, 9, [1, 2, 3], 0, 0⟩
def chainMaster : State := up.onLeaf (fun l => l.setFld GlR.CH_STAT_ROLE roleMaster)

theorem test_cells : cellGood (goodCell 0) = true ∧ chainMaster.leaf.isMaster = true ∧ up.leaf.isMaster = false ∧
    chainMaster.leaf.fwdBroken (goodCell 9) = false ∧
    (let t := after (.forwardCell (goodCell 9)) chainMaster
     (tget t.leaf.ul.fwd 1).map (·.cell) = [goodCell 9]) ∧
    after (.forwardCell (goodCell 9)) up = up ∧
    (let s := chainMaster.onLeaf (fun l => { l with ul := { l.ul with fwd := [(1, List.replicate 16 default)] } })
     (after (.forwardCell (goodCell 9)) s).leaf.flag GlR.UL_STAT_FDROP = true) ∧
    (after (.uplinkCellRx (goodCell 0)) up).leaf.ready = [⟨0, 1, 9, 0, false, [1, 2, 3]⟩] ∧
    (after (.uplinkCellRx { goodCell 0 with ccrc := 1 }) up).leaf.ul.rxBad = 1 := by decide

/-! ## The leaf: tables, windows, the Inkline -/

/-- The arming epoch written. -/
def arm4 : State := up.onLeaf (fun l => l.setReg 0x9008 4)

theorem test_arm : up.leaf.verdict secure 0x900C true = .pass ∧
    (let t := after (.armGo secure 0x80000007) arm4
     t.leaf.quill.checking = some (⟨4, 7, 2⟩, none) ∧ t.leaf.armErr ⟨4, 7, 2⟩ = 0 ∧
     (let u := after .armCheckDone t
      u.leaf.quill.arming = some ⟨4, 7, 2⟩ ∧ u.leaf.flag GlR.QL_CTL_ARMED = true ∧
      (let v := after (.sliceWrite 9 secure 0x81234567) u
       tget v.leaf.quill.sliceB 9 = 0x81234400 ∧ v.leaf.quill.arming = none ∧ v.leaf.flag GlR.QL_STAT_DISARM = true))) ∧
    (after (.armGo secure 7) up).leaf.fld GlR.QL_ARM_CFG_CFG_EP = 7 ∧ after .armCheckDone up = up ∧
    up.leaf.verdict secure (0x9400 + 4 * 9) true = .pass := by decide

theorem test_arm_refused :
    (let s := up.onLeaf (fun l => { l with quill := { l.quill with checking := some (⟨0, 7, 5⟩, some ⟨1, 2, 3⟩) } })
     s.leaf.armErr ⟨0, 7, 5⟩ = 1 ∧
     (let t := after .armCheckDone s
      t.leaf.fld GlR.QL_STAT_ARM_ERR = 1 ∧ t.leaf.flag GlR.QL_STAT_ARM_FAIL = true ∧
      (tget t.leaf.ul.queues 1).map (fun q => (q.msg.ty, q.sent)) = [(9, 0)])) := by decide

/-- The window shows page 9 of the inactive bank, page 1 of the active one, page 40 of the directory. -/
def shown (pg : Nat) : State := up.onLeaf (fun l => l.setFld GlR.QL_PAGE_PAGE pg)

theorem test_program_window : up.leaf.verdict secure (0xE000 + 4 * 5) true = .pass ∧ (shown 9).leaf.windowHidden secure = false ∧
    (shown 9).leaf.actBank = false ∧ (shown 9).leaf.isBad (progCw 9 5) = false ∧
    (after (.programWindowWrite 5 secure 77) (shown 9)).leaf.quill.pages = [(2048 * 9 + 5, 77)] ∧
    (after (.programWindowWrite 5 secure 77) (shown 1)).leaf.flag GlR.QL_STAT_ACTWR = true ∧
    (after (.lmDirWrite 5 secure 0x80000006) (shown 40)).leaf.quill.lmLanes = [(1, (5, 0x80000006))] ∧
    (after (.lmDirWrite 5 secure 6) (shown 40)).leaf.quill.pages = [(2048 * 40 + 5, 6)] ∧
    (let s := (shown 40).onLeaf (fun l => { l with quill := { l.quill with lmLanes := (List.range 7).map (fun k => (k + 1, (9, 0))) } })
     (after (.lmDirWrite 5 secure 0x80000006) s).leaf.flag GlR.QL_LM_STAT_BUSY = true) := by decide

/-- A leaf node at node 6, and a directory entry for it under check. -/
def lmRun (w : Word) : State := up.onLeaf (fun l => { (l.setFld GlR.QL_LM_CTL_D 3) with quill := { l.quill with
  lmLanes := [(2, (5, w))], pages := [(2048 * 48 + 12, 0x00020004), (2048 * 48 + 13, 0x3F800000)] } })

theorem test_local_model : (lmRun 0x80000006).leaf.lmCheck 5 0x80000006 = 0 ∧
    (after (.lmCheckDone 2) (lmRun 0x80000006)).leaf.lmDir 5 = 0x80000006 ∧
    (let t := after (.lmCheckDone 2) (lmRun 0xC0000006)
     t.leaf.flag GlR.QL_LM_STAT_CHKFAIL = true ∧ t.leaf.fld GlR.QL_LM_STAT_ERR = 2 ∧ t.leaf.fld GlR.QL_LM_STAT_ETREE = 5) ∧
    after (.lmCheckDone 3) (lmRun 0) = lmRun 0 ∧ up.leaf.verdict secure 0x9024 true = .pass ∧
    (after (.lmCtlWrite 0 secure 0x20000000) up).leaf.lmD = 32 ∧
    (let t := after (.lmCtlWrite 0 secure 0x20000000) treed
     t.leaf.lmD = 3 ∧ t.leaf.flag GlR.QL_LM_STAT_DERR = true) ∧
    (let t := after (.lmCtlWrite 0 secure 0) (after (.lmCtlWrite 2 secure 9) (after (.lmCtlWrite 0 secure 0x80000000) up))
     t.leaf.reg 0x9028 = 9) := by decide

/-- The engine enabled with fleet ID 4, the clock running, at 300 ns; ACT_PN 0. -/
def live : State := timed.onLeaf (fun l => { (l.setFld GlR.QL_CTL_EN 1).setReg 0xC000 4 with time := { l.time with ns := 300 } })
def lived : State := live.onLeaf (fun l => l.setFld GlR.CH_STAT_ROLE roleMaster)

theorem test_instant : lived.leaf.tickMode = false ∧ lived.leaf.idle = false ∧ lived.leaf.nextInstant = lived.leaf.period ∧
    up.leaf.tickMode = true ∧ after .frameInstant up = up ∧ after .windowDeadline up = up ∧
    (let t := after .frameInstant lived
     t.leaf.time.ns = lived.leaf.period ∧
     t.leaf.quill.pend.map (fun w => (w.instant, w.epoch, w.fields)) = [(lived.leaf.period, 0, [])]) := by decide

/-- A window waits; channel 3 of its bank is enabled. -/
def pending1 : State := chan.onLeaf (fun l => { l with quill := { l.quill with win := none, pend := [win] } })

theorem test_window_opens : pending1.leaf.cap.instWait = [] ∧
    (let t := after .captureWindowOpen pending1
     t.leaf.quill.win.map (fun w => (w.instant, w.chan, w.pc, w.exec)) = some (200000, some 3, 0, 0) ∧ t.leaf.quill.pend = []) ∧
    after .captureWindowOpen chan = chan ∧ after .frameClose chan = chan := by decide

/-- The window's channels have had their turn. -/
def ended : State := lived.onLeaf (fun l => { l with quill := { l.quill with win := some { win with chan := none } } })

theorem test_frame_close : (let t := after .frameClose ended
     t.leaf.quill.win = none ∧ t.leaf.fld GlR.QL_STAT_FSEQ = 1 ∧
     (tget t.leaf.ul.queues 2).map (fun q => (q.fseq, q.msg.ty, q.msg.ink)) = [(some 1, 1, 1)] ∧
     (t.leaf.quill.last.map (fun c => (c.instant, c.epoch, c.opened))) = some (200000, 1, true)) := by decide +kernel

theorem test_window_deadline :
    (let s := lived.onLeaf (fun l => { l with quill := { l.quill with win := some win } })
     let t := after .windowDeadline s
     t.leaf.quill.win = none ∧ t.leaf.flag GlR.QL_STAT_DEADLINE = true ∧ 200000 + periodNs 0 - 1000 ≤ t.leaf.time.ns) := by
  decide +kernel

/-- An Inkline to epoch 5 with STOP and a commit of config 9 at 400 ns. -/
def inked (e : Word) : State := lived.onLeaf (fun l => { l with time := { l.time with inks := [⟨e, 400, ⟨true, false, true⟩, 9⟩] } })

theorem test_inkline : (inked 5).leaf.timeRuns = true ∧ 400 ≤ (inked 5).leaf.nextInstant ∧
    (let t := after .inklineTime (inked 5)
     t.leaf.epoch = 5 ∧ t.leaf.time.inks = [] ∧ t.leaf.flag GlR.CH_STAT_STOPPED = true ∧ t.leaf.chain.cfg = 9 ∧
     t.leaf.quill.newEp = true ∧ 400 ≤ t.leaf.time.ns) ∧
    (let t := after .inklineTime (inked 0)
     t.leaf.epoch = 0 ∧ t.leaf.time.inks = []) ∧
    after .inklineTime up = up := by decide +kernel

theorem test_cut_timeout : (let s := lived.onLeaf (fun l => { l with chain := { l.chain with
       cut := some ⟨5, ⟨false, true, false⟩, 1000, 1, 3, 7, 1, 2⟩ } })
     let t := after .cutTimeout s
     t.leaf.chain.cut = none ∧ t.leaf.chain.lastCut = 5 ∧ t.leaf.fld GlR.CH_CUT_MISSING = 1 ∧ t.leaf.time.ns = 401000 ∧
     (tget t.leaf.ul.queues 1).map (fun q => q.msg.ty) = [6]) ∧
    after .cutTimeout lived = lived := by decide +kernel

/-! ## The leaf: the chain -/

/-- A member at position 6 with both ports up and a route by port A, its time base running. -/
def member : State := live.onLeaf (fun l => { ((l.setFld GlR.CH_STAT_ROLE roleMember).setFld GlR.TM_STAT_STATE svLocked) with
  pins := { l.pins with pkgpos := 6 }
  chain := { l.chain with portA := { (default : ReedPort) with st := .up, hops := some 2 }
                          portB := { (default : ReedPort) with st := .up } } })

/-- The same leaf as chain master. -/
def master : State := member.onLeaf (fun l => l.setFld GlR.CH_STAT_ROLE roleMaster)

theorem test_reed_down : member.leaf.wired false = true ∧ member.leaf.isUp true = true ∧
    (∀ i ∈ [Instr.reedStall false none, .reedRailError false none],
      let t := after i member
      (t.leaf.port false).st = .down ∧ (t.leaf.port true).st = .up ∧ t.leaf.fld (GlR.CH_ERR_DOWNS.at 0) = 1 ∧
      t.leaf.fld GlR.CH_STAT_ROLE = roleMember ∧
      (after (.reedStall true none) t).leaf.fld GlR.CH_STAT_ROLE = roleIsolated) ∧
    (let s := member.onLeaf (fun l => { l with pins := { l.pins with reedcon := 1 } })
     s.leaf.wired true = false ∧ after (.reedStall true none) s = s ∧ after (.reedTrainRetry true) s = s) := by decide +kernel

/-- HELLO of a neighbour. -/
def hello (v : Byte) : HelloMsg := { (default : HelloMsg) with fleet := 7, version := v }

theorem test_reed_hello : up.leaf.isUp false = false ∧
    (let t := after (.reedTrainRetry false) up
     (t.leaf.port false).st = .train ∧ (t.leaf.port false).sent = true ∧ t.leaf.out.length = 1) ∧
    (let v : Byte := BitVec.ofNat 8 (16 * up.leaf.fld GlR.IDENT_VERSION_MAJOR)
     let t := after (.reedHello false (hello v) true) up
     (t.leaf.port false).st = .up ∧ t.leaf.reg 0x2040 = 7 ∧
     (let u := after (.reedHello false (hello (v + 16)) true) up
      (u.leaf.port false).st = .down ∧ u.leaf.flag GlR.CH_STAT_MAJOR_ERR = true)) ∧
    (after (.reedHello true (hello 0) false) up).leaf.fld (GlR.CH_ERR_CRC.at 4) = 1 := by decide

theorem test_reed_hop : (let t := after (.reedHop true 100 true true 700 9) member
     (t.leaf.port true).toward = true ∧ (t.leaf.port true).nbrZ = 100 ∧ (t.leaf.port true).zs = [9] ∧
     (t.leaf.port true).meas = [300]) ∧
    (let t := after (.reedHop true 100 true false 700 9) member
     (t.leaf.port true).meas = [] ∧ t.leaf.fld (GlR.CH_ERR_CRC.at 4) = 1) ∧
    after (.reedHop true 100 true true 700 9) up = up := by decide

/-- A TICK that has come two hops. -/
def tick2 : TickMsg := { (default : TickMsg) with time := 100000, hops := 2 }

theorem test_reed_tick : member.leaf.tickMode = false ∧
    (let t := after (.reedTick true tick2 true 0 0 0) member
     (t.leaf.port true).hops = some 3 ∧
     t.leaf.out.getLast?.map (fun o => match o with | .reed false (.tick m) false => m.hops | _ => 99) = some 3) ∧
    after (.reedTick true tick2 true 0 0 0) up = up := by decide

theorem test_reed_tick_master :
    (let t := after .tickSend master
     t.leaf.chain.tickSent = 50000 ∧ t.leaf.time.ns = 50000 ∧ t.leaf.out.length = 6 ∧
     (after (.reedTick true { tick2 with time := 50000 } true 0 0 0) t).leaf.flag GlR.CH_STAT_RING = true ∧
     (after (.reedTick true tick2 true 0 0 0) t).leaf.flag GlR.CH_STAT_RING = false) ∧
    after .tickSend member = member ∧
    (after (.routeTimeout false) member).leaf.chain.portA.hops = none ∧
    (after (.routeTimeout false) (master.onLeaf (fun l => l.setFld GlR.CH_STAT_RING 1))).leaf.flag GlR.CH_STAT_RING = false := by
  decide +kernel

/-- An election that this leaf has named itself in; one that it knows a candidate of priority 3 in. -/
def electing : State := member.onLeaf (fun l => { (l.setFld GlR.CH_STAT_ROLE roleElecting) with
  chain := { l.chain with selfNamed := true, cand := some (3, 6), elEpoch := 8, elCfg := 2 } })

theorem test_election_starts : (after .masterLoss member).leaf.fld GlR.CH_STAT_ROLE = roleElecting ∧
    after .masterLoss master = master ∧ (after (.reedAbdicate true 9 true) member).leaf.fld GlR.CH_STAT_ROLE = roleElecting ∧
    after (.reedAbdicate true 9 true) master = master ∧ master.leaf.verdict secure 0x2000 true = .pass ∧
    (let t := after (.abdicateWrite secure 0x50000001) master
     t.leaf.fld GlR.CH_STAT_ROLE = roleElecting ∧ t.leaf.chain.abdWrite = some master.leaf.time.clk ∧
     (let u := after .abdicateTimeout t
      u.leaf.chain.abdWrite = none ∧ t.leaf.time.clk + 310000 ≤ u.leaf.time.clk)) ∧
    (after (.abdicateWrite secure 0x50000001) member).leaf.fld GlR.CH_CTL_MPRI = 5 ∧
    (let s := master.onLeaf (fun l => { l with ul := { l.ul with queues := [(1, [q1])] } })
     s.leaf.holdsCell = true ∧ (after .uplinkStallAbdicate s).leaf.chain.abdStall = true) ∧
    after .uplinkStallAbdicate master = master := by decide +kernel

theorem test_election : (let t := after .electionSettle electing
     t.leaf.isMaster = true ∧ t.leaf.epoch = 8 ∧ t.leaf.chain.cfg = 2 ∧ t.leaf.reg 0x2008 = 4 ∧ 100000 ≤ t.leaf.time.clk) ∧
    after .electionSettle member = member ∧
    (let t := after (.reedElect true ⟨9, 4, 7, 0, 0⟩ true) electing
     t.leaf.chain.cand = some (4, 9) ∧ t.leaf.chain.elEpoch = 8) ∧
    (after (.reedElect true ⟨9, 3, 9, 0, 0⟩ true) electing).leaf.chain.cand = some (3, 6) ∧
    (after (.reedElect true ⟨9, 4, 7, 0, 0⟩ false) electing).leaf.fld (GlR.CH_ERR_CRC.at 4) = 1 ∧
    (after (.reedElect true ⟨9, 4, 7, 0, 0⟩ true) member).leaf.out.length = 1 := by decide +kernel

/-- STATE of a master at position 2 with epoch 9. -/
def state9 : StateMsg := { (default : StateMsg) with mpos := 2, mfleet := 11, epoch := 9, effMin := 1, lastCut := 6 }

theorem test_state : (let t := after (.reedState true state9 true) member
     t.leaf.fld GlR.CH_STAT_MPOS = 2 ∧ t.leaf.reg 0x2008 = 11 ∧ t.leaf.epoch = 9 ∧ t.leaf.flag GlR.CH_CUT_CATCHUP = true ∧
     t.leaf.chain.lastCut = 6 ∧ t.leaf.out.getLast? = some (.reed false (.state state9) false)) ∧
    (let s := member.onLeaf (fun l => l.setReg 0x200C 12)
     let t := after (.reedState true state9 true) s
     t.leaf.epoch = 12 ∧ t.leaf.flag GlR.CH_STAT_AHEAD = true) ∧
    (let t := after (.reedState true state9 false) member
     t.leaf.out = [.reed false (.state state9) true] ∧ t.leaf.fld (GlR.CH_ERR_CRC.at 4) = 1) := by decide +kernel

/-- REPORT of position 9. -/
def report9 : ReportMsg := { (default : ReportMsg) with pos := 9, fleet := 30 }
def knows9 : State := after (.reedReport true report9 true) master

theorem test_report : (tblLookup knows9.leaf.chain.members 9).map (·.report) = some report9 ∧
    (after (.reedReport true report9 false) member).leaf.out = [.reed false (.report report9) true] ∧
    member.leaf.route = some false ∧ (after .reportSend member).leaf.out.length = 1 ∧
    after .reportSend master = master := by decide +kernel

theorem test_reed_ink : (let t := after (.reedInk true ⟨9, 500, ⟨false, true, false⟩, 0⟩ true) member
     t.leaf.time.inks = [⟨9, 500, ⟨false, true, false⟩, 0⟩] ∧ t.leaf.out.length = 1) ∧
    (let s := member.onLeaf (fun l => l.setReg 0x200C 12)
     (after (.reedInk true ⟨9, 500, ⟨false, true, false⟩, 0⟩ true) s).leaf.fld GlR.CH_CUT_REFUSED = 1) ∧
    after (.reedInk true ⟨9, 500, ⟨false, true, false⟩, 0⟩ true) master = master := by decide +kernel

/-- A lease of 5 epochs from 40, and a time that is far enough away. -/
def leased : State := master.onLeaf (fun l => (((l.setFld GlR.CH_INK_CTL_LEASE_LEFT 5).setReg 0x2020 40).setReg 0x2018 200000))

theorem test_ink_go : leased.leaf.verdict secure 0x2014 true = .pass ∧ leased.leaf.time.ns + 20000 ≤ 200000 ∧
    (let t := after (.inkGo secure 0x90000000) leased
     t.leaf.reg 0x2020 = 41 ∧ t.leaf.fld GlR.CH_INK_CTL_LEASE_LEFT = 4 ∧ t.leaf.out.length = 2 ∧
     t.leaf.chain.repeats.map (fun r => (r.1.epoch, r.1.time.toNat, r.2)) = [(40, 225000, 625000)]) ∧
    (let t := after (.inkGo secure 0x90000000) master
     t.leaf.fld GlR.CH_CUT_REFUSED = 1 ∧ t.leaf.reg 0x2020 = 0) := by decide +kernel

theorem test_flush : (after (.reedFlush true true 0) member).leaf.flushHas true true 0 = true ∧
    after (.reedFlush true true 5) member = member ∧ after (.reedFlush true true 0) up = up ∧
    after (.reedFlushSend true) member = member ∧
    (let s := member.onLeaf (fun l => { l with chain := { l.chain with flushDue := [(true, 0)], flushGot := [(true, true, 0)] } })
     s.leaf.flushReady true 0 = true ∧
     (let t := after (.reedFlushSend true) s
      t.leaf.out = [.reed false (.flush true 0) false] ∧ t.leaf.chain.flushDue = [])) ∧
    (let s := master.onLeaf (fun l => { l with chain := { l.chain with flushDue := [(false, 0)] } })
     (after (.reedFlushSend false) s).leaf.out = [.reed false (.flush false 0) false]) := by decide +kernel

/-- An alarm of position 9. -/
def alarm9 : AlarmMsg := { (default : AlarmMsg) with pos := 9, code := 0x150, aseq := 3 }

theorem test_reed_alarm : (after (.reedAlarm true alarm9 false) member).leaf.out = [.reed false (.alarm alarm9) true] ∧
    knows9.leaf.alarmSeen 30 3 = false ∧
    (let t := after (.reedAlarm true alarm9 true) knows9
     (tget t.leaf.ul.queues 0).map (fun q => (q.msg.ty, q.sent)) = [(2, 0)] ∧ t.leaf.alarmSeen 30 3 = true ∧
     after (.reedAlarm true alarm9 true) t = t) ∧
    after (.reedAlarm true alarm9 true) up = up := by decide +kernel

/-- A wave of the instant 200000. -/
def wave2 : WaveMsg := { (default : WaveMsg) with tstamp := 200000 }
def contrib : Contribution := { instant := 200000, opened := true, epoch := 0, cfg := 0, untimed := false, waves := [], wdrop := false
                                used := false }

theorem test_wave_member :
    (let s := member.onLeaf (fun l => { l with quill := { l.quill with win := some win } })
     s.leaf.waveWait 200000 = none ∧
     (let t := after (.reedWave true wave2 false) s
      t.leaf.chain.heldWave = some (true, wave2, true) ∧ t.leaf.out = [])) ∧
    (let s := member.onLeaf (fun l => { l with quill := { l.quill with last := some contrib } })
     s.leaf.waveWait 200000 = some (some contrib) ∧
     (let t := after (.reedWave true wave2 false) s
      t.leaf.out.length = 1 ∧ t.leaf.fld GlR.CH_WAVE_WAVES = 1)) ∧
    member.leaf.waveWait 0xFFFFF000 = some none ∧
    after (.reedWave true wave2 true) up = up := by decide +kernel

theorem test_wave_master : after (.reedWave true wave2 true) master = master ∧
    (let s := master.onLeaf (fun l => { l with chain := { l.chain with waveOut := some (contrib, 1, none) } })
     let t := after (.reedWave true wave2 true) s
     t.leaf.chain.waveOut = none ∧ t.leaf.fld GlR.CH_WAVE_WAVES = 1 ∧
     (tget t.leaf.ul.queues 2).map (fun q => (q.msg.ty, q.sent)) = [(5, 0)]) ∧
    (tget (after .registrationTimer up).leaf.ul.queues 1).map (fun q => q.msg.ty) = [7] ∧
    after .registrationTimer member = member := by decide +kernel

/-! ## The leaf: records, the Peat log, scrub, configuration -/

/-- The fleet ID committed; the log of fleet IDs full. -/
def stored7 : State := after (.peatLogWrite .fleet secure 7 []) up
def fullLog : State := up.onLeaf (fun l => { l with peat := { l.peat with oos := List.replicate 200 (.committed 0) } })

theorem test_peat : (∀ r ∈ [PeatReg.fleet, .oos, .trim, .seed], up.leaf.verdict secure (peatOff r) true = .pass) ∧
    stored7.leaf.peat.slots .fleet = [.committed 7] ∧ stored7.leaf.peatValue .fleet = 7 ∧
    stored7.leaf.fld GlR.PT_STAT_LAST_RES = 0 ∧
    (let t := after (.peatLogWrite .fleet secure 7 []) stored7
     t.leaf.peat = stored7.leaf.peat ∧ t.leaf.fld GlR.PT_STAT_LAST_RES = 1) ∧
    fullLog.leaf.peatFree .oos = 0 ∧ peatAsked fullLog.leaf .oos 3 ≠ fullLog.leaf.peatValue .oos ∧
    (after (.peatLogWrite .oos secure 3 []) fullLog).leaf.fld GlR.PT_STAT_LAST_RES = 2 ∧
    after (.peatLogWrite .health secure 7 []) up = up := by decide +kernel

/-- Recorder 1 holds records 5 and 9. -/
def rec5 : InkRec := { (default : InkRec) with seq := 5, code := 0x20 }
def rec9 : InkRec := { (default : InkRec) with seq := 9, code := 0x21 }
def recorded : State := up.onLeaf (fun l => { (l.setFld GlR.IW_CTL_REC 1) with
  iw := { l.iw with recs := [(1, { (default : Recorder) with first := [rec5, rec9], last := 9 })] } })

theorem test_recorders : up.leaf.verdict secure 0xB000 true = .pass ∧ up.leaf.verdict secure 0xB004 true = .pass ∧
    (let t := after (.iwCursorWrite .leaf secure 5) recorded
     t.leaf.fld GlR.IW_CURSOR_SEQ = 5 ∧ t.leaf.iw.window = inkBytes false 1 rec5 ∧ t.leaf.fld GlR.IW_STAT_RES = 0 ∧
     (let u := after (.iwNext .leaf secure 0x01000000) t
      u.leaf.fld GlR.IW_CURSOR_SEQ = 9 ∧ u.leaf.iw.window = inkBytes false 1 rec9 ∧
      (after (.iwNext .leaf secure 0x01000000) u).leaf.fld GlR.IW_STAT_RES = 1)) ∧
    (let t := after (.iwCursorWrite .leaf secure 6) recorded
     t.leaf.fld GlR.IW_STAT_RES = 1 ∧ t.leaf.iw.window = []) := by decide +kernel

theorem test_dump : (let t := after (.iwDump secure 0x01000000) recorded
     t.leaf.iw.dumps.map (fun d => (d.recNo, d.id, d.reason)) = [(1, 0, 2)] ∧ t.leaf.iw.dumpId = 1 ∧
     (tget (after .historyDumpMessage t).leaf.ul.queues 4).map (fun q => q.msg.ty) = [0x0C]) ∧
    (let s := recorded.onLeaf (fun l => { l with iw := { l.iw with dumps := List.replicate 5 default } })
     (after (.iwDump secure 0x01000000) s).leaf.flag GlR.IW_STAT_DREFUSED = true) ∧
    after .historyDumpMessage up = up := by decide +kernel

/-- Stored bytes of zeros with `n` symbols changed. -/
def rawOf (n : Nat) : List Byte := List.replicate n 1 ++ List.replicate (36 - n) 0

theorem test_scrub : symDecode 0 (rawOf 0) = .clean ∧ symDecode 0 (rawOf 1) = .corrected 0 (List.replicate 32 0) ∧
    symDecode 0 (rawOf 3) = .uncorrectable ∧
    (let t := after (.scrubRead (.leaf (.prog 0 0)) (rawOf 1) false) up
     t.leaf.fld GlR.EC_STAT_CE = 1 ∧ t.leaf.ecc.ptr = 1 ∧ t.leaf.isBad (.prog 0 0) = false) ∧
    (let t := after (.scrubRead (.leaf (.prog 0 0)) (rawOf 3) false) up
     t.leaf.fld GlR.EC_STAT_UE = 1 ∧ t.leaf.isBad (.prog 0 0) = true) ∧
    (let t := after (.scrubRead (.leaf (.prog 0 0)) (rawOf 1) true) up
     t.leaf.fld GlR.EC_STAT_CE = 1 ∧ t.leaf.isBad (.prog 0 0) = true ∧ t.leaf.fld GlR.EC_STAT_PAR = 1) ∧
    (let s := up.onLeaf (fun l => { l with ecc := { l.ecc with ptr := 65535 } })
     let t := after (.scrubRead (.leaf (.prog 0 0)) (rawOf 0) false) s
     t.leaf.ecc.ptr = 0 ∧ t.leaf.fld GlR.EC_SCRUB_PASSES = 1) := by decide +kernel

theorem test_scrub_pz : up.pz.hl.sram = 0 ∧
    (let s := { up with pz := { up.pz with hl := { up.pz.hl with sram := 0x400000 } } }
     s.pz.exists? (32 * 0x400000) = true ∧
     ((List.range 3).map (fun n => match symDecode 0x400000 (rawOf n) with | .corrected _ _ => 1 | .clean => 0 | _ => 2)) ≠ [] ∧
     (after (.scrubRead .sram (rawOf 3) false) s).pz.hl.sram = 0x400001) ∧
    (after (.scrubRead .dram (rawOf 0) false) up).pz.hl.dram = (if 1 < up.pz.dramSize / 32 then 1 else 0) := by decide +kernel

/-- A head of a configuration message from the tray with the tag 5. -/
def head (n : BitVec 16) : CtlHead := { tag := 5, cseq := n, cfg := 3, sender := 100 }
def ack (ty : Byte) (t : State) : Bool := (tget t.leaf.ul.queues 1).any (fun q => q.msg.ty == ty)

theorem test_copies :
    (∀ op ∈ ([1, 2, 3, 4, 5, 6, 7, 0xF] : List Nat),
      let s := up.onLeaf (fun l => { l with ctl := { l.ctl with acted := [⟨100, 8, op, 3, some (0, 0)⟩] } })
      s.leaf.ctl.acted.find? (fun x => x.isOf (head 8) op) = some ⟨100, 8, op, 3, some (0, 0)⟩) ∧
    (let s := up.onLeaf (fun l => { l with ctl := { l.ctl with acted := [⟨100, 8, 1, 3, some (0, 0)⟩] } })
     let t := after (.ctlWrite (head 8) [.write 0x404 [9]]) s
     ack 9 t = true ∧ t.leaf.regs = s.leaf.regs) := by decide +kernel

theorem test_ctl_write : freshMsg up (head 8) 1 ∧ recordBarred 0x404 = true ∧ recordBarred 0x9000 = false ∧
    up.leaf.verdict Port.record 0x9008 true = .pass ∧ recordBarred 0x9008 = false ∧
    (let t := after (.ctlWrite (head 8) [.write 0x9008 [77]]) up
     t.leaf.reg 0x9008 = 77 ∧ ack 9 t = true) := by unfold freshMsg; decide +kernel

theorem test_ctl_arm_ink : (let t := after (.ctlArm (head 8) 6 2 false true) up
     t.leaf.quill.checking = some (⟨0x40000000, 3, 2⟩, some ⟨8, 100, 3⟩) ∧ t.leaf.ul = up.leaf.ul) ∧
    (let t := after (.ctlInk .leaf (head 8) ⟨9, 500, ⟨false, true, false⟩, 0⟩) member
     t.leaf.time.inks = [⟨9, 500, ⟨false, true, false⟩, 0⟩] ∧ ack 9 t = true) ∧
    (let t := after (.ctlLease .leaf (head 8) true 40 300) master
     t.leaf.reg 0x2020 = 40 ∧ t.leaf.fld GlR.CH_INK_CTL_LEASE_LEFT = 255 ∧ ack 9 t = true) ∧
    (let t := after (.ctlKeepalive .leaf (head 8) 0 0) master
     t.leaf.ctl.tray = some 100 ∧ ack 8 t = true) := by decide +kernel

/-- The leaf owned by tag 5, with fleet ID 4. -/
def owned : State := after (.ctlAssign (head 8) 4 true 2) live

theorem test_ownership : live.leaf.named 4 = true ∧ owned.leaf.jobTag = 5 ∧ owned.leaf.fld GlR.CH_JOB_PHASE = 1 ∧
    owned.leaf.fld GlR.CH_JOB_PCODE = 2 ∧ ack 9 owned = true ∧
    (after (.ctlTeardown (head 9) 4 6) owned).leaf.ctl.teardown = some ⟨6, 9, 100⟩ ∧
    (let t := after (.ctlTeardown (head 9) 4 0) owned
     t.leaf.flag GlR.QL_CTL_EN = false ∧ t.leaf.flag GlR.CH_JOB_TD = true) ∧
    (let t := after (.ctlTeardown { head 9 with tag := 6 } 4 0) owned
     t.leaf.regs = owned.leaf.regs ∧ t.leaf.ctl.teardown = none) ∧ live.leaf.named 9 = false := by decide +kernel

theorem test_grants : (after (.ctlTgrant (head 9) 6 2 false 50) tested).leaf.test.grants = [(2, some ⟨6, 50⟩)] ∧
    (after (.ctlTgrant (head 9) 6 2 true 50) tested).leaf.test.allGrant = some ⟨6, 50⟩ ∧
    (after (.ctlTgrant (head 9) 0 2 true 50) tested).leaf.fld GlR.TS_STAT_IGNORED = 1 ∧
    (after (.fenceNoticeRx true 0) up).leaf.ctl.fenced = true ∧
    (after (.fenceNoticeRx true 6) up).leaf.ctl.fencePend = some (6, true) ∧
    (let t := after (.ctlSubmaster (head 9) 77) master
     t.leaf.chain.subOf = some 77 ∧ t.leaf.flag GlR.CH_STAT_SUB = true) := by decide +kernel

/-- A configuration message of the leaf that has not been acknowledged. -/
def asking : State := up.onLeaf (fun l => { l with ctl := { l.ctl with asked := [(4, ⟨0, 1, 9, 0, false, [1]⟩)] } })

theorem test_acks : (after (.configAckRx .leaf ⟨0, 0, 4, 0, 0, 0, 0, 0, []⟩) asking).leaf.ctl.asked = [] ∧
    (tget (after (.configRepeat .leaf 0 4) asking).leaf.ul.queues 1).map (·.msg) = [⟨0, 1, 9, 0, false, [1]⟩] ∧
    after (.configRepeat .leaf 0 5) asking = asking ∧ after (.memberProbeRx 30) member = member ∧
    ack 7 (after (.memberProbeRx 30) knows9) = true := by decide +kernel

/-! ## Polornaz: power, heat, links, sideband -/

/-- A state over `up` with Polornaz changed. -/
def pzOf (f : Pz → Pz) : State := { up with pz := f up.pz }

/-- GOV LEVEL 10 and CEIL 64, a power cap of 300 W. -/
def governed : State := pzOf (fun z => ((z.setFld PzR.GOV_STAT_LEVEL 10).setFld PzR.THERM_STAT_CEIL 64).setFld PzR.GOV_CTL_PCAP 300)

theorem test_governor : governed.pz.runs = true ∧ governed.pz.pcap = 300 ∧
    (after (.govStep 20 299) governed).pz.fld PzR.GOV_STAT_LEVEL = 11 ∧
    (let t := after (.govStep 20 300) governed
     t.pz.fld PzR.GOV_STAT_LEVEL = 10 ∧ t.pz.flag PzR.GOV_STAT_PCAP_HIT = true) ∧
    (let t := after (.govStep 5 100) governed
     t.pz.fld PzR.GOV_STAT_LEVEL = 9 ∧ t.pz.flag PzR.GOV_STAT_BALLAST = true) ∧
    (after (.govStep 10 100) governed).pz.fld PzR.GOV_STAT_LEVEL = 10 ∧
    after (.govStep 20 100) State.reset = State.reset := by decide +kernel

theorem test_speed : up.pz.dieOk 3 = true ∧
    (let t := after (.speedMonitor 3 0xFF) up
     t.pz.fld (PzR.SPD_RATIO.at 12) = 0xFF ∧ t.pz.flag PzR.PKG_STAT_BELOW_FLOOR = true) ∧
    (let t := after (.speedMonitor 3 0x100) up
     t.pz.fld (PzR.SPD_RATIO.at 12) = 0x100 ∧ t.pz.alarmQ = up.pz.alarmQ) ∧
    after (.speedMonitor 3 0x100) State.reset = State.reset := by decide +kernel

theorem test_temperature :
    (let t := after (.tempSample ([20, 30, 116, 0xF6] ++ List.replicate 14 25)) up
     t.pz.temp 2 = 116 ∧ t.pz.temp 3 = -10 ∧ t.pz.fld PzR.THERM_STAT_TMAX = 116 ∧ t.pz.fld PzR.THERM_STAT_HOTDIE = 2 ∧
     t.pz.flag PzR.THERM_STAT_HOT = true ∧ t.pz.pins.tripN = false ∧
     (let u := after .thermTripShutdown { t with pz := t.pz.setFld PzR.PWR_STAT_EN 0x7F }
      u.pz.fld PzR.PWR_STAT_EN = 0 ∧ u.pz.fld PzR.RST_STAT_CAUSE = 4 ∧ u.pz.runs = false)) ∧
    after .thermTripShutdown up = up := by decide +kernel

/-- TJ_THR 90, CEIL 40 and every die at 0 but die 5. -/
def die5 (n : Nat) : State := pzOf (fun z =>
  ((z.setFld PzR.THERM_CTL_TJ_THR 90).setFld PzR.THERM_STAT_CEIL 40).setFld (PzR.TEMP_TEMP.at 20) n)

theorem test_ceiling : (after .ceilStep (die5 87)).pz.fld PzR.THERM_STAT_CEIL = 41 ∧
    (after .ceilStep (die5 88)).pz.fld PzR.THERM_STAT_CEIL = 40 ∧
    (after .ceilStep (die5 90)).pz.fld PzR.THERM_STAT_CEIL = 39 ∧
    (after .ceilStep (die5 90)).pz.flag PzR.THERM_STAT_THROTTLE = true ∧ after .ceilStep State.reset = State.reset := by
  decide +kernel

/-- Polornaz at a step of the sequence, with rails enabled and good. -/
def atStep (n en pg : Nat) : State := pzOf (fun z =>
  ((z.setFld PzR.PWR_STAT_STEP n).setFld PzR.PWR_STAT_EN en).setFld PzR.PWR_STAT_PG pg)

theorem test_power_good :
    (let t := after (.railPowerGood 0) (atStep 3 1 0)
     t.pz.step = 4 ∧ t.pz.fld PzR.PWR_STAT_PG = 1 ∧ t.pz.fld PzR.PWR_STAT_EN = 3 ∧
     (let u := after (.railPowerGood 1) t
      u.pz.step = 5 ∧ after (.railPowerGood 1) u = u)) ∧
    after (.railPowerGood 2) (atStep 3 1 0) = atStep 3 1 0 := by decide +kernel

theorem test_power_steps : up.pz.pins.porN = true ∧
    (after (.powerUpStepDone 0xFFFF 3 0xFFFFFF) (atStep 2 0 0)).pz.step = 3 ∧
    (let t := after (.powerUpStepDone 0x7FFF 1 0xFFFFFF) (atStep 5 3 3)
     t.pz.step = 6 ∧ t.pz.fld PzR.PKG_STAT_DIE_OK = 0x7FFF ∧ t.pz.fld PzR.PKG_STAT_KEEPER_OK = 1 ∧
     t.pz.fld PzR.PWR_STAT_EN = 7) ∧
    (after (.powerUpStepDone 0xFFFF 3 0xFFFFFF) (atStep 6 7 7)).pz.step = 7 ∧
    after (.powerUpStepDone 0xFFFF 3 0xFFFFFF) (atStep 6 7 3) = atStep 6 7 3 ∧
    (after (.powerUpStepDone 0xFFFF 3 0xFFFFFF) (atStep 7 31 31)).pz.step = 8 ∧
    (let t := after (.powerUpStepDone 0xFFFF 3 0xFFFFFE) (atStep 8 127 127)
     t.pz.step = 9 ∧ t.pz.fld PzR.DDR_STAT_TRAINED = 0xFFFFFE) ∧
    (let t := after (.powerUpStepDone 0xFFFF 3 0) (atStep 9 127 127)
     t.pz.step = 10 ∧ t.pz.flag PzR.PWR_STAT_UP = true) := by decide +kernel

theorem test_rail_fault : (let t := after (.railFault 2) (atStep 10 127 127)
     t.pz.fld PzR.PWR_STAT_EN = 0 ∧ t.pz.fld PzR.PWR_STAT_PG = 0 ∧ t.pz.fld PzR.RST_STAT_CAUSE = 5 ∧
     t.pz.fld PzR.RST_STAT_RAILF = 4 ∧ t.pz.pins.railLow = true ∧ t.pz.runs = false) ∧
    after (.railFault 2) up = up := by decide +kernel

theorem test_pz_reset : (let t := after .pzPorFall run
     t.pz.regs = [] ∧ t.pz.slots = [] ∧ t.pz.mem = [] ∧ t.pz.pins.porN = false ∧
     (let u := after (.pzPorRise true []) t
      u.pz.step = 2 ∧ u.pz.fld PzR.RST_STAT_CAUSE = 1 ∧ u.pz.pins.porN = true ∧ after (.pzPorRise true []) u = u) ∧
     (after (.pzPorRise false []) t).pz.fld PzR.RST_STAT_CAUSE = 2) ∧
    (let s := { run with pz := run.pz.setFld PzR.PWR_STAT_EN 127 }
     let t := after (.pzWarmReset 0x7FFF []) s
     t.pz.fld PzR.RST_STAT_CAUSE = 3 ∧ t.pz.slots = [] ∧ t.pz.ctxs = [] ∧ t.pz.fld PzR.PKG_STAT_DIE_OK = 0x7FFF) ∧
    after (.pzWarmReset 0x7FFF []) run = run := by decide +kernel

theorem test_endpoint : (let t := after (.pcieLinkChange false false true false) up
     t.pz.pins.pcieUp = false ∧ t.pz.pins.d3hot = true) ∧
    (let t := after .perstAssert up
     t.pz.pins.perstN = false ∧ t.pz.flag PzR.RST_STAT_PERST = true ∧ t.pz.pins.busMaster = false ∧
     after .perstAssert t = t ∧ after (.pcieLinkChange true true false true) t = t ∧
     (after .perstRelease t).pz.pins.perstN = true) := by decide +kernel

/-- Port 4 in a mode, down; port 16 up. -/
def ported : State := pzOf (fun z => (z.setFld (PzR.PORT_CFG_MODE.at 32) 3).setFld (PzR.PORT_STAT_LINK.at 128) 1)

theorem test_links : ported.pz.linkUp 16 = true ∧ ported.pz.linkUp 4 = false ∧ ported.pz.portOn 4 = true ∧ ported.pz.dieOk 4 = true ∧
    (let t := after (.linkUp 4) ported
     t.pz.linkUp 4 = true ∧
     (let u := after (.linkDrop 4) t
      u.pz.linkUp 4 = false ∧ u.pz.linkUp 16 = true ∧ u.pz.fld (PzR.PORT_STAT_DOWNS.at 32) = 1)) ∧
    after (.linkUp 16) ported = ported ∧ after (.linkDrop 4) ported = ported ∧
    (let t := after .pzRefclkLost ported
     t.pz.linkUp 16 = false ∧ t.pz.fld (PzR.PORT_STAT_DOWNS.at 128) = 1 ∧ (after .pzRefclkReturn t).pz.pins.refclk = true) := by
  decide +kernel

/-- A requester over PCIe that is not on the sideband. -/
def pcie : Port := { ns := false, src := 0, size := 2, side := false }

theorem test_mesh_mode : (let t := after (.meshLinkDown 1 5 [(1, 5, 3)]) up
     t.pz.hl.mesh = [(1, 5)] ∧ t.pz.flag PzR.PKG_STAT_MESH_DEG = true ∧
     (tget t.pz.iw.recs 0).last = seqNext (tget up.pz.iw.recs 0).last) ∧
    (after (.meshLinkDown 1 5 []) up).pz.iw = up.pz.iw ∧ after (.meshLinkDown 1 6 []) up = up ∧
    up.pz.flag PzR.SEC_VIEW_ALIAS_OFF = false ∧ up.pz.verdict pcie (viewAddr pcie (0x50800 + 8 * 16)) = .pass ∧
    (let t := after (.portModeWrite 4 pcie 0x20000000) ported
     t.pz.fld (PzR.PORT_CFG_MODE.at 32) = 1 ∧ t.pz.fld (PzR.PORT_STAT_DOWNS.at 32) = 1) ∧
    after (.portModeWrite 16 pcie 0x40000000) ported = ported ∧
    (after (.portModeWrite 16 pcie 0x60000000) ported).pz.linkUp 16 = false := by decide +kernel

theorem test_jtag : 3 ≤ up.pz.step ∧ (after .jtagExtest up).pz.pins.jtag = 3 ∧
    (after .jtagIdcode up).pz.out = [.jtag 0x30D2056D] ∧
    (let t := after (.jtagSamplePreload 7 9) up
     t.pz.pins.boundary = 9 ∧ t.pz.out = [.jtag 7]) ∧
    (∀ i ∈ [Instr.jtagBypass, .jtagIdcode, .i3cGetpid, .i3cEntdaa 8], after i State.reset = State.reset) := by decide +kernel

theorem test_i3c : (let t := after (.i3cSetdasa 0x58 9) up
     t.pz.i3c.dyn = some 9 ∧ after (.i3cEntdaa 8) t = t ∧ (after (.i3cSetnewda 10) t).pz.i3c.dyn = some 10 ∧
     (after .i3cRstdaa t).pz.i3c.dyn = none) ∧
    after (.i3cSetdasa 0x59 9) up = up ∧
    (let t := after (.i3cEntdaa 8) up
     t.pz.i3c.dyn = some 8 ∧ t.pz.out.length = 1) ∧
    (after .i3cEnec up).pz.i3c.ibi = true ∧ (after .i3cDisec up).pz.i3c.ibi = false := by decide +kernel

theorem test_i3c_registers : (after (.i3cRegisterRead 0x4000000) up).pz.out = [.i3c [0, 0, 0, 0, 1]] ∧
    after (.i3cRegisterWrite 0x4000000 5) up = up ∧ up.pz.blockUp 0x10200 = true ∧ up.pz.blockUp 0x60000 = true ∧
    (let t := after (.i3cRegisterWrite 0x10200 0xFFFFFFFF) up
     ∀ r ∈ (findRow pzRows 0x10200).toList, ∀ f ∈ r.flds, bits (t.pz.reg 0x10200).toNat f.hi f.lo =
       writtenBits f (up.pz.reg 0x10200).toNat 0xFFFFFFFF) ∧
    (let s := pzOf (fun z => z.setFld PzR.PKG_STAT_DIE_OK 0)
     s.pz.blockUp 0x60000 = false ∧ (after (.i3cRegisterRead 0x60000) s).pz.out = [.i3c [0, 0, 0, 0, 2]] ∧
     after (.i3cRegisterWrite 0x60000 5) s = s) := by decide +kernel

/-! ## Polornaz: time -/

/-- A master on port 4 and a slave on U0; a tray with a leaf on port 4. -/
def timer : State := pzOf (fun z =>
  let z := ((z.setFld (PzR.PORT_STAT_LINK.at 32) 1).setFld (PzR.PORT_STAT_LINK.at 128) 1).setFld PzR.PKG_CTL_ROLE 1
  z.setPtp 16 false (fun p => { p with st := .slave, mpd := 32 }))

theorem test_ptp_send : timer.pz.ptpState 4 false = .master ∧ timer.pz.ptpState 16 false = .slave ∧
    (let t := after (.ptpSyncSend 4 false 77) timer
     t.pz.out = [.ptp 4 false (.sync 0 77)] ∧ (t.pz.ptp 4 false).seq = 1) ∧
    (after (.ptpAnnounceSend 4 false) timer).pz.out.length = 1 ∧
    (after (.ptpDelayReqRx 4 false 5 9 88) timer).pz.out = [.ptp 4 false (.delayResp 5 9 88)] ∧
    after (.ptpSyncSend 5 false 77) timer = timer ∧
    (let t := after (.ptpDelayReqSend false false 99) timer
     t.pz.out = [.ptp 16 false (.delayReq 0)] ∧ (t.pz.ptp 16 false).dreq = some (0, 99)) ∧
    after (.ptpDelayReqSend true false 99) timer = timer := by decide +kernel

theorem test_ptp_receive : (timer.pz.ptp 16 false).mpd = 32 ∧ (timer.pz.servo 0).st.toNat = svFree ∧
    (let t := after (.ptpSyncRx false false 1 (some 1600) 16 3248) timer
     (t.pz.ptp 16 false).down = some 1632 ∧ (t.pz.servo 0).st.toNat = svAcquire ∧ (t.pz.servo 0).ns = 0) ∧
    (let t := after (.ptpSyncRx false false 1 none 16 3248) timer
     (t.pz.ptp 16 false).sync = some (1, 3248, 16) ∧
     (after (.ptpFollowUpRx false false 1 1600 0) t).pz.servo 0 =
       (after (.ptpSyncRx false false 1 (some 1600) 16 3248) timer).pz.servo 0 ∧
     after (.ptpFollowUpRx false false 2 1600 0) t = t) ∧
    after (.ptpSyncRx true false 1 (some 1600) 16 3248) timer = timer := by decide +kernel

theorem test_ptp_delay : (let s := { timer with pz := timer.pz.setPtp 16 false (fun p => { p with dreq := some (3, 100), down := some 40 }) }
     let t := after (.ptpDelayRespRx false false 3 200 20) s
     (t.pz.ptp 16 false).mpd = 60 ∧ (t.pz.ptp 16 false).dreq = none) ∧
    after (.ptpDelayRespRx false false 3 200 20) timer = timer := by decide +kernel

/-- An Announce of another clock. -/
def ann : Announce := { (default : Announce) with gm := 500, sender := 500, steps := 2 }

theorem test_announce : timer.pz.clockId ≠ 500 ∧
    (let t := after (.ptpAnnounceRx false false ann) timer
     (t.pz.ptp 16 false).heard = some ann ∧ ((after (.ptpAnnounceTimeout false false) t).pz.ptp 16 false).heard = none) ∧
    after (.ptpAnnounceRx true false ann) timer = timer ∧ after (.ptpAnnounceTimeout true false) timer = timer := by decide +kernel

/-- A tray whose port 4 reaches leaf 9. -/
def route9 : Route := { (default : Route) with fleet := 9, valid := true, port := 4, pos := 2, tag := 5 }
def tray : State := pzOf (fun z => { (z.setFld (PzR.PORT_STAT_LINK.at 32) 1) with routes := [(9, route9)] })

theorem test_time_cell : tray.pz.route 9 = some route9 ∧ tray.pz.role = 0 ∧ tray.pz.linkUp 4 = true ∧
    (let t := after (.timeCellSend 9 1600) tray
     t.pz.out = [.timeCell 4 9 1600 none 0] ∧ t.pz.now = 100) ∧
    after (.timeCellSend 8 1600) tray = tray ∧ after .holdoverThreshold up = up ∧
    (let s := pzOf (fun z => { z with time := { z.time with hoAt := some 0, begun := true } })
     let t := after .holdoverThreshold s
     t.pz.flag PzR.TM_STAT_OUT_OF_SPEC = true ∧ t.pz.timeLevel = 2 ∧
     (after .holdoverThreshold t).pz.flag PzR.TM_STAT_UNTIMED = true) := by decide +kernel

/-- Output 1 pulses once a second; input 1 takes rising edges. -/
def pulsing : State := pzOf (fun z => (z.setFld (PzR.TOUT_CFG_MODE.at 16) 1).setFld (PzR.TIN_CFG_EDGE.at 16) 1)

theorem test_pulse : pulsing.pz.nextPulse 1 = some (1000000000, 1000000000) ∨ pulsing.pz.nextPulse 1 = some (0, 0) := by
  decide +kernel

theorem test_tout : pulsing.pz.nextPulse 0 = none ∧ after (.toutPulse 0) pulsing = pulsing ∧
    (after (.toutPulse 1) pulsing).pz.out.length = 1 ∧ Admitted up secure (0x40204 + 16 + 4) ∧
    (let s := { up with pz := up.pz.advanceTo 50 }
     let t := after (.toutOneshotWrite 1 true secure 0) s
     t.pz.flag (PzR.TOUT_CFG_MISSED.at 16) = true) := by unfold Admitted; decide +kernel

theorem test_tin : Admitted up secure (0x40304 + 16) ∧
    (let t := after (.triggerInputEdge 1 true 700) pulsing
     tget t.pz.time.tin 1 = [(700, true, 0)] ∧ t.pz.fld (PzR.TIN_CFG_LEVEL.at 16) = 1 ∧
     after (.triggerInputEdge 1 true 715) t = t ∧ after (.triggerInputEdge 1 false 800) t = t ∧
     (let u := after (.tinDataRead 1 secure) t
      u.pz.rdata = 700 ∧ tget u.pz.time.tin 1 = [] ∧
      (after (.tinDataRead 1 secure) u).freeCtr = u.freeCtr + 1)) ∧
    (after (.tinDataRead 1 secure) up).pz.rdata = 0 ∧
    (let s := { pulsing with pz := { pulsing.pz with time := { pulsing.pz.time with tin := [(1, List.replicate 64 (1, true, 0))] } } }
     (after (.triggerInputEdge 1 true 700) s).pz.fld (PzR.TIN_CFG_DROPS.at 16) = 1) := by unfold Admitted; decide +kernel

/-! ## Polornaz: snapshots, keeper state, BAR2 -/

/-- A snapshot of job 5 at epoch 8 under way, without pages, awaiting leaf 9; copied and closed or not. -/
def snap5 (cp cl : Bool) : Snap := { tag := 5, epoch := 8, cfg := 3, time := 100, seq := 1, ranges := [], pages := [], leaves := []
                                     want := [9], missing := [], pushed := 0, copied := cp, closed := cl }
def snapping (cp cl : Bool) : State := { tray with pz := { tray.pz with snap := { tray.pz.snap with now := some (snap5 cp cl) } } }

theorem test_snapshot : (let t := after .snapshotCopyDone (snapping false false)
     t.pz.snap.now = some (snap5 true false) ∧ t.pz.fld PzR.SN_STAT_STATE = 2) ∧
    (let t := after .leafwaitExpiry (snapping false false)
     t.pz.snap.now = some { snap5 false true with missing := [9] } ∧ t.pz.now = 100 + 1000000 * max 1 (up.pz.fld PzR.SN_CTL_LEAFWAIT)) ∧
    after .snapshotCopyDone (snapping true false) = snapping true false ∧
    after .leafwaitExpiry (snapping true true) = snapping true true ∧
    after .snapshotDrainDone (snapping true false) = snapping true false ∧ after .snapshotDrainDone tray = tray := by decide +kernel

theorem test_snapshot_ends : (snapping true true).pz.snap.now = some (snap5 true true) ∧ (snapping true true).pz.hostUp = true ∧
    (snapping true true).pz.badIn ((snapping true true).pz.snapBase + 4096) (imageLen [] - 4096) = none := by
  refine ⟨by decide, by decide, ?_⟩
  have : (snapping true true).pz.hl.bad = [] := by decide
  simp [Pz.badIn, this]

/-- A drain of leaf 9 for the snapshot waits on port 4. -/
def drainCell : Cell := cellSealed ⟨9, 4, true, true, false, 0, 0, 8, 0x0D, [8, 0, 0, 0, 0, 5, 0, 0, 77], 0, 0⟩
def draining : State := { snapping true false with pz := { (snapping true false).pz with
  ing := { (snapping true false).pz.ing with queues := [(36, [⟨drainCell, false, 0⟩])] } } }

theorem test_drain : (draining.pz.takeMsg 4 4 0x0D).isSome = true ∧ after (.snapshotDrainRx 4) tray = tray ∧
    (let t := after (.snapshotDrainRx 4) draining
     t.pz.snap.now = some { snap5 true true with leaves := [9] } ∧
     tget t.pz.mem (t.pz.snapBase + 4096 + 8) = 77) ∧
    (let s := { draining with pz := { draining.pz with routes := [] } }
     (after (.snapshotDrainRx 4) s).pz.fld (PzR.ING_Q3_UNKNOWN.at 64) = 1) := by decide +kernel

/-- A header of 4,096 bytes with its CRC, and no ranges. -/
def imaged : State := pzOf (fun z => (z.write (z.snapBase + 0x21) [0x10]).write (z.snapBase + 0x2C) (leB 4 0x8589c04))

/-- One byte of CRC-32C. -/
def crcStep (c : Nat) (b : Byte) : Nat := iter (fun c => if bit c 0 then (c >>> 1) ^^^ 0x82F63B78 else c >>> 1) 8 (c ^^^ b.toNat)

/-- The same over a list, the value met before each byte, so that the kernel holds one number at a time. -/
def crcBytes : List Byte → Nat → Nat
  | [], c => c
  | b :: bs, c => if c = 0 then crcBytes bs (crcStep c b) else crcBytes bs (crcStep c b)

theorem crcBytes_eq (bs : List Byte) : ∀ c, crcBytes bs c = bs.foldl crcStep c := by
  induction bs with
  | nil => intro c; rfl
  | cons b bs ih => intro c; simp only [crcBytes, ite_self, List.foldl_cons, ih]

theorem crc32c_eq (bs : List Byte) : crc32c bs = crcBytes bs 0xFFFFFFFF ^^^ 0xFFFFFFFF := by rw [crcBytes_eq]; rfl

theorem test_image_good : imaged.pz.imageGood = true := by
  unfold Pz.imageGood
  simp only [crc32c_eq]
  decide +kernel

theorem test_restore_check : imaged.pz.restoreErr = 0 := by
  have h : imaged.pz.snap.now.isSome = false ∧ imaged.pz.imageRanges = [] ∧
    imaged.pz.jobRanges (BitVec.ofNat 24 (memLoad imaged.pz.mem (imaged.pz.snapBase + 5) 3)) = [] := by decide
  simp [Pz.restoreErr, test_image_good, h.1, h.2.1, h.2.2]

theorem test_restore : up.pz.restoreErr ≠ 0 ∧ Admitted up secure 0xB002C ∧
    (let t := after (.restoreGo secure 3) up
     t.pz.flag PzR.SN_STAT_RFAIL = true ∧ t.pz.fld PzR.SN_STAT_RERR = up.pz.restoreErr) ∧ after .restoreDone up = up ∧
    (let s := pzOf (fun z => { z with snap := { z.snap with running := some 5 } })
     (after .restoreDone s).pz.snap.running = none) := by unfold Admitted; decide +kernel

/-- The address of the fleet ID in the secure view. -/
def idAddr : BitVec 26 := BitVec.ofNat 26 0x90000

/-- Both keepers in service. -/
def kept : State := pzOf (fun z => z.setFld PzR.PKG_STAT_KEEPER_OK 3)

theorem test_peat_store : kept.pz.verdict secure idAddr = .pass ∧ kept.pz.secure secure idAddr = true ∧ barOff idAddr = 0x90000 ∧
    kept.pz.role ≠ 2 ∧ kept.pz.keeperOk 0 = true ∧ (kept.pz.peatCopy 0).wear = 0 ∧
    (let t := after (.peatStoreWrite secure idAddr 77 true true) kept
     t.pz.fleet = 77 ∧ t.pz.fld PzR.PS_STAT_LAST_RES = 0 ∧ (t.pz.peatCopy 0).wear = 1) ∧
    (let t := after (.peatStoreWrite secure idAddr 77 false false) kept
     t.pz.fleet = 0 ∧ t.pz.fld PzR.PS_STAT_LAST_RES = 2) ∧
    (let s := { kept with pz := { kept.pz with peat := { kept.pz.peat with k0 := [(0, { (default : PPage) with wear := 1000000 })] } } }
     (after (.peatStoreWrite secure idAddr 77 true true) s).pz.fld PzR.PS_STAT_LAST_RES = 1) := by decide +kernel

theorem test_keeper_save : Admitted kept secure 0x90008 ∧ (∀ i ∈ List.range 16, (kept.pz.peatCopy (27 + i)).wear < 1000000) ∧
    (let t := after (.psSave secure 60) kept
     t.pz.fld PzR.PS_STAT_KSLOT = 1 ∧ (tget t.pz.peat.slots 0).map (·.seq) = some 1 ∧ t.pz.peat.saved = some 0 ∧
     t.pz.fld PzR.PS_CTL_SAVEMIN = 60 ∧
     (let u := after .saveminExpiry { t with pz := { t.pz with peat := { t.pz.peat with due := true } } }
      u.pz.fld PzR.PS_STAT_KSLOT = 2 ∧ (tget u.pz.peat.slots 1).map (·.seq) = some 2 ∧ u.pz.peat.due = false)) ∧
    after .saveminExpiry kept = kept := by unfold Admitted; decide +kernel

theorem test_oosclr : Admitted tray secure 0x90018 ∧
    (let s := { tray with pz := { tray.pz with routes := [(9, { route9 with oos := true })] } }
     (after (.psOosclr secure 9) s).pz.route 9 = some route9) := by unfold Admitted; decide +kernel

/-- Window 0 maps the 16 MiB that hold the granted region, writable, non-secure. -/
def windowed (w : Word) : State := { stored with pz := stored.pz.setReg 0x10800 w }

theorem test_bar2 : stored.pz.answers pcie = true ∧ b2Legal 0x108 8 = true ∧ (windowed 0xC0000008).pz.b2Addr 0x108 = 0x8000108 ∧
    (windowed 0xC0000008).pz.b2Way 0 (0x8000108 / 32) false = .pass ∧
    (after (.bar2Read 0x108 8) (windowed 0xC0000008)).pz.b2data = [0x11, 0x22, 0x33, 0x44, 0x55, 0x66, 0x77, 0x88] ∧
    (let t := after (.bar2Write 0x108 [9, 8]) (windowed 0xC0000008)
     memBytes t.pz.mem 0x8000108 4 = [9, 8, 0x33, 0x44]) := by decide +kernel

theorem test_bar2_refused :
    (let t := after (.bar2Read 0x108 8) (windowed 0)
     t.pz.b2data = [0, 0, 0, 0, 0, 0, 0, 0] ∧ t.pz.fld PzR.B2_STAT_UNMAPPED = 1) ∧
    (let t := after (.bar2Write 0x108 [9]) (windowed 0x80000008)
     t.pz.mem = stored.pz.mem ∧ t.pz.fld PzR.B2_STAT_PROT = 1) ∧
    b2Legal 0xFF8 16 = false ∧ after (.bar2Write 0xFF8 (List.replicate 16 1)) (windowed 0xC0000008) = windowed 0xC0000008 := by
  decide +kernel

/-! ## Polornaz: stations, rings -/

/-- Slot 2 of station 5 takes arrivals of stream 0 after 4 µs, Inklines of KIND plain, and a time. -/
def imgT : Image := { img with arr := true, ink := true, tim := true, tstream := 0, age := 4, kmask := 1, thresh := 100 }
def slotT : PSlot := { (default : PSlot) with active := some imgT, streams := [(0, [item8])], once := some 900 }
def trig : State := pzOf (fun z => z.setSlot 5 2 (fun _ => slotT))

theorem test_triggers : imgT.inkMatches 0 ⟨false, false, false⟩ = true ∧ laterInk 0 trig.pz.ctl.epoch = false ∧ slotT.due = [900] ∧
    (let t := after (.arrivalAgeExpiry 5 2) trig
     (t.pz.slot 5 2).arr = some ⟨0, false, 0⟩ ∧ t.pz.now = 4000) ∧
    ((after (.inklineTrigger 5 2 0 ⟨false, false, false⟩) trig).pz.slot 5 2).ink = some ⟨0, false, 0⟩ ∧
    after (.inklineTrigger 5 2 0 ⟨true, false, false⟩) trig = trig ∧
    (let t := after (.timeTrigger 5 2) trig
     (t.pz.slot 5 2).tim = some ⟨900, false, 0⟩ ∧ (t.pz.slot 5 2).once = none ∧ t.pz.now = 900) ∧
    after (.timeTrigger 5 3) trig = trig ∧ after (.arrivalAgeExpiry 5 3) trig = trig := by decide +kernel

/-- The same slot with a time trigger pending. -/
def ready5 : State := pzOf (fun z => z.setSlot 5 2 (fun _ => { slotT with tim := some ⟨900, false, 1⟩, arr := some ⟨0, false, 0⟩ }))

theorem test_dispatch : ready5.pz.choose 5 = some 2 ∧ ready5.pz.ctx 5 0 = none ∧ ready5.pz.dieOk 1 = true ∧
    (let t := after (.dispatch 5 0) ready5
     (t.pz.ctx 5 0).map (fun x => (x.slot, x.pc, x.kind, x.data, x.coal, x.rg 2)) = some (2, 0, 2, 900, 1, 0x20005) ∧
     (t.pz.slot 5 2).tim = none ∧ (t.pz.slot 5 2).arr = some ⟨0, false, 0⟩ ∧ after (.dispatch 5 0) t = t) ∧
    after (.dispatch 4 0) ready5 = ready5 := by decide +kernel

/-- One launch of slot 2 without trees; the governor admits. -/
def launched : State := { srun with pz := { srun.pz.setFld PzR.GOV_STAT_LEVEL 4 with launches := [
  { station := 5, slot := 2, tag := 7, model := 4, nclass := 1, base := 0x3F800000, trees := [], feats := [], mixed := false
    repl := false }] } }

theorem test_tree_result : (let t := after (.treeResult 5 2 7) launched
     t.pz.launches = [] ∧ t.pz.fld PzR.SG_LAUNCH_COUNT = 1 ∧ ((t.pz.slot 5 2).items 1).length = 2 ∧
     (((t.pz.slot 5 2).items 1).map (fun i => i.bytes.length)) = [4, 16]) ∧
    after (.treeResult 5 2 8) launched = launched ∧ after (.treeResult 5 2 7) srun = srun := by decide +kernel

/-- A context that waits for epoch 0, one that waits for epoch 5. -/
def waits (r : BitVec 5) : State := stNext run 5 1 { cx with wait := some (.epWait (.station 5 1) ⟨6, r, 0, 0⟩, 30) }

theorem test_wait : after (.waitComplete 5 1) (waits 0) = stNext run 5 1 (cx.put 6 0) ∧
    after (.waitComplete 5 1) (waits 2) = waits 2 ∧ after (.waitComplete 5 1) run = run ∧
    (let t := after (.stationWatchdog 5 1) (waits 2)
     t.pz.ctx 5 1 = none ∧ t.pz.fld PzR.WD_STAT_FIRED = 1 ∧ t.pz.fld (PzR.PG_STAT_LAST_FLT.at (slotOff 5 2)) = 0x0C ∧
     30 + 1000000 ≤ t.pz.now) ∧
    after (.stationWatchdog 5 1) run = run := by decide +kernel

theorem test_stall : run.pz.ctxReady 5 1 = true ∧
    (let t := after (.stationStall 5) run
     t.pz.ctx 5 1 = none ∧ t.pz.fld PzR.WD_STAT_STALLS = 1) ∧
    after (.stationStall 4) run = run ∧ after (.stationAlarmCredit 5 2) run = run ∧
    ((after (.stationAlarmCredit 5 2) aspent).pz.slot 5 2).spent = 63 ∧
    (let s := { aspent with pz := aspent.pz.setSlot 5 2 (fun q => { q with supp := true }) }
     let t := after (.stationAlarmCredit 5 2) s
     (t.pz.slot 5 2).supp = false ∧ (t.pz.slot 5 2).spent = 64 ∧ t.pz.ctl.aseq = s.pz.ctl.aseq + 1) := by decide +kernel

/-- One alarm waits, and the alarm ring has four entries. -/
def alarmed : State := pzOf (fun z => { (z.setFld PzR.AL_RSIZE_ENTRIES 4).setFld PzR.AL_RPTR_WR 3 with
  alarmQ := [{ (default : AlarmEntry) with payload := List.replicate 16 1, fleet := 9 }] })

theorem test_alarm_ring : alarmed.pz.hostUp = true ∧ ringRoom 4 3 0 1 = false ∧ ringRoom 4 3 1 1 = true ∧
    after .alarmOutput alarmed = alarmed ∧
    (let s := { alarmed with pz := alarmed.pz.setFld PzR.AL_RPTR_RD 1 }
     let t := after .alarmOutput s
     t.pz.alarmQ = [] ∧ t.pz.fld PzR.AL_RPTR_WR = 0 ∧ t.pz.alPhase = true ∧
     t.pz.out.head? = some (.host 96 (List.replicate 16 1 ++ [9, 0, 0, 0] ++ List.replicate 12 0))) ∧
    after .alarmOutput up = up := by decide +kernel

theorem test_ring_pointers : Admitted up secure 0xC100C ∧ Admitted up secure 0x7003C ∧ Admitted up secure 0x60010 ∧
    (after (.alRptrWrite secure 0x50003) up).pz.fld PzR.AL_RPTR_RD = 3 ∧
    (after (.vdRptrWrite secure 0x50003) up).pz.fld PzR.VD_RPTR_RD = 3 ∧
    (after (.mbRptrWrite secure 0x50003) up).pz.fld PzR.MB_RPTR_RD = 3 := by unfold Admitted; decide +kernel

/-- Vector 1 in holdoff, with a message due. -/
def heldOff (due : List Nat) : State := pzOf (fun z => { z with msixAt := [(1, 500)], msixDue := due })

theorem test_holdoff : (let t := after (.msixHoldoffExpiry 1) (heldOff [])
     t.pz.msixAt = [] ∧ t.pz.now = 500 ∧ t.pz.out = []) ∧ after (.msixHoldoffExpiry 2) (heldOff []) = heldOff [] ∧
    (let s := { heldOff [1] with pz := { ((heldOff [1]).pz.setReg 0xC001C 0) with pins := { (heldOff [1]).pz.pins with msixOn := true } } }
     (after (.msixHoldoffExpiry 1) s).pz.msixDue = [] ∧ (s.pz.holdNs 1 ≠ 0 → (after (.msixHoldoffExpiry 1) s).pz.out = [.msix 1])) := by
  decide +kernel

/-! ## Polornaz: ingress and liveness -/

/-- A cell of leaf 9, and a tray with cells or whole messages that wait on port 4. -/
def cell9 (cls : BitVec 3) (ty : Byte) (body : List Byte) : Cell := cellSealed ⟨9, cls, true, true, false, 0, 0, 7, ty, body, 0, 0⟩
def queued4 (cls : Nat) (c : Cell) : State := { tray with pz := { tray.pz with
  ing := { tray.pz.ing with queues := [(32 + cls, [⟨c, false, 0⟩])] } } }
def whole4 (m : Message) : State := { tray with pz := { tray.pz with ing := { tray.pz.ing with ready := [(4, m)] } } }

theorem test_cell_ingress : tray.pz.follows 4 (cell9 2 1 [1]) = true ∧ cellGood (cell9 2 1 [1]) = true ∧
    (tray.pz.meter (8 * (64 * 4 + tray.pz.context (cell9 2 1 [1])) + 2) 2 (cellLen (cell9 2 1 [1]) + tray.pz.fld PzR.ING_CTL_OVH)).1 =
      .green ∧
    (let t := after (.cellIngress 4 (cell9 2 1 [1]) true 5 false) tray
     (tget t.pz.ing.queues 34).map (fun x => (x.cell, x.yellow)) = [(cell9 2 1 [1], false)]) ∧
    (after (.cellIngress 4 (cell9 2 1 [1]) false 5 false) tray).pz.ing.bad = [(4, 1)] ∧
    (let z := tray.pz.parity 4 7 0
     z.fld (PzR.EC_DIE_PAR.at 16) = 1 ∧ z.ing = tray.pz.ing ∧ tray.pz.alarmSeen (cell9 2 1 [1]) = false) ∧
    after (.cellIngress 5 (cell9 2 1 [1]) true 5 false) tray = tray := by decide +kernel

theorem test_cell_upstream : (let s := pzOf (fun z => z.setFld (PzR.PORT_STAT_LINK.at 128) 1)
     let t := after (.cellIngress 16 (cell9 3 0x0B [1]) true 5 false) s
     (tget t.pz.ing.queues 131).map (fun x => (x.cell, x.came)) = [(cell9 3 0x0B [1], 5)]) ∧
    (let s := { tray with pz := { tray.pz with ing := { tray.pz.ing with seen := [(9, 3, 0)] } } }
     s.pz.alarmSeen (cell9 0 2 [5, 0, 3, 0]) = true ∧ after (.cellIngress 4 (cell9 0 2 [5, 0, 3, 0]) true 5 false) s = s) := by decide +kernel

theorem test_control_admit : after (.controlAdmit 4) tray = tray ∧
    (let t := after (.controlAdmit 4) (queued4 1 (cell9 1 9 [1, 2]))
     t.pz.ing.ready = [(4, ⟨9, 1, 9, 7, false, [1, 2]⟩)] ∧ tget t.pz.ing.queues 33 = []) ∧
    (let c := cellSealed { cell9 1 9 [1, 2] with eom := false }
     (tget (after (.controlAdmit 4) (queued4 1 c)).pz.ing.asm 4).map (·.cell) = [c]) := by decide +kernel

/-- A frame of epoch 7 and config epoch 3, with its CHECK. -/
def frame7 : List Byte := [0, 0, 0, 0, 7] ++ List.replicate 11 0 ++ [3] ++ List.replicate 11 0 ++ leB 4 0x6a7dc71b ++ List.replicate 32 0

theorem test_frame : frameOk frame7 = true ∧
    (let t := after (.ingressFrame 4) (queued4 2 (cell9 2 1 frame7))
     (t.pz.route 9).map (fun r => (r.frames, r.inkEp, r.cfg)) = some (1, 7, 3)) ∧
    (let t := after (.ingressFrame 4) (queued4 2 (cell9 2 1 (9 :: frame7.drop 1)))
     t.pz.fld (PzR.ING_Q3_CHKERR.at 64) = 1 ∧ (t.pz.route 9).map (fun r => (r.chkErr, r.frames)) = some (1, 0)) ∧
    (let s := queued4 2 (cell9 2 1 frame7)
     (after (.ingressFrame 4) { s with pz := { s.pz with routes := [] } }).pz.fld (PzR.ING_Q3_UNKNOWN.at 64) = 1) ∧
    after (.ingressFrame 4) tray = tray := by decide +kernel

theorem test_reduction : ((queued4 2 (cell9 2 5 [1])).pz.takeMsg 4 2 5).isSome = true ∧
    (let s := { queued4 2 (cell9 2 5 [1]) with pz := (queued4 2 (cell9 2 5 [1])).pz.advanceTo 40 }
     ((after (.ingressReduction 4) s).pz.route 9).map (·.evidAt) = some 40) ∧
    after (.ingressReduction 4) tray = tray := by decide +kernel

theorem test_alarm_in : (let s := queued4 0 (cell9 0 2 ([5, 0] ++ List.replicate 14 0))
     let t := after (.ingressAlarm 4) { s with pz := s.pz.setFld PzR.AL_RSIZE_ENTRIES 8 }
     t.pz.alarmQ.map (fun e => (e.fleet, e.payload)) = [(9, [5, 0] ++ List.replicate 14 0)] ∧
     (t.pz.route 9).map (·.oos) = some true) ∧
    (after (.ingressAlarm 4) (queued4 0 (cell9 0 2 ([5, 0] ++ List.replicate 14 0)))).pz.fld PzR.AL_STAT_DROP = 1 ∧
    after (.ingressAlarm 4) tray = tray := by decide +kernel

/-- A cut of epoch 7 that awaits the chain on port 4 and a flush of leaf 9 on class 0. -/
def cut7 : TCut := { (default : TCut) with epoch := 7, chains := [4, 5], flushes := [(9, 0), (9, 3)] }
def cutting (s : State) : State := { s with pz := { s.pz with ctl := { s.pz.ctl with cuts := [cut7] } } }

theorem test_flush_cut : ((after (.ingressFlush 4 0) (cutting (queued4 0 (cell9 0 3 [7, 0, 0, 0])))).pz.ctl.cuts.map (·.flushes)) =
      [[(9, 3)]] ∧
    ((after (.cutReportRx 4) (cutting (whole4 ⟨9, 1, 6, 7, false, 7 :: List.replicate 40 0⟩))).pz.ctl.cuts.map (·.chains)) = [[5]] ∧
    after (.ingressFlush 4 0) tray = tray ∧ after (.cutReportRx 4) tray = tray ∧ after (.ingressFlush 4 1) tray = tray := by
  decide +kernel

theorem test_records_rx : (queued4 3 (cell9 3 0x0B (List.replicate 32 0))).pz.sourceKnown 4 ⟨9, 3, 0x0B, 7, false, []⟩ = true ∧
    (tget (after (.traceRecordRx 4) (queued4 3 (cell9 3 0x0B (List.replicate 32 0)))).pz.iw.recs 5).last =
      seqNext (tget tray.pz.iw.recs 5).last ∧
    (let s := queued4 3 (cell9 3 0x0B (List.replicate 32 0))
     (after (.traceRecordRx 4) { s with pz := { s.pz with routes := [] } }).pz.fld (PzR.ING_Q3_UNKNOWN.at 64) = 1) ∧
    ((queued4 4 (cell9 4 0x0C (List.replicate 48 0))).pz.takeMsg 4 4 0x0C).isSome = true ∧
    after (.traceRecordRx 4) tray = tray ∧ after (.historyDumpRx 4) tray = tray := by decide +kernel

theorem test_advisory : (let m : Message := ⟨9, 1, 0x0A, 7, false, List.replicate 0x22 0 ++ [0xC1] ++ List.replicate 0x1D 0 ++ [0x42, 0, 2, 0]⟩
     let t := after (.advisoryRx 4) (whole4 m)
     t.pz.ing.ready = [] ∧ (tget t.pz.blot.units (unitKey 9 2)).st = 1) ∧
    after (.advisoryRx 4) tray = tray := by decide +kernel

/-- Leaf 9 Live until now; Late; with a disagreement. -/
def liveLeaf (lv : BitVec 2) : State := { tray with pz := { tray.pz with routes := [(9, { route9 with live := lv, disagAt := some 5 })] } }

theorem test_liveness : ((liveLeaf 0).pz.route 9).map (·.state) = some lvLive ∧
    (let t := after .livenessEval (liveLeaf 0)
     t.pz.now = 250000) ∧
    after (.livenessProbe 9) (liveLeaf 0) = liveLeaf 0 ∧
    (let t := after (.livenessProbe 9) (liveLeaf lvLate)
     t.pz.out = [.probe 4 9] ∧ (t.pz.route 9).map (·.probes) = some 1) ∧
    (let t := after (.disagreeTick 9) (liveLeaf 0)
     (t.pz.route 9).map (·.seconds) = some 1 ∧ t.pz.now = 1000000005 ∧
     (tget t.pz.iw.recs 3).last = seqNext (tget tray.pz.iw.recs 3).last) ∧
    after (.disagreeTick 9) tray = tray ∧ after (.livenessProbe 8) tray = tray := by decide +kernel

theorem test_liveness_late : (let s := { liveLeaf 0 with pz := (liveLeaf 0).pz.advanceTo 100000000 }
     (match s.pz.route 9 with
      | some r => decide ((if r.expected then r.frameAt else r.reportAt) + s.pz.lateT r ≤ 100250000)
      | none => false) = true ∧
     (((after .livenessEval s).pz.route 9).map (fun r => decide (r.state = lvLive))) = some false) := by decide +kernel

/-! ## Polornaz: the Blotter and the mailbox -/

/-- Group 3 of job 5: two members, both leaf 9, units 1 and 2; declared for the tray. -/
def group3 : Group := { tag := 5, group := 3, reduce := false, r := 2, nres := 0, depth := 0, accf := 0, ktol := 0, timeout := 10
                        home := 0, head := [], members := [⟨9, 1, false⟩, ⟨9, 2, false⟩] }
def digBody (unit : Byte) : List Byte := [0, 0, 3, 0, 0, 0, 0, 0] ++ List.replicate 84 0 ++ [0, 0, unit * 16, 0]
def grouped : State := { tray with pz := { tray.pz with blot := { tray.pz.blot with groups := [(groupKey 5 3, group3)] } } }

theorem test_blotter_stray : group3.declared = true ∧ up.pz.blotterUp 5 3 = false ∧
    (after (.blotterRecord 9 5 8 (digBody 1)) up).pz.blot.stray = 1 ∧
    (after (.blotterRecord 9 5 8 (digBody 7)) grouped).pz.blot.stray = 1 ∧
    (let s := { grouped with pz := { grouped.pz with blot := { grouped.pz.blot with closed := [(5, 3, 8, 0)] } } }
     (after (.blotterRecord 9 5 8 (digBody 1)) s).pz.blot.late = 1) := by decide

/-- An instance of group 3 at epoch 8 that holds unit 1's record. -/
def inst3 : Instance := { tag := 5, group := 3, epoch := 8, occ := 0, die := 0, opened := 100, recs := [digRec 9 (digBody 1)] }
def opened3 : State := { grouped with pz := { grouped.pz with blot := { grouped.pz.blot with opens := [inst3] } } }

theorem test_blotter_opens : ((after (.blotterRecord 9 5 8 (digBody 1)) grouped).pz.blot.opens.map
      (fun i => (i.group, i.epoch, i.recs, i.opened))) = [(3, 8, [digRec 9 (digBody 1)], 0)] ∧
    (digRec 9 (digBody 1)).unit = 1 := by decide

theorem test_blotter_closes : (let t := after (.blotterRecord 9 5 8 (digBody 2)) opened3
     t.pz.blot.opens = [] ∧ t.pz.blot.closed = [(5, 3, 8, 0)]) ∧
    (let t := after (.blotterTimeout 5 3 8 0) opened3
     t.pz.blot.opens = [] ∧ t.pz.blot.closed = [(5, 3, 8, 0)] ∧ 100 + group3.limit ≤ t.pz.now) ∧
    after (.blotterTimeout 5 3 8 0) grouped = grouped ∧
    (let s := { tray with pz := { tray.pz with blot := { tray.pz.blot with tests := [inst3] } } }
     let t := after (.blotterTimeout 5 3 8 0) s
     t.pz.blot.tests = [] ∧ t.pz.now = 10000100) := by decide +kernel

/-- A unit's health: a charge leads on, eight clean rounds lead back. -/
def healthy : Health := { (default : Health) with st := 0 }
def watched8 : Health := { (default : Health) with st := 1, clean := 7 }

theorem test_health_states : (healthy.charge none).st = 1 ∧ (healthy.charge none).cond = false ∧ (watched8.charge none).st = 2 ∧
    (watched8.pass none).st = 0 ∧ (healthy.pass none).clean = 1 := by decide

/-- Three votes, two of them equal. -/
def vote3 : List (Nat × DigRec) := [(0, digRec 9 (digBody 1)), (1, { digRec 9 (digBody 1) with exact := 5 }), (2, digRec 9 (digBody 2))]

theorem test_vote : (∀ m ∈ vote3, m.2.incomplete = false ∧ m.2.nokey = false) ∧
    (∀ m ∈ vote3, ∀ m' ∈ vote3, m.2.keygen = m'.2.keygen) ∧ (vote vote3).inA = [0, 2] ∧ (vote vote3).out = [1] ∧
    (vote (vote3.take 1)).inA = [0] := by decide

/-- A message at the front of the queue, from slot 3, about station 5 slot 2. -/
def mmsg (ty : Byte) (tag : BitVec 24) (pay : List Byte) : MbMsg := { src := .slot 3, mtype := ty, tag := tag, secure := true
                                                                      reply := false, seq := 0, toprog := decide (ty = 8)
                                                                      station := 5, pslot := 2, payload := pay, crcOk := true }
def mailOn (s : State) (ty : Byte) (tag : BitVec 24) (pay : List Byte) : State :=
  { s with pz := { s.pz with mb := { s.pz.mb with queue := [mmsg ty tag pay], words := [(3072, 0x80000000)] } } }
def mail (ty : Byte) (tag : BitVec 24) (pay : List Byte) : State := mailOn run ty tag pay

theorem test_mail_alone : Alone (mail 2 0 [1, 5, 2, 0]) (mmsg 2 0 [1, 5, 2, 0]) 3 2 1 := by unfold Alone; decide

theorem test_front_only : after .progDisable (mail 2 0 [1, 5, 2, 0]) = mail 2 0 [1, 5, 2, 0] ∧ after .progEnable run = run ∧
    after .groupDecl (mail 2 0 [1, 5, 2, 0]) = mail 2 0 [1, 5, 2, 0] := by decide

/-- Slot 3 holds the words of a message that enables station 5 slot 2. -/
def slotted : State := pzOf (fun z => { z with mb := { z.mb with words := [(3075, 0x89F8E7F5), (3076, 0x00020501)] } })

theorem test_commit : slotted.pz.answers secure = true ∧ slotted.pz.mbRefusal (slotMsg slotted.pz 3 0x80020004) = none ∧
    (let t := after (.mailboxCommit 3 secure 0x00020004) slotted
     t.pz.mb.queue.map (fun m => (m.mtype, m.op, m.payload)) = [(2, 1, [1, 5, 2, 0])] ∧
     bit (tget t.pz.mb.words 3072).toNat 31 = true ∧
     (after (.mailboxCommit 3 secure 0x00020004) t).pz.fld PzR.MB_CTL_WRDROP = 1) ∧
    slotted.pz.mbRefusal (slotMsg slotted.pz 3 0x80630004) = some 2 ∧
    Answered (after (.mailboxCommit 3 secure 0x00630004) slotted) 3 2 := by unfold Answered; decide +kernel

theorem test_commit_violation : pcie.ns = false ∧
    (let s := { slotted with pz := slotted.pz.setFld PzR.SEC_VIEW_ALIAS_OFF 1 }
     s.pz.secure pcie (viewAddr pcie 0x60000) = false ∧ s.pz.blockSecure 6 = true ∧
     (after (.mailboxCommit 3 pcie 0x00020004) s).pz.fld (PzR.SEC_VIOL_COUNT.at 24) = 1) := by decide +kernel

/-- An image of one word for station 5 slot 2, and the chunk that carries it. -/
def image1 : List Byte := leB 4 0x10014000 ++ leB 4 0x00012000 ++ List.replicate 8 0 ++ leB 4 100 ++ List.replicate 236 0 ++ leB 4 0x04000000
def chunk (off total : Nat) (b : List Byte) : List Byte := leB 4 off ++ leB 4 total ++ b

theorem test_prog_load : (let t := after .progLoad (mailOn up 1 0 (chunk 0 260 (image1.take 100)))
     tget t.pz.mb.loads 3 = image1.take 100 ∧ Answered t 3 0) ∧
    (let t := after .progLoad (mailOn up 1 0 (chunk 5 260 [1]))
     tget t.pz.mb.loads 3 = [] ∧ Answered t 3 6) ∧
    up.pz.progStatus image1 (imgOf image1 true) = 0 ∧
    (let t := after .progLoad (mailOn up 1 0 (chunk 0 260 image1))
     (t.pz.slot 5 2).shadow = some (imgOf image1 true) ∧ Answered t 3 0) ∧
    (let b := leB 4 0x20014000 ++ image1.drop 4
     up.pz.progStatus b (imgOf b true) = 4 ∧ Answered (after .progLoad (mailOn up 1 0 (chunk 0 260 b))) 3 4) := by
  unfold Answered; decide +kernel

theorem test_prog_ctl : (let t := after .progDisable (mail 2 0 [2, 5, 2, 0])
     (t.pz.slot 5 2).disabled = true ∧ Answered t 3 0 ∧
     ((after .progEnable (mailOn t 2 0 [1, 5, 2, 0])).pz.slot 5 2).disabled = false) ∧
    (let t := after .progUnload (mail 2 0 [3, 5, 2, 0])
     (t.pz.slot 5 2).active = none ∧ t.pz.ctxs = run.pz.ctxs) ∧
    Answered (after .progEnable (mail 2 0 [1, 64, 2, 0])) 3 3 := by unfold Answered; decide +kernel

theorem test_prog_msg : (let t := after .progMsg (mail 8 0 [1, 2, 3])
     ((t.pz.slot 5 2).items 0).map (·.bytes) = [[1, 2, 3]] ∧ Answered t 3 0) ∧
    (let s := mail 8 0 [1, 2, 3]
     let s := { s with pz := s.pz.setSlot 5 2 (fun q => { q with streams := [(0, [item8, item8, item8])] }) }
     Answered (after .progMsg s) 3 0xC) ∧
    Answered (after .progMsg (mailOn up 8 0 [1, 2, 3])) 3 3 := by unfold Answered; decide +kernel

/-- A model image of 64 bytes without trees, ID 9, in DRAM. -/
def modelAt (z : Pz) : Pz := (z.write 0x10000000004 [9]).write 0x10000000020 (leB 4 0xD59AF6F7)
def ddr : State := pzOf (fun z => modelAt (z.setFld PzR.DDR_STAT_TRAINED 0xFFFFFF))
def loadPay : List Byte := [1, 0, 0, 0] ++ leB 4 9 ++ leB 4 0 ++ leB 4 3 ++ leB 8 0x10000000000 ++ leB 8 64

theorem test_model_load : Alone (mailOn ddr 3 0 loadPay) (mmsg 3 0 loadPay) 3 3 1 ∧
    ddr.pz.loadStatus 9 0 0x10000000000 64 = none ∧ ddr.pz.loadStatus 9 0 0x10000000000 72 = some 6 ∧
    (let t := after .modelLoad (mailOn ddr 3 0 loadPay)
     (tget t.pz.models 9).st = .checking ∧ (tget t.pz.models 9).id = 9 ∧
     (tget (after (.modelLoadDone 9) t).pz.models 9).id = 0) ∧
    Answered (after .modelLoad (mailOn ddr 3 0 (loadPay.take 24 ++ leB 8 72))) 3 6 ∧
    after (.modelLoadDone 9) ddr = ddr := by unfold Alone Answered; decide +kernel

/-- Model 9 active; staging one tree of die 2. -/
def withModel (m : Model) : State := { ddr with pz := { ddr.pz with models := [(9, m)] } }
def staged9 : Model := { (default : Model) with
  id := 9, st := .staging, todo := [{ tree4 with die := 2, addr := 0x10000001000 }], cfg := 3 }

theorem test_model_unload : (let s := withModel { (default : Model) with id := 9, st := .active }
     let t := after .modelUnload (mailOn s 3 0 ([2, 0, 0, 0] ++ leB 4 9 ++ leB 4 0 ++ leB 4 3))
     (tget t.pz.models 9).unload = some 3 ∧ Answered t 3 0) ∧
    Answered (after .modelUnload (mailOn ddr 3 0 ([2, 0, 0, 0] ++ leB 4 9 ++ leB 4 0 ++ leB 4 3))) 3 9 ∧
    Answered (after .modelUnload (mailOn (withModel staged9) 3 0 ([2, 0, 0, 0] ++ leB 4 9 ++ leB 4 0 ++ leB 4 3))) 3 0xA := by
  unfold Answered; decide +kernel

theorem test_stage_region : ((withModel staged9).pz.stagePrefix 2 (withModel staged9).pz.trees staged9.todo).length = 1 ∧
    (let t := after (.stageRegionDone 9 2) (withModel staged9)
     (tget t.pz.models 9).todo = []) ∧
    after (.stageRegionDone 9 3) (withModel staged9) = withModel staged9 := by decide +kernel

/-- A declaration of group 3 of job 5 for the tray: R 2, two members; for a row. -/
def declPay (home : Nat) : List Byte := [1, 5, 0, 0] ++ leB 4 0x00030200 ++ leB 4 0x01000000 ++ leB 4 (home * 2 ^ 30 + 2) ++
  leB 8 9 ++ leB 8 10

theorem test_group_decl : (let t := after .groupDecl (mailOn up 4 0 (declPay 0))
     Answered t 3 0 ∧ (tget t.pz.blot.groups (groupKey 5 3)).r = 2 ∧ (tget t.pz.blot.groups (groupKey 5 3)).members.length = 2) ∧
    (let t := after .groupDecl (mailOn up 4 0 (declPay 1))
     Answered t 3 3 ∧ t.pz.blot = up.pz.blot) := by unfold Answered; decide +kernel

/-- A grant for unit 2 of leaf 9 of job 5, its window 7. -/
def grantPay (win : Byte) : List Byte := leB 4 9 ++ [2] ++ List.replicate 7 0 ++ [win, 0, 0, 0]

theorem test_test_grant : (let t := after .testGrant (mailOn tray 6 5 (grantPay 7))
     t.pz.ctl.sent.map (fun x => (x.rcpt, x.op)) = [(9, 0xF)] ∧ t.pz.mb.words = [(3072, 0x80000000)]) ∧
    Answered (after .testGrant (mailOn tray 6 5 (grantPay 0))) 3 6 ∧ Answered (after .testGrant (mailOn tray 6 4 (grantPay 7))) 3 9 ∧
    Answered (after .testGrant (mailOn up 6 5 (grantPay 7))) 3 3 := by unfold Answered; decide +kernel

/-- A notice about leaf 9 of job 5 with a first argument. -/
def note (op : Byte) (a : Nat) : List Byte := [op, 0, 0, 0] ++ leB 4 9 ++ leB 4 a ++ leB 8 0

theorem test_notices : Alone (mailOn tray 7 5 (note 1 0)) (mmsg 7 5 (note 1 0)) 3 7 1 ∧
    (match tray.pz.noticeLeaves (mmsg 7 5 (note 1 0)) with | .ok [9] => true | _ => false) = true ∧
    (let t := after .noticeFence (mailOn tray 7 5 (note 1 0))
     (t.pz.route 9).map (fun r => (r.live, r.eval)) = some (lvFenced, lvLive) ∧ t.pz.out.head? = some (.fence 4 9 true 0) ∧
     (let u := after .noticeUnfence (mailOn t 7 5 (note 2 0))
      (u.pz.route 9).map (·.live) = some lvLive)) ∧
    ((after .noticeFence (mailOn tray 7 5 (note 1 6))).pz.route 9).map (fun r => (r.fence, r.live)) = some (some (6, true), lvLive) ∧
    ((after .noticeTarget (mailOn tray 7 5 (note 3 70))).pz.route 9).map (·.work) = some (some (70, 0, 0)) ∧
    Answered (after .noticeFence (mailOn tray 7 6 (note 1 0))) 3 9 ∧ Answered (after .noticePhase (mailOn tray 7 5 (note 5 0))) 3 2 := by
  unfold Alone Answered; decide +kernel

/-- One prior, of signature 6. -/
def priorPay : List Byte := [4, 0, 0, 0, 6, 0, 1, 0] ++ List.replicate 8 0 ++ leB 8 77 ++ leB 8 88

theorem test_prior : (let t := after (.noticePrior []) (mailOn kept 7 0 priorPay)
     t.pz.peatWord 1 12 = 77 ∧ t.pz.peatWord 1 13 = 88 ∧ Answered t 3 0) ∧
    Answered (after (.noticePrior []) (mailOn kept 7 5 priorPay)) 3 9 ∧
    Answered (after (.noticePrior []) (mailOn kept 7 0 (priorPay.take 24))) 3 6 := by unfold Answered; decide +kernel

/-! ## Polornaz: jobs and the Control conversation -/

/-- A CONFIG payload about job 5, for a tray: COP, config epoch, entries. -/
def cfgPay (cop : Byte) (cfg : Nat) (es : List Nat) : List Byte :=
  [cop, 5, 0, 0] ++ leB 4 cfg ++ leB 8 200000 ++ [2, 0] ++ leB 2 es.length ++ leB 4 0 ++ leB 8 0 ++
    es.flatMap (fun e => leB 4 e ++ leB 4 1)
def job5 : Job := { (default : Job) with tag := 5, cfg := 2, homed := true, entries := [(9, true)] }
def prep3 (st : PrepState) : Prep := { (default : Prep) with cop := 3, cfg := 3, st := st, since := 7 }
def home (j : Job) : State := { tray with pz := { tray.pz with ctl := { tray.pz.ctl with jobs := [(5, j)], alloced := [3] } } }
def cfgOn (s : State) (cop : Byte) (cfg : Nat) (es : List Nat) : State := mailOn s 5 5 (cfgPay cop cfg es)

theorem test_config_alone : Alone (cfgOn (home job5) 3 3 []) (mmsg 5 5 (cfgPay 3 3 [])) 3 5 3 ∧
    (cfgMsg (cfgPay 3 3 [])).tag = 5 ∧ (cfgMsg (cfgPay 3 3 [])).cfg = 3 ∧ (cfgMsg (cfgPay 3 3 [9])).entries = [(9, true)] := by
  unfold Alone; decide +kernel

theorem test_config_binding : Answered (after .configRelease (mailOn (home job5) 5 6 (cfgPay 10 3 []))) 3 9 ∧
    (cfgMsg (cfgPay 10 3 [])).tag ≠ 6 := by unfold Answered; decide +kernel

theorem test_config_prepare : (home job5).pz.prepStatus (cfgMsg (cfgPay 3 3 [])) (cfgPay 3 3 []) = 0 ∧
    (let t := after .configChange (cfgOn (home job5) 3 3 [])
     Answered t 3 0 ∧ (t.pz.prepOf 5).map (fun p => (p.cfg.toNat, p.cop)) = some (3, 3)) ∧
    Answered (after .configChange (cfgOn (home job5) 3 4 [])) 3 9 ∧
    Answered (after .configGrow (cfgOn (home { job5 with prep := some (prep3 .preparing) }) 4 3 [])) 3 0xA ∧
    Answered (after .configStart (cfgOn (home job5) 2 3 [8])) 3 3 := by unfold Answered; decide +kernel

theorem test_config_elsewhere : Answered (after .configShrink (cfgOn (home { job5 with homed := false }) 5 3 [])) 3 3 ∧
    (home { job5 with homed := false }).pz.job 5 = some { job5 with homed := false } ∧ tray.pz.job 5 = none := by
  unfold Answered; decide +kernel

theorem test_config_teardown : (home job5).pz.job 5 = some job5 ∧
    (let t := after .configTeardown (cfgOn (home job5) 6 3 [9])
     Answered t 3 0 ∧ ((t.pz.job 5).bind (·.tear)).map (·.cop) = some 6) ∧
    Answered (after .configTeardown (cfgOn (home { job5 with tear := some (prep3 .preparing) }) 6 3 [9])) 3 0xA := by
  unfold Answered; decide +kernel

theorem test_config_accept : (let t := after .configAccept (cfgOn (home { job5 with prep := some (prep3 .partialWait) }) 7 3 [])
     Answered t 3 0 ∧ (t.pz.prepOf 5).map (fun p => (p.st, p.cfg)) = some (.committing, 3)) ∧
    Answered (after .configAccept (cfgOn (home job5) 7 3 [])) 3 9 ∧
    Answered (after .configAccept (cfgOn (home { job5 with prep := some (prep3 .preparing) }) 7 3 [])) 3 9 := by
  unfold Answered; decide +kernel

theorem test_config_cancel : (let t := after .configCancel (cfgOn (home { job5 with prep := some (prep3 .partialWait) }) 8 3 [])
     Answered t 3 0 ∧ t.pz.prepOf 5 = none) ∧
    Answered (after .configCancel (cfgOn (home { job5 with prep := some (prep3 .committing) }) 8 3 [])) 3 0xA ∧
    Answered (after .configCancel (cfgOn (home { job5 with prep := some (prep3 .partialWait) }) 8 4 [])) 3 9 := by
  unfold Answered; decide +kernel

theorem test_config_inkline : (let t := after .configInkline (cfgOn (home job5) 9 3 [])
     Answered t 3 0 ∧ t.pz.ctl.inks.length + t.pz.ctl.inkWait.length = 1) := by unfold Answered; decide +kernel

theorem test_config_release :
    (let s := { home job5 with pz := { (home job5).pz with routes := [(9, { route9 with teardown := true, assign := some 6 })] } }
     s.pz.entryLeaves (cfgMsg (cfgPay 10 3 [9])).entries = [9] ∧
     (let t := after .configRelease (cfgOn s 10 3 [9])
      Answered t 3 0 ∧ (t.pz.route 9).map (fun r => (r.tag, r.teardown)) = some (6, false))) := by unfold Answered; decide +kernel

/-- Roots and other devices without a lease or a relay in hand. -/
def root : State := pzOf (fun z => { (z.setFld PzR.PKG_CTL_ROLE 2) with ctl := { z.ctl with
  nextCfg := 0xFFFF, based := true, origin := 10, kids := [(100, { (default : Child) with port := 3 })] } })

theorem test_config_alloc : root.pz.role = 2 ∧ root.pz.allocBlocked = false ∧
    (let t := after .configAlloc (cfgOn root 1 0 [])
     Answered t 3 0 ∧ t.pz.ctl.alloced = [0xFFFF] ∧ t.pz.ctl.nextCfg = 1) ∧
    (let t := after .configAlloc (cfgOn tray 1 0 [])
     t.pz.ctl.askEpoch.length = 1 ∧ t.pz.mb.words = (cfgOn tray 1 0 []).pz.mb.words) := by unfold Answered; decide +kernel

/-- An Inkline that waits at the tray. -/
def tink (e : Word) (time : DWord) : TrayInk := { (default : TrayInk) with tag := 5, m := ⟨e, time, ⟨false, true, false⟩, 3⟩ }
def withInks (l : List TrayInk) : State := { tray with pz := { tray.pz with ctl := { tray.pz.ctl with epoch := 7, inks := l } } }

theorem test_tray_inkline : (withInks [tink 9 500, tink 8 400]).pz.nextInk = some (tink 8 400) ∧
    (let t := after .trayInkline (withInks [tink 9 500, tink 8 400])
     t.pz.ctl.epoch = 8 ∧ t.pz.ctl.inkTime = 400 ∧ t.pz.now = 400 ∧ t.pz.ctl.inks = [tink 9 500] ∧ t.pz.ctl.started = [(8, 400)]) ∧
    ((after .trayInkline (withInks [tink 6 400])).pz.ctl.epoch = 7) ∧ after .trayInkline tray = tray := by decide +kernel

theorem test_tray_cut_timeout : (let t := after (.trayCutTimeout 7) (cutting tray)
     t.pz.ctl.cuts = [] ∧ 2000000 ≤ t.pz.now) ∧ after (.trayCutTimeout 8) (cutting tray) = cutting tray := by decide +kernel

theorem test_prepare_timeout : (let t := after (.prepareTimeout 5) (home { job5 with prep := some (prep3 .partialWait) })
     t.pz.prepOf 5 = none ∧ t.pz.now = 7 + 1000000000 * tray.pz.fld PzR.CF_CTL_PREP_TO) ∧
    after (.prepareTimeout 5) (home { job5 with prep := some (prep3 .preparing) }) =
      home { job5 with prep := some (prep3 .preparing) } ∧
    after (.prepareTimeout 5) (home job5) = home job5 ∧ 1 ≤ tray.pz.fld PzR.CF_CTL_PREP_TO := by decide +kernel

theorem test_ctl_known : FreshPz up (head 4) 3 ∧
    (let t := after (.ctlInk .pz (head 4) ⟨8, 900, ⟨true, false, false⟩, 3⟩) (home job5)
     t.pz.known (head 4) 3 = true ∧ t.pz.ctl.inks.map (fun i => (i.tag, i.m.epoch)) = [(5, 8)] ∧
     (after (.ctlInk .pz (head 4) default) t).pz.ctl.inks = t.pz.ctl.inks) := by unfold FreshPz; decide +kernel

def head0 : CtlHead := { (head 4) with tag := 0 }

theorem test_lease : (let t := after (.ctlLease .pz head0 true 30 8) tray
     t.pz.ctl.next = 30 ∧ t.pz.ctl.left = 8) ∧ tblLookup root.pz.ctl.kids 100 = some { (default : Child) with port := 3 } ∧
    root.pz.route 100 = none ∧
    (let t := after (.ctlLease .pz head0 false 0 8) root
     t.pz.ctl.granted = [⟨100, root.pz.rootNext, 8⟩] ∧ t.pz.ctl.origin = root.pz.rootNext + 8) := by decide +kernel

theorem test_keepalive : tblLookup (after (.ctlKeepalive .pz head0 9 3) root).pz.ctl.kids 100 =
    some { port := 3, heard := root.pz.now, silent := false, epoch := 9 } := by decide +kernel

theorem test_ctl_epoch :
    (let s := { tray with pz := { tray.pz with ctl := { tray.pz.ctl with askEpoch := [mmsg 5 5 (cfgPay 1 0 [])] } } }
     let t := after (.ctlEpoch 16 (head 4) true 44) s
     Answered t 3 0 ∧ t.pz.ctl.alloced = [44] ∧ t.pz.ctl.askEpoch = []) ∧
    (after (.ctlEpoch 3 (head 4) false 0) tray).pz.ctl.askKids = [head 4] ∧ tray.pz.role ≠ 2 ∧
    (after (.ctlEpoch 3 (head 4) false 0) root).pz.ctl.nextCfg = 1 := by unfold Answered; decide +kernel

theorem test_ctl_tcut : (after (.ctlTcut 3 (head 4) 7 5 1 [11]) (cutting root)).pz.ctl.cuts = [{ cut7 with
    done := 5, timeout := 1, missing := [11], kids := [] }] ∧ FreshPz (cutting root) (head 4) 0xC := by unfold FreshPz; decide +kernel

theorem test_ctl_prepare : (let t := after (.ctlPrepare 16 (head 4) (cfgPay 3 3 [])) (home { job5 with homed := false })
     (t.pz.prepOf 5).map (fun p => (p.cfg, p.ask)) = some (3, some (head 4))) ∧
    (let t := after (.ctlPrepare 16 (head 4) (cfgPay 4 3 [])) (home { job5 with prep := some (prep3 .preparing) })
     (t.pz.ctl.answers.head?).map (fun a => (a.1, a.2.1)) = some (100, 4) ∧
     t.pz.ctl.jobs = (home { job5 with prep := some (prep3 .preparing) }).pz.ctl.jobs) := by decide +kernel

/-- An alarm that a parent has not acknowledged, and a message that a leaf has not answered. -/
def alarm7 : Unacked := { msg := ⟨9, 0, 3, 7, false, []⟩, aseq := 7, sent := 300 }
def told (op : Byte) (sends : Nat) : Sent := { (default : Sent) with rcpt := 9, port := 4, op := op, cseq := 6, leaves := [9], sends := sends }
def talking (x : Sent) : State := { tray with pz := { tray.pz with ctl := { tray.pz.ctl with unacked := [alarm7], sent := [x] } } }

theorem test_almack : (after (.ctlAlmack 16 (head 4) [(9, 7)]) (talking (told 5 1))).pz.ctl.unacked = [] ∧
    (after (.ctlAlmack 16 (head 4) [(9, 8)]) (talking (told 5 1))).pz.ctl.unacked = [alarm7] := by decide +kernel

/-- A relayed mailbox message: a fence notice of leaf 9. -/
def relayBody : List Byte :=
  let p := note 1 0
  leB 4 (0x80000000 + 7 * 65536 + 20) ++ leB 4 0x500 ++ leB 4 0 ++ leB 4 (crc32c p) ++ p

theorem test_relay : (let t := after (.ctlRelay 16 (head 4) relayBody) tray
     t.pz.mb.queue.map (fun m => (m.mtype, m.op, m.secure)) = [(7, 1, true)]) ∧
    tray.pz.mbRefusal (mbMsg (.relay 100 4 3) true (leAt relayBody 0 4) (leAt relayBody 4 4) (leAt relayBody 8 4)
      (leAt relayBody 12 4) (note 1 0)) = none := by decide +kernel

theorem test_reparent : (tblLookup (after (.ctlReparent 5 (head 4) 200 true false) root).pz.ctl.kids 100).map
    (fun k => (k.port, k.silent)) = some (5, false) := by decide +kernel

def ack9 (op : Byte) (cseq : BitVec 16) : AckMsg := ⟨op, 0, cseq, 3, 0, 9, 0, 0, []⟩

theorem test_ack : (after (.configAckRx .pz (ack9 5 6)) (talking (told 5 1))).pz.ctl.sent = [] ∧
    (after (.configAckRx .pz (ack9 5 7)) (talking (told 5 1))).pz.ctl.sent = [told 5 1] := by decide +kernel

theorem test_repeat : (after (.configRepeat .pz 9 6) (talking (told 5 1))).pz.ctl.sent.map (·.sends) = [2] ∧
    (after (.configRepeat .pz 9 6) (talking (told 5 4))).pz.fld PzR.CF_CNT_MISSING = 1 ∧
    after (.configRepeat .pz 9 7) (talking (told 5 1)) = talking (told 5 1) := by decide +kernel

/-! ## Polornaz: who is there -/

theorem test_keepalive_send : (let s := { root with pz := root.pz.setFld (PzR.PORT_STAT_LINK.at 24) 1 }
    let t := after .keepaliveSend s
    t.pz.now = 250000 ∧ t.pz.out.any (fun o => match o with | .msg 3 m => m.ty == 8 | _ => false) = true) := by decide +kernel

theorem test_child_timeout : tblLookup (after (.childTimeout 100) root).pz.ctl.kids 100 =
    some { (default : Child) with port := 3, silent := true } ∧ (after (.childTimeout 100) root).pz.now = 2000000 ∧
    after (.childTimeout 101) root = root := by decide +kernel

/-- On which path a device is, and how it looks for a parent. -/
def onPath (n : Nat) : State := { talking (told 5 1) with pz := (talking (told 5 1)).pz.setFld PzR.CF_STAT_PATH n }
def seeks (t : State) : Nat × Nat × Bool := (t.pz.fld PzR.CF_STAT_PATH, t.pz.fld PzR.CF_CNT_REPARENTS, t.pz.ctl.toward)

theorem test_parent_lost : seeks (after .parentTimeout (onPath 0)) = (2, 1, false) ∧ seeks (after .almackTimeout (onPath 1)) = (2, 1, true) ∧
    20300 ≤ (after .almackTimeout (onPath 1)).pz.now ∧ seeks (after .u0LinkFault (onPath 0)) = (2, 1, false) ∧
    seeks (after (.cfReturn secure 0) (onPath 1)) = (2, 1, true) := by decide +kernel

theorem test_parent_kept : after .parentTimeout root = root ∧ after .almackTimeout (onPath 3) = onPath 3 ∧
    after .almackTimeout tray = tray ∧ after .u0LinkFault (onPath 1) = onPath 1 ∧ Admitted (onPath 1) secure 0x80000 ∧
    (after (.cfReturn secure 0) (onPath 2)).pz.ctl = (onPath 2).pz.ctl := by unfold Admitted; decide +kernel

theorem test_reparent_times : (let t := after .reparentTimeout (onPath 2)
     t.pz.fld PzR.CF_STAT_PATH = 3 ∧ t.pz.now = 2000000) ∧ after .reparentTimeout (onPath 1) = onPath 1 ∧
    (let t := after .reparentRetry (onPath 3)
     t.pz.ctl.sent.map (fun x => (x.op, x.port)) = [(5, 4), (9, 16), (9, 17)] ∧ t.pz.now = 10000000) ∧
    after .reparentRetry (onPath 2) = onPath 2 := by decide +kernel

theorem test_promote : (let s := { tray with pz := { tray.pz with ctl := { tray.pz.ctl with
     chains := [(4, { (default : ChainReg) with master := 9, sub := some 12 })] } } }
    let c := tget (after (.submasterPromote 4) s).pz.ctl.chains 4
    c.master = 12 ∧ c.sub = none) ∧
    after (.submasterPromote 5) tray = tray := by decide +kernel

/-- A registration of one entry: kind, fleet ID, device class in VERSION. -/
def regBody (k : Byte) (f : Nat) (ver : Byte) : List Byte := [k, 1, 0, 0] ++ leB 4 f ++ leB 4 8 ++ leB 4 0x00030002 ++ [ver, 0, 0, 0]
def regOn (k : Byte) (f : Nat) (ver : Byte) : State := whole4 { (default : Message) with fleet := BitVec.ofNat 32 f, ty := 7, body := regBody k f ver }

theorem test_reg_leaf : (regEnts (regBody 1 77 0x31)).map (fun e => (e.fleet, e.version)) = [(77, 0x31)] ∧
    ((after (.regLeaf 4) (regOn 1 77 0x31)).pz.route 77).map (fun r => (r.port, r.home, r.pos, r.refused)) = some (4, 16, 3, false) ∧
    (after (.regLeaf 4) (regOn 1 77 0x21)).pz.route 77 = none ∧ after (.regLeaf 4) tray = tray := by decide +kernel

theorem test_reg_member : (tget (after (.regMemberReport 4) (regOn 2 77 0x31)).pz.ctl.chains 4).master = 77 ∧
    (let s := regOn 2 77 0x31
     let s := { s with pz := { s.pz with ctl := { s.pz.ctl with chains := [(4, { (default : ChainReg) with master := 9 })] } } }
     (tget (after (.regMemberReport 4) s).pz.ctl.chains 4).sub = some 77) ∧ after (.regMemberReport 5) tray = tray := by decide +kernel

theorem test_reg_polornaz : tblLookup (after (.regPolornaz 4) (regOn 3 77 0x11)).pz.ctl.kids 77 = some ⟨4, 0, false, 8⟩ ∧
    (after (.regPolornaz 4) (regOn 3 77 0x31)).pz.ctl.kids = [] ∧ after (.regPolornaz 4) tray = tray := by decide +kernel

/-! ## The queue, the whole machine, and what is ill formed -/

theorem test_step_front : (match step { up with pending := [.linkUp 4, .treeResult 0 0 0] } with
    | .next t => decide (t.pending = [.treeResult 0 0 0] ∧ t.pz = (after (.linkUp 4) up).pz)
    | _ => false) = true := by decide +kernel

theorem test_idle : State.reset.leaf.timeRuns = false ∧ live.leaf.timeRuns = true ∧ live.pending = [] ∧
    (match step up with | .next t => decide (t.leaf.time.clk = up.leaf.time.clk + 1 ∧ t.leaf.time.ns = up.leaf.time.ns) | _ => false) = true ∧
    (match step live with | .next t => decide (t.leaf.time.ns = live.leaf.time.ns + 1) | _ => false) = true := by decide +kernel

theorem test_parts_apart : partOf (.phaseStep) = .leaf ∧ partOf (.linkUp 4) = .pz ∧
    (after .inklineTime live).pz = live.pz ∧ (after (.linkUp 4) live).leaf = live.leaf := by decide +kernel

theorem test_memory_form : (let s := { up with pz := up.pz.write 0x8000000 [1, 0, 2] }
    Memory.wf s.pz.mem = true ∧ s.pz.mem.length = 2) := by decide +kernel

theorem test_silent : glAssigned 0x0C = false ∧ pzAssigned 0x20 = false ∧
    after (.registerWrite .leaf { secure with size := 1 } 0x1008 7) up = up ∧
    after (.registerWrite .pz secure 0x60002 7) up = up ∧
    (after (.rcFieldRead .leaf secure 0x0C) up).leaf.rdata = 0 ∧ (after (.splitValueLowRead .pz secure 0x20) up).pz.rdata = 0 := by
  decide +kernel

theorem test_reset : State.reset.leaf.reg 0x1008 = 0 ∧ State.reset.leaf.reg 0x2004 = 0xC0088000 ∧
    State.reset.pz.reg 0x50100 = 0x0001B580 ∧ State.reset.pz.reg 0x50880 = 0x60000000 ∧ State.reset.pz.reg 0x10464 = 0x10000000 ∧ Memory.wf State.reset.pz.mem = true := by decide +kernel

/-- A cell without a payload, and a wave without a feature. -/
def cell0 : Cell := { (default : Cell) with payload := [] }
def wave0 : WaveMsg := { (default : WaveMsg) with recs := [] }

theorem test_ill_formed_items : WellFormed (.periodicItem 0 ⟨1, [(0, 2)]⟩) = false ∧ WellFormed (.periodicItem 0 ⟨2, [(0, 1), (0, 1)]⟩) = false ∧
    WellFormed (.strobeItem 0 ⟨1, []⟩ [⟨1, true, false, 0⟩, ⟨1, false, true, 0⟩]) = false ∧
    WellFormed (.markerItem 0 ⟨1, [(0, 2)]⟩ []) = false ∧ WellFormed (.evStopReq 0 ⟨1, [(0, 2)]⟩ []) = false ∧
    WellFormed (.cgControlWrite 0 (some 9) secure 0) = false ∧ WellFormed (.periodicItem 0 ⟨2, [(0, 1), (5, 2)]⟩) = true := by decide

theorem test_ill_formed_cells : WellFormed (.forwardCell cell0) = false ∧ WellFormed (.uplinkCellRx cell0) = false ∧
    WellFormed (.cellIngress 3 cell0 true 0 false) = false ∧ WellFormed (.cellIngress 18 { cell0 with payload := [1] } true 0 false) = false ∧
    WellFormed (.timeCellRx { (default : TimeCell) with t1 := 2 ^ 68 }) = false ∧
    WellFormed (.timeCellRx { (default : TimeCell) with t4 := 2 ^ 68 }) = false ∧ WellFormed (.reedWave true wave0 true) = false ∧
    WellFormed (.forwardCell { cell0 with payload := [1] }) = true := by decide +kernel

theorem test_ill_formed_control : WellFormed (.scrubRead .sram [1, 2] false) = false ∧
    WellFormed (.ctlWrite (head 1) [.write 0xFFFC [1, 2]]) = false ∧ WellFormed (.ctlWrite (head 1) [.page 40 2047 [1, 2]]) = false ∧
    WellFormed (.ctlRelay 18 (head 1) []) = false ∧ WellFormed (.ctlReparent 18 (head 1) 0 false false) = false ∧
    WellFormed (.ctlEpoch 18 (head 1) false 0) = false ∧ WellFormed (.ctlTcut 18 (head 1) 0 0 0 []) = false ∧
    WellFormed (.ctlPrepare 18 (head 1) []) = false ∧ WellFormed (.ctlAlmack 18 (head 1) []) = false ∧
    WellFormed (.configAckRx .pz { (ack9 5 6) with list := List.replicate 57 0 }) = false ∧
    WellFormed (.ctlWrite (head 1) [.write 0x9000 [1, 2]]) = true := by decide +kernel

theorem test_ill_formed_ports : WellFormed (.regPolornaz 18) = false ∧ WellFormed (.ingressAlarm 18) = false ∧
    WellFormed (.traceRecordRx 18) = false ∧ WellFormed (.ptpDelayReqRx 18 true 0 0 0) = false ∧
    WellFormed (.ptpSyncSend 18 true 0) = false ∧
    WellFormed (.ptpAnnounceSend 18 true) = false ∧ WellFormed (.portModeWrite 18 secure 0) = false ∧ WellFormed (.linkDrop 18) = false ∧
    WellFormed (.linkUp 18) = false ∧ WellFormed (.advisoryRx 18) = false ∧ WellFormed (.linkUp 17) = true := by decide

theorem test_ill_formed_chip : WellFormed (.tempSample [1]) = false ∧ WellFormed (.meshLinkDown 0 5 []) = false ∧
    WellFormed (.meshLinkDown 0 1 []) = true ∧ WellFormed (.bar2Read 0 0) = false ∧ WellFormed (.bar2Write 0x1FFFFFFF [1, 2]) = false ∧
    WellFormed (.railPowerGood 7) = false ∧ WellFormed (.railFault 7) = false ∧
    WellFormed (.fence .quill ⟨1, 0, 0, 0⟩) = false ∧ WellFormed (.fence .quill ⟨0, 0, 0, 0⟩) = true := by decide

end Sys2Proof.Tests
end

section
/-!
Register accesses of both parts (R10 to R17): what the fields of a register word hold after a write and after a read, what
each access does by its verdict, and the obligations that follow (O20, O47).
-/

namespace Sys2Proof.Machine

open Sys2Proof.Claims

/-! ## Words of registers -/

/-- Fields of a word of 32 bits of which no two share a bit. -/
abbrev FieldsApart (fs : List RegField) : Prop :=
  fs.Pairwise (fun f g => g.hi < f.lo ∨ f.hi < g.lo) ∧ ∀ f ∈ fs, f.hi < 32

/-- Table 19.1 lays no field over another. -/
theorem glRows_fieldsApart : ∀ r ∈ glRows, FieldsApart r.flds := by decide +kernel

/-- Table 19.2 lays no field over another. -/
theorem pzRows_fieldsApart : ∀ r ∈ pzRows, FieldsApart r.flds := by decide +kernel

theorem findRow_mem {rows : List RegRow} {off : Nat} {r : RegRow} (h : findRow rows off = some r) : r ∈ rows :=
  List.mem_of_find?_eq_some h

/-- Updates of fields that each leave a field apart as it was leave a field apart from all of them. -/
theorem bits_foldl_other (upd : Nat → RegField → Nat)
    (hother : ∀ w (f g : RegField), (g.hi < f.lo ∨ f.hi < g.lo) → bits (upd w f) g.hi g.lo = bits w g.hi g.lo)
    (fs : List RegField) (w : Nat) (g : RegField) (hg : ∀ f ∈ fs, g.hi < f.lo ∨ f.hi < g.lo) :
    bits (fs.foldl upd w) g.hi g.lo = bits w g.hi g.lo := by
  induction fs generalizing w with
  | nil => rfl
  | cons f fs ih =>
    rw [List.foldl_cons, ih _ (fun a ha => hg a (List.mem_cons_of_mem f ha)), hother _ _ _ (hg f List.mem_cons_self)]

/-- Updates of fields that are apart: every field ends as its own update makes it. -/
theorem bits_foldl_field (upd : Nat → RegField → Nat)
    (hother : ∀ w (f g : RegField), (g.hi < f.lo ∨ f.hi < g.lo) → bits (upd w f) g.hi g.lo = bits w g.hi g.lo)
    (val : RegField → Nat) (fs : List RegField) (hfs : fs.Pairwise (fun f g => g.hi < f.lo ∨ f.hi < g.lo)) (w : Nat)
    (hval : ∀ f ∈ fs, ∀ x, bits x f.hi f.lo = bits w f.hi f.lo → bits (upd x f) f.hi f.lo = val f)
    (f : RegField) (hf : f ∈ fs) : bits (fs.foldl upd w) f.hi f.lo = val f := by
  induction fs generalizing w with
  | nil => simp at hf
  | cons g gs ih =>
    obtain ⟨hg, hgs⟩ := List.pairwise_cons.1 hfs
    rw [List.foldl_cons]
    rcases List.mem_cons.1 hf with rfl | hf
    · rw [bits_foldl_other upd hother gs _ f (fun a ha => (hg a ha).symm), hval f List.mem_cons_self w rfl]
    · refine ih hgs (upd w g) (fun a ha x hx => hval a (List.mem_cons_of_mem g ha) x ?_) hf
      rw [hx, hother _ _ _ (hg a ha)]

/-- A number below `2 ^ n` is the sum of the bits that a mask names and those that it does not. -/
theorem and_add_and_compl (n a b : Nat) (ha : a < 2 ^ n) : (a &&& b) + (a &&& ((2 ^ n - 1) ^^^ b)) = a := by
  have hdisj : BitVec.ofNat n (a &&& b) &&& BitVec.ofNat n (a &&& ((2 ^ n - 1) ^^^ b)) = 0#n := by
    apply BitVec.eq_of_getLsbD_eq
    intro i hi
    simp only [BitVec.getLsbD_and, BitVec.getLsbD_ofNat, Nat.zero_testBit, Nat.testBit_and, Nat.testBit_xor,
      Nat.testBit_two_pow_sub_one, hi]
    cases a.testBit i <;> cases b.testBit i <;> rfl
  have hor : BitVec.ofNat n (a &&& b) ||| BitVec.ofNat n (a &&& ((2 ^ n - 1) ^^^ b)) = BitVec.ofNat n a := by
    apply BitVec.eq_of_getLsbD_eq
    intro i hi
    simp only [BitVec.getLsbD_or, BitVec.getLsbD_ofNat, Nat.testBit_and, Nat.testBit_xor, Nat.testBit_two_pow_sub_one, hi]
    cases a.testBit i <;> cases b.testBit i <;> rfl
  have hsum := BitVec.toNat_add_of_and_eq_zero hdisj
  have h1 : a &&& b ≤ a := Nat.and_le_left
  have h2 : a &&& ((2 ^ n - 1) ^^^ b) ≤ a := Nat.and_le_left
  rw [BitVec.add_eq_or_of_and_eq_zero _ _ hdisj, hor, BitVec.toNat_ofNat, BitVec.toNat_ofNat, BitVec.toNat_ofNat,
    Nat.mod_eq_of_lt ha, Nat.mod_eq_of_lt (by omega), Nat.mod_eq_of_lt (by omega)] at hsum
  exact hsum.symm

/-- A field of a word set to a value that fits it. -/
theorem bits_setBits_of_lt (w v hi lo : Nat) (h : v < 2 ^ (hi + 1 - lo)) : bits (setBits w hi lo v) hi lo = v := by
  rw [bits_setBits_same, Nat.mod_eq_of_lt h]

/-- A write of the secure world leaves in every field of the word what its access code says (Table 0.5). -/
theorem RegRow.bits_write (r : RegRow) (hr : FieldsApart r.flds) (old new : Nat) (f : RegField) (hf : f ∈ r.flds) :
    bits (r.write false old new) f.hi f.lo = writtenBits f old new := by
  refine bits_foldl_field _ ?other (fun f => writtenBits f old new) r.flds hr.1 old ?val f hf
  case other =>
    intro w f g hfg
    cases hacc : f.acc
    case rw | srw | w1c => exact bits_setBits_other _ _ _ _ _ _ hfg
    case ro | wo | rc | rwp => rfl
  case val =>
    intro f _ x hx
    unfold writtenBits
    cases hacc : f.acc
    case rw | srw => exact bits_setBits_of_lt _ _ _ _ (bits_lt _ _ _)
    case w1c =>
      have hsum := and_add_and_compl _ _ (bits new f.hi f.lo) (bits_lt x f.hi f.lo)
      simp only [← hx]
      rw [bits_setBits_of_lt _ _ _ _ (Nat.lt_of_le_of_lt (Nat.sub_le _ _) (bits_lt _ _ _))]
      omega
    case ro | wo | rc | rwp => exact hx

/-- A read clears the RC fields of the word and leaves its other fields (R15, Table 0.5). -/
theorem RegRow.bits_afterRead (r : RegRow) (hr : FieldsApart r.flds) (w : Nat) (f : RegField) (hf : f ∈ r.flds) :
    bits (r.afterRead w) f.hi f.lo = if f.acc = .rc then 0 else bits w f.hi f.lo := by
  refine bits_foldl_field _ ?other (fun f => if f.acc = .rc then 0 else bits w f.hi f.lo) r.flds hr.1 w ?val f hf
  case other =>
    intro x f g hfg
    split
    · exact bits_setBits_other _ _ _ _ _ _ hfg
    · rfl
  case val =>
    intro f _ x hx
    split
    · exact bits_setBits_of_lt _ _ _ _ (Nat.two_pow_pos _)
    · exact hx

/-! ## The commands on registers of either part -/

theorem exec_registerWrite (part : Part) (p : Port) (addr : BitVec 26) (data : Word) (s : State) :
    exec (.registerWrite part p addr data) s = .next (writePart part p addr data s) := rfl

theorem exec_splitValueLowRead (part : Part) (p : Port) (addr : BitVec 26) (s : State) :
    exec (.splitValueLowRead part p addr) s = .next (readPart part p addr s) := rfl

theorem exec_rcFieldRead (part : Part) (p : Port) (addr : BitVec 26) (s : State) :
    exec (.rcFieldRead part p addr) s = .next (readPart part p addr s) := rfl

/-- Both commands that read a register do what a read of its part does. -/
theorem exec_read (part : Part) (p : Port) (addr : BitVec 26) (s : State) (i : Instr)
    (hi : i ∈ [Instr.splitValueLowRead part p addr, .rcFieldRead part p addr]) :
    exec i s = .next (readPart part p addr s) := by
  simp only [List.mem_cons, List.not_mem_nil, or_false] at hi
  rcases hi with rfl | rfl
  · exact exec_splitValueLowRead part p addr s
  · exact exec_rcFieldRead part p addr s

@[simp] theorem readPart_leaf (p : Port) (addr : BitVec 26) (s : State) :
    (readPart .leaf p addr s).leaf = s.leaf.portRead p addr.toNat := rfl

@[simp] theorem writePart_leaf (p : Port) (addr : BitVec 26) (data : Word) (s : State) :
    (writePart .leaf p addr data s).leaf = s.leaf.portWrite p addr.toNat data := rfl

@[simp] theorem writePart_pz (p : Port) (addr : BitVec 26) (data : Word) (s : State) :
    (writePart .pz p addr data s).pz = s.pz.portWrite0 p addr data := rfl

/-! ## Accesses that are not let through -/

/-- An access of the leaf of another width, not aligned or of an unassigned offset is silent (R12, R13). -/
theorem Leaf.verdict_silent (l : Leaf) (p : Port) (off : Nat) (w : Bool)
    (h : p.size ≠ 2 ∨ off % 4 ≠ 0 ∨ glAssigned off = false) : l.verdict p off w = .silent := by
  by_cases hform : p.size ≠ 2 ∨ off % 4 ≠ 0
  · simp only [Leaf.verdict, if_pos hform]
  · have hoff : glAssigned off = false := (or_assoc.2 h).resolve_left hform
    simp only [Leaf.verdict, if_neg hform, hoff, Bool.not_false, if_true]

/-- An access of Polornaz of another width, not aligned or of an unassigned offset is silent (R12, R13). -/
theorem Pz.verdict_silent (z : Pz) (p : Port) (addr : BitVec 26)
    (h : p.size ≠ 2 ∨ barOff addr % 4 ≠ 0 ∨ pzAssigned (barOff addr) = false) : z.verdict p addr = .silent := by
  have hcond : !z.answers p ∨ p.size ≠ 2 ∨ barOff addr % 4 ≠ 0 ∨ !pzAssigned (barOff addr) :=
    Or.inr (h.imp_right (Or.imp_right fun ha => by rw [ha]; rfl))
  simp only [Pz.verdict, if_pos hcond]

theorem Leaf.portRead_silent (p : Port) (off : Nat) (l : Leaf) (h : l.verdict p off false = .silent) :
    l.portRead p off = { l with rdata := 0 } :=
  Leaf.guarded_silent p off false _ { l with rdata := 0 } h

theorem Leaf.portRead_violation (p : Port) (off b : Nat) (l : Leaf) (h : l.verdict p off false = .violation b) :
    l.portRead p off = Leaf.violate b { l with rdata := 0 } :=
  Leaf.guarded_violation p off b false _ { l with rdata := 0 } h

theorem Leaf.portWrite_silent (p : Port) (off : Nat) (data : Word) (l : Leaf) (h : l.verdict p off true = .silent) :
    l.portWrite p off data = l :=
  Leaf.guarded_silent p off true _ l h

theorem Leaf.portWrite_violation (p : Port) (off b : Nat) (data : Word) (l : Leaf) (h : l.verdict p off true = .violation b) :
    l.portWrite p off data = l.violate b :=
  Leaf.guarded_violation p off b true _ l h

theorem Pz.portRead_silent (p : Port) (addr : BitVec 26) (free : DWord) (z : Pz) (h : z.verdict p addr = .silent) :
    z.portRead p addr free = { z with rdata := 0 } := by
  unfold Pz.portRead
  exact Pz.guarded_silent p addr _ { z with rdata := 0 } h

theorem Pz.portWrite0_silent (p : Port) (addr : BitVec 26) (data : Word) (z : Pz) (h : z.verdict p addr = .silent) :
    z.portWrite0 p addr data = z :=
  Pz.guarded_silent p addr _ z h

theorem Pz.portWrite0_violation (p : Port) (addr : BitVec 26) (b : Nat) (data : Word) (z : Pz)
    (h : z.verdict p addr = .violation b) : z.portWrite0 p addr data = z.violate b :=
  Pz.guarded_violation p addr b _ z h

/-- A silent read of the leaf answers zero and does nothing else (R12, R13). -/
theorem readPart_leaf_silent (p : Port) (addr : BitVec 26) (s : State) (h : s.leaf.verdict p addr.toNat false = .silent) :
    readPart .leaf p addr s = { s with leaf := { s.leaf with rdata := 0 } } :=
  congrArg (fun l => { s with leaf := l }) (Leaf.portRead_silent p _ s.leaf h)

/-- A silent write of the leaf does nothing (R12, R13). -/
theorem writePart_leaf_silent (p : Port) (addr : BitVec 26) (data : Word) (s : State)
    (h : s.leaf.verdict p addr.toNat true = .silent) : writePart .leaf p addr data s = s :=
  congrArg (fun l => { s with leaf := l }) (Leaf.portWrite_silent p _ data s.leaf h)

/-- A silent write of Polornaz does nothing (R12, R13). -/
theorem writePart_pz_silent (p : Port) (addr : BitVec 26) (data : Word) (s : State) (h : s.pz.verdict p addr = .silent) :
    writePart .pz p addr data s = s :=
  congrArg (fun z => { s with pz := z }) (Pz.portWrite0_silent p addr data s.pz h)

/-! ## Reads of the leaf -/

/-- The secure world meets no SRW violation. -/
theorem Leaf.srwNote_secure (p : Port) (off : Nat) (l : Leaf) (h : p.ns = false) : l.srwNote p off = l := by
  simp [Leaf.srwNote, h]

/-- A read that is let through rests on nothing of the word read last. -/
theorem Leaf.readAdmitted_of_rdata (p : Port) (off : Nat) (l : Leaf) (x : Word) (r : RegRow) (hr : findRow glRows off = some r) :
    Leaf.readAdmitted p off { l with rdata := x } = l.readAdmitted p off := by
  simp only [Leaf.readAdmitted, hr]
  rfl

/-- A secure read that is let through, of a register that is neither in the program window nor a claim register. -/
theorem Leaf.portRead_pass (p : Port) (off : Nat) (l : Leaf) (r : RegRow) (hr : findRow glRows off = some r)
    (h : l.verdict p off false = .pass) (hns : p.ns = false) (hwin : off < 0xE000)
    (hclaim : ¬ (0xD00 ≤ off ∧ off < 0xE00 ∧ off % 0x20 = 0)) : l.portRead p off = l.readAdmitted p off := by
  refine (Leaf.guarded_pass p off false _ { l with rdata := 0 } h).trans ?_
  rw [Leaf.srwNote_secure p off _ hns, if_neg (Nat.not_le.2 hwin), if_neg hclaim, Leaf.readAdmitted_of_rdata p off l 0 r hr]

/-- A read without a capture shows the register's fields. -/
theorem Leaf.readAdmitted_rdata_fresh (p : Port) (off : Nat) (l : Leaf) (r : RegRow) (hr : findRow glRows off = some r)
    (hc : l.caps.find? (fun c => c.1 == capKey p off) = none) :
    (l.readAdmitted p off).rdata = BitVec.ofNat 32 (r.show p.ns (l.view p.ns off)) := by
  simp only [Leaf.readAdmitted, hr, hc]

/-- A read with a capture shows the value kept in the bits that carry it (R11). -/
theorem Leaf.readAdmitted_rdata_kept (p : Port) (off : Nat) (l : Leaf) (r : RegRow) (k : Nat) (v : Word)
    (hr : findRow glRows off = some r) (hc : l.caps.find? (fun c => c.1 == capKey p off) = some (k, v)) :
    (l.readAdmitted p off).rdata =
      BitVec.ofNat 32 (setBits (r.show p.ns (l.view p.ns off)) (glHighBits off - 1) 0 v.toNat) := by
  simp only [Leaf.readAdmitted, hr, hc]

theorem Leaf.readAdmitted_reg_same (p : Port) (off : Nat) (l : Leaf) (r : RegRow) (hr : findRow glRows off = some r) :
    (l.readAdmitted p off).reg off = BitVec.ofNat 32 (r.afterRead (l.reg off).toNat) := by
  simp only [Leaf.readAdmitted, hr]
  exact Leaf.reg_setReg_same l off _

theorem Leaf.readAdmitted_reg_other (p : Port) (off o : Nat) (l : Leaf) (h : o ≠ off) :
    (l.readAdmitted p off).reg o = l.reg o := by
  unfold Leaf.readAdmitted
  split
  · rfl
  · exact Leaf.reg_setReg_other l off o _ h

/-- A read of a lower half keeps the upper half for the requester (R11). -/
theorem Leaf.readAdmitted_keeps_high (p : Port) (off : Nat) (l : Leaf) (r : RegRow) (hr : findRow glRows off = some r)
    (hlow : glLow off = true) :
    (l.readAdmitted p off).caps.find? (fun c => c.1 == capKey p (off + 4)) =
      some (capKey p (off + 4), BitVec.ofNat 32 (bits (l.view p.ns (off + 4)) (glHighBits off - 1) 0)) := by
  simp only [Leaf.readAdmitted, hr, hlow, if_true]
  exact List.find?_cons_of_pos (by simp)

/-- A read of a register that is no lower half uses up what was kept for it (R11). -/
theorem Leaf.readAdmitted_uses_kept (p : Port) (off : Nat) (l : Leaf) (r : RegRow) (hr : findRow glRows off = some r)
    (hlow : glLow off = false) : (l.readAdmitted p off).caps.find? (fun c => c.1 == capKey p off) = none := by
  simp [Leaf.readAdmitted, hr, hlow]

/-! ## The registers of aligned time -/

/-- The lower register of aligned time (Table 19.1). -/
theorem findRow_timeLow : findRow glRows 0x1010 = some ⟨0x1010, [], [⟨31, 0, .ro, 0⟩]⟩ := by decide +kernel

/-- The upper register of aligned time (Table 19.1). -/
theorem findRow_timeHigh : findRow glRows 0x1014 = some ⟨0x1014, [], [⟨31, 0, .ro, 0⟩]⟩ := by decide +kernel

theorem bits_wholeWord (w : Nat) : bits w 31 0 = w % 2 ^ 32 := rfl

/-- A register of one read-only field that takes the whole word shows the word. -/
theorem show_wholeWord (base : Nat) (ns : Bool) (w : Nat) :
    RegRow.show ⟨base, [], [⟨31, 0, .ro, 0⟩]⟩ ns w = w % 2 ^ 32 := by
  simp [RegRow.show, bits_wholeWord]

theorem setBits_wholeWord (w v : Nat) (h : w < 2 ^ 32) : setBits w 31 0 v = v % 2 ^ 32 := by
  simp only [setBits, bits_wholeWord]
  omega

theorem word_ofNat_mod (n : Nat) : BitVec.ofNat 32 (n % 2 ^ 32) = BitVec.ofNat 32 n :=
  BitVec.eq_of_toNat_eq (by simp)

/-! ## Writes of stored fields -/

/-- A write of one of the leaf's plain registers only sets stored fields. -/
theorem Leaf.writeAdmitted_plain : ∀ off ∈ leafPlain, ∀ (p : Port) (data : Word) (l : Leaf),
    l.writeAdmitted p off data = l.plainWrite p off data := by
  simp only [leafPlain, List.forall_mem_cons]
  refine ⟨?_, ?_, ?_, ?_, ?_, ?_, ?_, ?_, ?_, ?_, ?_, ?_, ?_, ?_, ?_, ?_, fun _ hoff => absurd hoff List.not_mem_nil⟩ <;>
    exact fun _ _ _ => rfl

/-- A write of one of the plain registers of Polornaz only sets stored fields. -/
theorem Pz.writeAdmitted_plain : ∀ off ∈ pzPlain, ∀ (p : Port) (sec : Bool) (data : Word) (z : Pz),
    z.writeAdmitted p sec off data = z.plainWrite (!sec) off data := by
  simp only [pzPlain, List.forall_mem_cons]
  refine ⟨?_, ?_, ?_, ?_, ?_, ?_, ?_, ?_, ?_, ?_, fun _ hoff => absurd hoff List.not_mem_nil⟩ <;>
    exact fun _ _ _ _ => rfl

/-- A plain write of the secure world sets each field of the leaf's register by its access code. -/
theorem Leaf.bits_plainWrite (p : Port) (off : Nat) (data : Word) (l : Leaf) (r : RegRow) (hr : findRow glRows off = some r)
    (hns : p.ns = false) (f : RegField) (hf : f ∈ r.flds) :
    bits ((l.plainWrite p off data).reg off).toNat f.hi f.lo = writtenBits f (l.reg off).toNat data.toNat := by
  have hfs := glRows_fieldsApart r (findRow_mem hr)
  simp only [Leaf.plainWrite, hr, Leaf.reg_setReg_same, hns]
  rw [bits_ofNat32 _ _ _ (hfs.2 f hf), r.bits_write hfs _ _ f hf]

theorem Leaf.plainWrite_reg_other (p : Port) (off o : Nat) (data : Word) (l : Leaf) (h : o ≠ off) :
    (l.plainWrite p off data).reg o = l.reg o := by
  unfold Leaf.plainWrite
  split
  · rfl
  · exact Leaf.reg_setReg_other l off o _ h

/-- A plain write of the secure world sets each field of the register of Polornaz by its access code. -/
theorem Pz.bits_plainWrite (off : Nat) (data : Word) (z : Pz) (r : RegRow) (hr : findRow pzRows off = some r)
    (f : RegField) (hf : f ∈ r.flds) :
    bits ((z.plainWrite false off data).reg off).toNat f.hi f.lo = writtenBits f (z.reg off).toNat data.toNat := by
  have hfs := pzRows_fieldsApart r (findRow_mem hr)
  simp only [Pz.plainWrite, hr, Pz.reg_setReg_same]
  rw [bits_ofNat32 _ _ _ (hfs.2 f hf), r.bits_write hfs _ _ f hf]

theorem Pz.plainWrite_reg_other (ns : Bool) (off o : Nat) (data : Word) (z : Pz) (h : o ≠ off) :
    (z.plainWrite ns off data).reg o = z.reg o := by
  unfold Pz.plainWrite
  split
  · rfl
  · exact Pz.reg_setReg_other z off o _ h

/-- A secure write that is let through to a plain register of the leaf is a plain write. -/
theorem Leaf.portWrite_plain (p : Port) (off : Nat) (data : Word) (l : Leaf) (hoff : off ∈ leafPlain)
    (hns : p.ns = false) (h : l.verdict p off true = .pass) : l.portWrite p off data = l.plainWrite p off data := by
  rw [Leaf.portWrite, Leaf.guarded_pass p off true _ _ h, Leaf.srwNote_secure p off _ hns,
    Leaf.writeAdmitted_plain off hoff]

/-- A secure write that is let through to a plain register of Polornaz is a plain write. -/
theorem Pz.portWrite0_plain (p : Port) (addr : BitVec 26) (data : Word) (z : Pz) (hoff : barOff addr ∈ pzPlain)
    (hs : z.secure p addr = true) (h : z.verdict p addr = .pass) :
    z.portWrite0 p addr data = z.plainWrite false (barOff addr) data := by
  simp only [Pz.portWrite0]
  rw [Pz.guarded_pass p addr _ z h hs, Pz.writeAdmitted_plain _ hoff, hs, Bool.not_true]

end Sys2Proof.Machine

namespace Sys2Proof.Claims

open Sys2Proof.Machine

/-! ## What the statements say, part by part -/

/-- A violation counts once in the counter of its block (R17). -/
theorem leafCounts_violate (s t : State) (b : Nat) (l : Leaf) (hl : l.regs = s.leaf.regs) (ht : t.leaf = l.violate b) :
    leafCounts s t (GlR.SEC_VIOL_COUNT.at (4 * b)) := by
  have hfld : l.fld (GlR.SEC_VIOL_COUNT.at (4 * b)) = s.leaf.fld (GlR.SEC_VIOL_COUNT.at (4 * b)) := by
    simp only [Leaf.fld, Leaf.reg, hl]
  rw [leafCounts, ht, ← hfld]
  exact Leaf.fld_addSat_same l _ 1 (by decide : (15 : Nat) < 32)

/-- The same of Polornaz. -/
theorem pzCounts_violate (s t : State) (b : Nat) (ht : t.pz = s.pz.violate b) :
    pzCounts s t (PzR.SEC_VIOL_COUNT.at (4 * b)) := by
  rw [pzCounts, ht]
  exact Pz.fld_addSat_same s.pz _ 1 (by decide : (15 : Nat) < 32)

theorem leafReads : LeafReads := by
  intro s p addr off i hi
  rw [exec_read .leaf p addr s i hi]
  refine ⟨fun h => ⟨_, rfl, ?_⟩, fun b h => ⟨_, rfl, ?_⟩, fun r h hns hwin hclaim hr hc => ⟨_, rfl, ?_⟩⟩
  · rw [readPart_leaf, Leaf.portRead_silent p _ s.leaf h]
    exact ⟨rfl, rfl⟩
  · have hread := Leaf.portRead_violation p _ b s.leaf h
    refine ⟨?_, leafCounts_violate s _ b { s.leaf with rdata := 0 } rfl hread⟩
    rw [readPart_leaf, hread, Leaf.violate, Leaf.addSat_rdata]
  · have hfs := glRows_fieldsApart r (findRow_mem hr)
    rw [readPart_leaf, Leaf.portRead_pass p _ s.leaf r hr h hns hwin hclaim]
    refine ⟨?_, fun f hf => ?_, fun o ho => Leaf.readAdmitted_reg_other p _ o _ ho, rfl⟩
    · rw [Leaf.readAdmitted_rdata_fresh p _ _ r hr hc, hns]
    · rw [Leaf.readAdmitted_reg_same p _ _ r hr, bits_ofNat32 _ _ _ (hfs.2 f hf), r.bits_afterRead hfs _ f hf]

theorem splitReads : SplitReads := by
  intro s p hns
  refine ⟨fun h hc => ⟨_, exec_splitValueLowRead .leaf p 0x1010 s, ?_⟩,
    fun v h hc => ⟨_, exec_rcFieldRead .leaf p 0x1014 s, ?_⟩⟩
  · have hread : (readPart .leaf p 0x1010 s).leaf = s.leaf.readAdmitted p 0x1010 :=
      Leaf.portRead_pass p 0x1010 s.leaf _ findRow_timeLow h hns (by decide) (by decide)
    have hlow : s.leaf.view p.ns 0x1010 = s.leaf.time.ns % 2 ^ 32 := rfl
    have hhigh : bits (s.leaf.view p.ns 0x1014) 31 0 = s.leaf.time.ns / 2 ^ 32 % 2 ^ 32 := rfl
    rw [hread]
    constructor
    · rw [Leaf.readAdmitted_rdata_fresh p _ _ _ findRow_timeLow hc, show_wholeWord, hlow, word_ofNat_mod, word_ofNat_mod]
    · rw [← word_ofNat_mod (s.leaf.time.ns / 2 ^ 32), ← hhigh]
      exact Leaf.readAdmitted_keeps_high p 0x1010 _ _ findRow_timeLow (by decide)
  · have hread : (readPart .leaf p 0x1014 s).leaf = s.leaf.readAdmitted p 0x1014 :=
      Leaf.portRead_pass p 0x1014 s.leaf _ findRow_timeHigh h hns (by decide) (by decide)
    have hwide : glHighBits 0x1014 - 1 = 31 := by decide
    rw [hread]
    refine ⟨?_, Leaf.readAdmitted_uses_kept p _ _ _ findRow_timeHigh (by decide)⟩
    rw [Leaf.readAdmitted_rdata_kept p _ _ _ _ _ findRow_timeHigh hc, show_wholeWord, hwide,
      setBits_wholeWord _ _ (Nat.mod_lt _ (by decide)), word_ofNat_mod, BitVec.ofNat_toNat, BitVec.setWidth_eq]

theorem registerWrites : RegisterWrites := by
  intro s p addr data
  simp only [exec_registerWrite]
  refine ⟨fun h => ?_, fun b h => ⟨_, rfl, ?_⟩, fun r hoff hns h hr => ⟨_, rfl, ?_⟩,
    fun h => ?_, fun b h => ⟨_, rfl, ?_⟩, fun r hoff hs h hr => ⟨_, rfl, ?_⟩⟩
  · rw [writePart_leaf_silent p addr data s h]
  · exact leafCounts_violate s _ b s.leaf rfl (Leaf.portWrite_violation p _ b data s.leaf h)
  · rw [writePart_leaf, Leaf.portWrite_plain p _ data s.leaf hoff hns h]
    exact ⟨Leaf.bits_plainWrite p _ data s.leaf r hr hns, fun o ho => Leaf.plainWrite_reg_other p _ o data s.leaf ho, rfl⟩
  · rw [writePart_pz_silent p addr data s h]
  · exact pzCounts_violate s _ b (Pz.portWrite0_violation p addr b data s.pz h)
  · rw [writePart_pz, Pz.portWrite0_plain p addr data s.pz hoff hs h]
    exact ⟨Pz.bits_plainWrite _ data s.pz r hr, fun o ho => Pz.plainWrite_reg_other false _ o data s.pz ho, rfl⟩

/-! ## The obligations -/

/-- Settles O20: reads of the leaf, split reads, and writes in either part, each by the verdict on the access. -/
theorem registerReadsAndWrites : Obligations.RegisterReadsAndWrites :=
  ⟨leafReads, splitReads, registerWrites⟩

/-- Settles O47: the verdict on each of these accesses is silent, in either part. -/
theorem silentAccesses : Obligations.SilentAccesses := by
  intro s p addr data
  refine ⟨fun h => ⟨?_, fun i hi => ?_⟩, fun h => ⟨?_, fun i hi => ⟨_, exec_read .pz p addr s i hi, ?_, rfl⟩⟩⟩
  · rw [exec_registerWrite, writePart_leaf_silent p addr data s (Leaf.verdict_silent s.leaf p _ true h)]
  · rw [exec_read .leaf p addr s i hi, readPart_leaf_silent p addr s (Leaf.verdict_silent s.leaf p _ false h)]
  · rw [exec_registerWrite, writePart_pz_silent p addr data s (Pz.verdict_silent s.pz p addr h)]
  · exact Pz.portRead_silent p addr _ s.pz (Pz.verdict_silent s.pz p addr h)

end Sys2Proof.Claims
end

section
/-!
The leaf's heartbeat watch (R46, R393) and interrupt controller (R365 to R374): what a counted transition and an interval that
runs out do, that sending an alarm touches neither the watch nor a counted interrupt source, the choice of a claim, claims, ends
of interrupt and holdoff, and the obligation that follows (O19).
-/

namespace Sys2Proof.Machine

open Sys2Proof.Claims

/-! ## Fields that an update leaves as they were -/

/-- A field reads the same where the registers are the same. -/
theorem Leaf.fld_of_regs {l l' : Leaf} (h : l'.regs = l.regs) (f : Fld) : l'.fld f = l.fld f := by
  simp only [Leaf.fld, Leaf.reg, h]

/-- A field reads the same where its register does. -/
theorem Leaf.fld_of_reg {l l' : Leaf} (f : Fld) (h : l'.reg f.off = l.reg f.off) : l'.fld f = l.fld f := by
  simp only [Leaf.fld, h]

theorem Leaf.flag_of_fld {l l' : Leaf} {f : Fld} (h : l'.fld f = l.fld f) : l'.flag f = l.flag f := by
  simp only [Leaf.flag, h]

/-- Whether the watch runs rests on `GL_HB_CTL`, `GL_TM_REFFREQ`, the hardening and the pins alone. -/
theorem Leaf.hbRuns_congr {l l' : Leaf} (hhard : l'.hard = l.hard) (hpins : l'.pins = l.pins)
    (hctl : l'.reg 0xD100 = l.reg 0xD100) (hfreq : l'.reg 0x1008 = l.reg 0x1008) : l'.hbRuns = l.hbRuns := by
  have hen := Leaf.flag_of_fld (Leaf.fld_of_reg GlR.HB_CTL_EN hctl)
  have hkhz := Leaf.fld_of_reg GlR.TM_REFFREQ_KHZ hfreq
  simp only [Leaf.hbRuns, Leaf.timeRuns, hhard, hpins, hen, hkhz]

/-! ## A beat -/

/-- The leaf with a transition of `hb_tog` counted (R46). -/
def Leaf.hbCounted (l : Leaf) : Leaf :=
  { l with hb := { l.hb with lastTog := some l.time.clk } }.addMod GlR.HB_BEATS_COUNT 1

/-- The leaf with a hang over: the record of its end is made and HUNG is clear (R393). -/
def Leaf.hbRecovered (l : Leaf) : Leaf :=
  if l.flag GlR.HB_STAT_HUNG then (l.record 3 0x0601 0 (l.hangBody 2 l.hb.hungAt)).setFld GlR.HB_STAT_HUNG 0 else l

theorem Leaf.hbCounted_beats (l : Leaf) : l.hbCounted.fld GlR.HB_BEATS_COUNT = (l.fld GlR.HB_BEATS_COUNT + 1) % 2 ^ 32 :=
  Leaf.fld_setFld_same _ GlR.HB_BEATS_COUNT _ (by decide)

theorem Leaf.hbCounted_reg_other (l : Leaf) (o : Nat) (h : o ≠ 0xD108) : l.hbCounted.reg o = l.reg o :=
  Leaf.reg_setFld_other _ GlR.HB_BEATS_COUNT o _ h

@[simp] theorem Leaf.hbCounted_hbRuns (l : Leaf) : l.hbCounted.hbRuns = l.hbRuns :=
  Leaf.hbRuns_congr rfl rfl (l.hbCounted_reg_other _ (by decide)) (l.hbCounted_reg_other _ (by decide))

@[simp] theorem Leaf.hbRecovered_hb (l : Leaf) : l.hbRecovered.hb = l.hb := by
  unfold Leaf.hbRecovered
  split <;> rfl

@[simp] theorem Leaf.hbRecovered_time (l : Leaf) : l.hbRecovered.time = l.time := by
  unfold Leaf.hbRecovered
  split <;> rfl

theorem Leaf.hbRecovered_hung (l : Leaf) : l.hbRecovered.fld GlR.HB_STAT_HUNG = 0 := by
  unfold Leaf.hbRecovered
  split
  · exact Leaf.fld_setFld_same _ GlR.HB_STAT_HUNG 0 (by decide)
  · next h => simpa [Leaf.flag] using h

theorem Leaf.hbRecovered_reg_other (l : Leaf) (o : Nat) (h : o ≠ 0xD104) : l.hbRecovered.reg o = l.reg o := by
  unfold Leaf.hbRecovered
  split
  · exact Leaf.reg_setFld_other _ GlR.HB_STAT_HUNG o 0 h
  · rfl

/-- What a beat leaves in the registers: a hang is over and MISSED is zero. -/
theorem Leaf.hbBeat_regs (l : Leaf) : l.hbBeat.regs = (l.hbRecovered.setFld GlR.HB_STAT_MISSED 0).regs := rfl

theorem Leaf.hbBeat_missed (l : Leaf) : l.hbBeat.fld GlR.HB_STAT_MISSED = 0 :=
  (Leaf.fld_of_regs l.hbBeat_regs _).trans (Leaf.fld_setFld_same _ GlR.HB_STAT_MISSED 0 (by decide))

theorem Leaf.hbBeat_hung (l : Leaf) : l.hbBeat.flag GlR.HB_STAT_HUNG = false := by
  have hkeep := Leaf.fld_setFld_field l.hbRecovered GlR.HB_STAT_MISSED GlR.HB_STAT_HUNG 0 (by decide) (by decide)
  rw [Leaf.flag, Leaf.fld_of_regs l.hbBeat_regs, hkeep, l.hbRecovered_hung]
  rfl

theorem Leaf.hbBeat_beats (l : Leaf) : l.hbBeat.fld GlR.HB_BEATS_COUNT = l.fld GlR.HB_BEATS_COUNT := by
  rw [Leaf.fld_of_regs l.hbBeat_regs, Leaf.fld_setFld_reg _ _ _ _ (by decide)]
  exact Leaf.fld_of_reg GlR.HB_BEATS_COUNT (l.hbRecovered_reg_other _ (by decide))

/-- What a beat leaves in the watch: the interval restarts, the beat is the last, a stop is forgotten (R393). -/
theorem Leaf.hbBeat_hb (l : Leaf) : l.hbBeat.hb.lastTog = l.hb.lastTog ∧ l.hbBeat.hb.ival = l.time.clk ∧
    l.hbBeat.hb.lastBeat = l.time.ns ∧ l.hbBeat.hb.iso = false :=
  ⟨(congrArg Heartbeat.lastTog l.hbRecovered_hb :), congrArg LeafTime.clk l.hbRecovered_time,
    congrArg LeafTime.ns l.hbRecovered_time, rfl⟩

/-! ## A transition of `hb_tog` -/

/-- A transition is a beat when it is the first, or at least 100 ns after the one last counted (R46). -/
theorem Leaf.hbToggle_counted (l : Leaf) (hpin : l.pins.hostIsoN = true) (hen : l.hard.hbEn = true)
    (hgap : ∀ k, l.hb.lastTog = some k → k + 100 ≤ l.time.clk) :
    l.hbToggle = if l.hbRuns then l.hbCounted.hbBeat
      else Leaf.hbLatch { l.hbCounted with hb := { l.hbCounted.hb with lastBeat := l.time.ns, iso := true } } := by
  have hcount : l.hb.lastTog.elim true (fun t => decide (t + 100 ≤ l.time.clk)) = true := by
    cases hlast : l.hb.lastTog with
    | none => rfl
    | some k => exact decide_eq_true (hgap k hlast)
  rw [← l.hbCounted_hbRuns]
  simp only [Leaf.hbToggle, hpin, hen, hcount]
  rfl

/-- Isolated or hardened off, the leaf sees no transition (R46). -/
theorem Leaf.hbToggle_unseen (l : Leaf) (h : l.pins.hostIsoN = false ∨ l.hard.hbEn = false) : l.hbToggle = l := by
  have hoff : (l.pins.hostIsoN && l.hard.hbEn) = false := Bool.and_eq_false_iff.2 h
  simp only [Leaf.hbToggle, hoff, Bool.not_false, if_true]

/-- A transition less than 100 ns after the one last counted is none (R46). -/
theorem Leaf.hbToggle_early (l : Leaf) (k : Nat) (hlast : l.hb.lastTog = some k) (hgap : l.time.clk < k + 100) :
    l.hbToggle = l := by
  have hcount : l.hb.lastTog.elim true (fun t => decide (t + 100 ≤ l.time.clk)) = false := by
    rw [hlast]
    exact decide_eq_false (Nat.not_le.2 hgap)
  simp [Leaf.hbToggle, hcount]

/-! ## What sending an alarm keeps -/

/-- The second leaf has the first one's heartbeat watch and its registers from 0xD000 on (security, health), and no interrupt
source that had counted lost its count. -/
structure Leaf.SendKeeps (l l' : Leaf) : Prop where
  hb : l'.hb = l.hb
  reg : ∀ o, 0xD000 ≤ o → l'.reg o = l.reg o
  cnt : ∀ src, 0 < tget l.irq.cnt src → 0 < tget l'.irq.cnt src

theorem Leaf.SendKeeps.trans {a b c : Leaf} (hab : a.SendKeeps b) (hbc : b.SendKeeps c) : a.SendKeeps c where
  hb := hbc.hb.trans hab.hb
  reg o ho := (hbc.reg o ho).trans (hab.reg o ho)
  cnt src h := hbc.cnt src (hab.cnt src h)

/-- An update of neither the watch nor a register nor the interrupt controller. -/
theorem Leaf.SendKeeps.of_eq {l l' : Leaf} (hhb : l'.hb = l.hb) (hregs : l'.regs = l.regs) (hirq : l'.irq = l.irq) :
    l.SendKeeps l' where
  hb := hhb
  reg o _ := by simp only [Leaf.reg, hregs]
  cnt src h := by rwa [hirq]

theorem Leaf.SendKeeps.ite {l a b : Leaf} {c : Prop} [Decidable c] (ha : l.SendKeeps a) (hb : l.SendKeeps b) :
    l.SendKeeps (if c then a else b) := by
  split
  · exact ha
  · exact hb

theorem Leaf.SendKeeps.refl (l : Leaf) : l.SendKeeps l := .of_eq rfl rfl rfl

theorem Leaf.sendKeeps_setFld (l : Leaf) (f : Fld) (v : Nat) (h : f.off < 0xD000) : l.SendKeeps (l.setFld f v) where
  hb := rfl
  reg o ho := Leaf.reg_setFld_other l f o v (by omega)
  cnt _ hc := hc

theorem Leaf.sendKeeps_addSat (l : Leaf) (f : Fld) (n : Nat) (h : f.off < 0xD000) : l.SendKeeps (l.addSat f n) :=
  l.sendKeeps_setFld f _ h

theorem Leaf.sendKeeps_addMod (l : Leaf) (f : Fld) (n : Nat) (h : f.off < 0xD000) : l.SendKeeps (l.addMod f n) :=
  l.sendKeeps_setFld f _ h

theorem Leaf.sendKeeps_record (l : Leaf) (r code origin : Nat) (body : List Byte) :
    l.SendKeeps (l.record r code origin body) := .of_eq rfl rfl rfl

theorem Leaf.sendKeeps_pushOwn (l : Leaf) (cls ty : Nat) (body : List Byte) : l.SendKeeps (l.pushOwn cls ty body) :=
  .of_eq rfl rfl rfl

/-- An event leaves its source counted (R365). -/
theorem Leaf.event_counts (l : Leaf) (src : Nat) (h : srcReserved src = false) : 0 < tget (l.event src).irq.cnt src := by
  simp only [Leaf.event, h, Bool.false_eq_true, if_false, tmod, tget_tput_same]
  omega

theorem Leaf.event_cnt_other (l : Leaf) (src o : Nat) (h : o ≠ src) : tget (l.event src).irq.cnt o = tget l.irq.cnt o := by
  unfold Leaf.event
  split
  · rfl
  · exact tget_tput_other _ _ _ _ h

theorem Leaf.event_hb (l : Leaf) (src : Nat) : (l.event src).hb = l.hb := by
  unfold Leaf.event
  split <;> rfl

theorem Leaf.event_regs (l : Leaf) (src : Nat) : (l.event src).regs = l.regs := by
  unfold Leaf.event
  split <;> rfl

theorem Leaf.sendKeeps_event (l : Leaf) (src : Nat) : l.SendKeeps (l.event src) where
  hb := l.event_hb src
  reg o _ := by simp only [Leaf.reg, l.event_regs src]
  cnt o h := by
    by_cases hres : srcReserved src = true
    · rwa [Leaf.event, if_pos hres]
    · by_cases ho : o = src
      · exact ho ▸ l.event_counts src (Bool.eq_false_iff.2 hres)
      · rwa [l.event_cnt_other src o ho]

theorem Leaf.sendKeeps_reedDrop (l : Leaf) (p : Bool) (m : ReedMsg) : l.SendKeeps (l.reedDrop p m) := by
  have hqdrop : (GlR.CH_ERR_QDROP.at (portOff p)).off < 0xD000 := by cases p <;> decide
  have hcounted := (l.sendKeeps_addSat _ 1 hqdrop).trans (Leaf.sendKeeps_event _ 310)
  unfold Leaf.reedDrop
  split
  · exact hcounted.trans (Leaf.sendKeeps_record _ _ _ _ _)
  · exact hcounted

theorem Leaf.sendKeeps_sendOn (l : Leaf) (p : Bool) (m : ReedMsg) (bad : Bool) : l.SendKeeps (l.sendOn p m bad) := by
  simp only [Leaf.sendOn]
  refine .ite (.of_eq rfl rfl rfl) ?_
  split
  case h_5 => exact .ite (.of_eq rfl rfl rfl) (.ite (.of_eq rfl rfl rfl) (l.sendKeeps_reedDrop p _))
  all_goals exact .ite (.of_eq rfl rfl rfl) (l.sendKeeps_reedDrop p _)

theorem Leaf.sendKeeps_toMaster (l : Leaf) (m : ReedMsg) : l.SendKeeps (l.toMaster m) := by
  unfold Leaf.toMaster
  split
  · exact l.sendKeeps_sendOn _ m false
  · exact .ite (.of_eq rfl rfl rfl) (.ite (.of_eq rfl rfl rfl) (l.sendKeeps_reedDrop false m))

theorem Leaf.sendKeeps_sendAlarm (l : Leaf) (code : Nat) : l.SendKeeps (l.sendAlarm code) := by
  have hcredit := l.sendKeeps_setFld GlR.UL_ALM_CREDIT (l.fld GlR.UL_ALM_CREDIT - 1) (by decide)
  have hseq := hcredit.trans (Leaf.sendKeeps_addMod _ GlR.UL_ALM_SEQ 1 (by decide))
  have hqueued := fun note body =>
    (hseq.trans (Leaf.sendKeeps_record _ 1 0x0303 0 note)).trans (Leaf.sendKeeps_pushOwn _ 0 2 body)
  exact (hqueued _ _).trans (.ite (.refl _) (Leaf.sendKeeps_toMaster _ _))

/-- An alarm of the device counts its interrupt source, whether or not it is sent (R366); the rest is sending. -/
theorem Leaf.sendKeeps_alarm (l : Leaf) (code : Nat) : (l.event (448 + (code - 2))).SendKeeps (l.alarm code none) := by
  have hcount := Leaf.sendKeeps_addMod (l.event (448 + (code - 2))) GlR.UL_ASUPP_COUNT 1 (by decide)
  have hstat := hcount.trans (Leaf.sendKeeps_setFld _ GlR.UL_STAT_ASUPP 1 (by decide))
  have hsupp := hstat.trans (Leaf.sendKeeps_event _ 314)
  exact .ite (Leaf.sendKeeps_sendAlarm _ code) (hsupp.trans (.of_eq rfl rfl rfl))

theorem Leaf.alarm_hb (l : Leaf) (code : Nat) : (l.alarm code none).hb = l.hb :=
  (l.sendKeeps_alarm code).hb.trans (l.event_hb _)

/-- An alarm keeps the fields of the registers from 0xD000 on. -/
theorem Leaf.alarm_fld (l : Leaf) (code : Nat) (f : Fld) (h : 0xD000 ≤ f.off) : (l.alarm code none).fld f = l.fld f :=
  (Leaf.fld_of_reg f ((l.sendKeeps_alarm code).reg _ h)).trans (Leaf.fld_of_regs (l.event_regs _) f)

/-- An alarm of the device leaves its interrupt source counted (R366). -/
theorem Leaf.alarm_counts (l : Leaf) (code : Nat) (h : srcReserved (448 + (code - 2)) = false) :
    0 < tget (l.alarm code none).irq.cnt (448 + (code - 2)) :=
  (l.sendKeeps_alarm code).cnt _ (l.event_counts _ h)

/-! ## An interval that runs out -/

/-- The leaf with an interval counted as missed and the next one begun (R393). -/
def Leaf.hbMissed (l : Leaf) : Leaf :=
  { l with hb := { l.hb with ival := l.time.clk } }.addSat GlR.HB_STAT_MISSED 1

/-- The leaf with the host found hung: HUNG set, the hang counted and recorded, before the alarm (R393). -/
def Leaf.hbHung (l : Leaf) : Leaf :=
  let h := (l.setFld GlR.HB_STAT_HUNG 1).addSat GlR.HB_STAT_HANGS 1
  let h := h.record 3 0x0601 0 (h.hangBody 1 0)
  { h with hb := { h.hb with hungAt := h.time.ns } }

theorem Leaf.hbMissed_missed (l : Leaf) :
    l.hbMissed.fld GlR.HB_STAT_MISSED = held GlR.HB_STAT_MISSED (l.fld GlR.HB_STAT_MISSED + 1) :=
  Leaf.fld_addSat_same _ GlR.HB_STAT_MISSED 1 (by decide)

/-- The fields of `GL_HB_STAT` apart from MISSED stay. -/
theorem Leaf.hbMissed_fld_other (l : Leaf) (f : Fld) (hf : f.hi < 32) (h : f.hi < 16 ∨ 23 < f.lo) :
    l.hbMissed.fld f = l.fld f :=
  Leaf.fld_setFld_field _ GlR.HB_STAT_MISSED f _ hf h

theorem Leaf.hbHung_regs (l : Leaf) :
    l.hbHung.regs = ((l.setFld GlR.HB_STAT_HUNG 1).addSat GlR.HB_STAT_HANGS 1).regs := rfl

theorem Leaf.hbHung_hung (l : Leaf) : l.hbHung.fld GlR.HB_STAT_HUNG = 1 := by
  have hkeep := Leaf.fld_setFld_field (l.setFld GlR.HB_STAT_HUNG 1) GlR.HB_STAT_HANGS GlR.HB_STAT_HUNG
  rw [Leaf.fld_of_regs l.hbHung_regs, Leaf.addSat, hkeep _ (by decide) (by decide), Leaf.fld_setFld_same _ _ _ (by decide)]
  rfl

theorem Leaf.hbHung_hangs (l : Leaf) :
    l.hbHung.fld GlR.HB_STAT_HANGS = held GlR.HB_STAT_HANGS (l.fld GlR.HB_STAT_HANGS + 1) := by
  rw [Leaf.fld_of_regs l.hbHung_regs, Leaf.fld_addSat_same _ _ _ (by decide),
    Leaf.fld_setFld_field _ _ _ _ (by decide) (by decide), held]

theorem Leaf.hbHung_missed (l : Leaf) : l.hbHung.fld GlR.HB_STAT_MISSED = l.fld GlR.HB_STAT_MISSED := by
  rw [Leaf.fld_of_regs l.hbHung_regs, Leaf.addSat, Leaf.fld_setFld_field _ _ _ _ (by decide) (by decide),
    Leaf.fld_setFld_field _ _ _ _ (by decide) (by decide)]

theorem Leaf.hbExpire_idle (l : Leaf) (h : l.hbRuns = false) : l.hbExpire = l := by
  simp [Leaf.hbExpire, h]

/-- An interval that runs out counts as missed, and at the limit the host is hung and an alarm is raised (R393). -/
theorem Leaf.hbExpire_runs (l : Leaf) (h : l.hbRuns = true) :
    l.hbExpire = if held GlR.HB_STAT_MISSED (l.fld GlR.HB_STAT_MISSED + 1) = max 1 l.hb.miss ∧ !l.flag GlR.HB_STAT_HUNG
      then Leaf.alarm 4 none l.hbMissed.hbHung else l.hbMissed := by
  rw [← l.hbMissed_missed, ← Leaf.flag_of_fld (l.hbMissed_fld_other GlR.HB_STAT_HUNG (by decide) (by decide))]
  simp only [Leaf.hbExpire, h]
  rfl

/-- Every interval that runs out counts as missed and begins the next. -/
theorem Leaf.hbExpire_counts (l : Leaf) (h : l.hbRuns = true) :
    l.hbExpire.fld GlR.HB_STAT_MISSED = held GlR.HB_STAT_MISSED (l.fld GlR.HB_STAT_MISSED + 1) ∧
    l.hbExpire.hb.ival = l.time.clk := by
  rw [l.hbExpire_runs h]
  split
  · rw [Leaf.alarm_fld _ _ _ (by decide), Leaf.alarm_hb, Leaf.hbHung_missed]
    exact ⟨l.hbMissed_missed, rfl⟩
  · exact ⟨l.hbMissed_missed, rfl⟩

/-! ## The choice of a claim -/

/-- The sources that a target may claim, in the order of the table of counts. -/
def Leaf.claimables (l : Leaf) (k : Nat) : List Nat := (l.irq.cnt.map Prod.fst).filter (l.claimable k)

/-- A key whose entry is not the default is listed. -/
theorem mem_keys_of_tget_ne {α : Type} [Inhabited α] (t : Tbl α) (k : Nat) (h : tget t k ≠ default) :
    k ∈ t.map Prod.fst := by
  induction t with
  | nil => exact absurd rfl h
  | cons p t ih =>
    obtain ⟨j, v⟩ := p
    by_cases hk : k = j
    · simp [hk]
    · rw [List.map_cons]
      refine List.mem_cons_of_mem j (ih ?_)
      simpa [tget, tblLookup, hk] using h

/-- The keys of a canonical table rise. -/
theorem Tbl.keys_rise {α : Type} [DecidableEq α] (d : Nat → α) (t : Tbl α) (h : Tbl.wf d t = true) :
    (t.map Prod.fst).Pairwise (· < ·) := by
  induction t with
  | nil => exact .nil
  | cons p t ih =>
    obtain ⟨habove, -, ht⟩ := (Tbl.wf_cons d p t).1 h
    exact List.pairwise_cons.2 ⟨List.forall_mem_map.2 habove, ih ht⟩

theorem Leaf.mem_claimables (l : Leaf) (k src : Nat) : src ∈ l.claimables k ↔ l.claimable k src = true := by
  rw [Leaf.claimables, List.mem_filter]
  refine ⟨And.right, fun h => ⟨mem_keys_of_tget_ne _ _ ?_, h⟩⟩
  simp only [Leaf.claimable, Bool.and_eq_true, decide_eq_true_eq] at h
  obtain ⟨⟨⟨⟨hcounted, -⟩, -⟩, -⟩, -⟩ := h
  exact Nat.pos_iff_ne_zero.1 hcounted

theorem Leaf.claimables_rise (l : Leaf) (k : Nat) (h : Tbl.wf (fun _ => 0) l.irq.cnt = true) :
    (l.claimables k).Pairwise (· < ·) :=
  (Tbl.keys_rise _ _ h).filter _

/-- The source kept so far and the next one: the next one takes its place where its priority is higher. -/
def Leaf.higher (l : Leaf) (kept : Option Nat) (src : Nat) : Option Nat :=
  match kept with
  | none => some src
  | some o => if l.priOf o < l.priOf src then some src else some o

theorem Leaf.higher_none (l : Leaf) (src : Nat) : l.higher none src = some src := rfl

theorem Leaf.higher_some (l : Leaf) (o src : Nat) :
    l.higher (some o) src = if l.priOf o < l.priOf src then some src else some o := rfl

/-- Of the claimable alarm-class sources in rising order, the one kept; with none, the first claimable source (R370). -/
theorem Leaf.bestClaim_eq (l : Leaf) (k : Nat) :
    l.bestClaim k =
      (((l.claimables k).filter (fun src => decide (448 ≤ src))).foldl l.higher none).or (l.claimables k).head? := by
  have hmatch : l.bestClaim k =
    match ((l.claimables k).filter (fun src => decide (448 ≤ src))).foldl l.higher none with
    | some src => some src
    | none => (l.claimables k).head? := rfl
  rw [hmatch]
  cases ((l.claimables k).filter (fun src => decide (448 ≤ src))).foldl l.higher none <;> rfl

/-- A source of a list with the highest priority there and, among those of that priority, the lowest number. -/
structure Leaf.Leads (l : Leaf) (m : Nat) (srcs : List Nat) : Prop where
  mem : m ∈ srcs
  top : ∀ o ∈ srcs, l.priOf o < l.priOf m ∨ (l.priOf o = l.priOf m ∧ m ≤ o)

/-- A source of higher priority than the one that leads now leads. -/
theorem Leaf.Leads.cons_lower {l : Leaf} {m x o : Nat} {srcs : List Nat} (h : l.Leads m (x :: srcs))
    (hlow : l.priOf o < l.priOf x) : l.Leads m (o :: x :: srcs) where
  mem := List.mem_cons_of_mem o h.mem
  top a ha := by
    rcases List.mem_cons.1 ha with rfl | ha
    · have hx := h.top x List.mem_cons_self
      omega
    · exact h.top a ha

/-- A later source of no higher priority does not lead. -/
theorem Leaf.Leads.cons_later {l : Leaf} {m x o : Nat} {srcs : List Nat} (h : l.Leads m (o :: srcs)) (hlater : o < x)
    (hpri : l.priOf x ≤ l.priOf o) : l.Leads m (o :: x :: srcs) where
  mem := by
    rcases List.mem_cons.1 h.mem with rfl | hm
    · exact List.mem_cons_self
    · exact List.mem_cons_of_mem o (List.mem_cons_of_mem x hm)
  top a ha := by
    have ho := h.top o List.mem_cons_self
    rcases List.mem_cons.1 ha with rfl | ha
    · exact ho
    · rcases List.mem_cons.1 ha with rfl | ha
      · omega
      · exact h.top a (List.mem_cons_of_mem o ha)

/-- Over rising sources the one kept at the end leads. -/
theorem Leaf.foldl_higher_some (l : Leaf) (srcs : List Nat) (o : Nat) (h : (o :: srcs).Pairwise (· < ·)) :
    ∃ m, srcs.foldl l.higher (some o) = some m ∧ l.Leads m (o :: srcs) := by
  induction srcs generalizing o with
  | nil =>
    refine ⟨o, rfl, List.mem_cons_self, fun a ha => .inr ?_⟩
    rw [List.mem_singleton.1 ha]
    exact ⟨rfl, Nat.le_refl o⟩
  | cons x srcs ih =>
    obtain ⟨hfirst, hrest⟩ := List.pairwise_cons.1 h
    have hlater := hfirst x List.mem_cons_self
    rw [List.foldl_cons, Leaf.higher_some]
    split
    · next hlow =>
      obtain ⟨m, hfold, hlead⟩ := ih x hrest
      exact ⟨m, hfold, hlead.cons_lower hlow⟩
    · next hhigh =>
      have hskip : (o :: srcs).Pairwise (· < ·) :=
        List.pairwise_cons.2 ⟨fun a ha => hfirst a (List.mem_cons_of_mem x ha), (List.pairwise_cons.1 hrest).2⟩
      obtain ⟨m, hfold, hlead⟩ := ih o hskip
      exact ⟨m, hfold, hlead.cons_later hlater (Nat.not_lt.1 hhigh)⟩

/-- Over rising sources none is kept where there is none, and else the one that leads. -/
theorem Leaf.foldl_higher (l : Leaf) (srcs : List Nat) (h : srcs.Pairwise (· < ·)) :
    (srcs = [] ∧ srcs.foldl l.higher none = none) ∨ ∃ m, srcs.foldl l.higher none = some m ∧ l.Leads m srcs := by
  cases srcs with
  | nil => exact .inl ⟨rfl, rfl⟩
  | cons o srcs => exact .inr (l.foldl_higher_some srcs o h)

/-! ## Claims, ends of interrupt and holdoff -/

theorem Leaf.claim_none (l : Leaf) (k : Nat) (h : l.bestClaim k = none) : l.claim k = { l with rdata := 0xFFFF } := by
  simp only [Leaf.claim, h]

/-- A claim that takes a source answers it with its count, and clears the count (R370). -/
theorem Leaf.claim_some (l : Leaf) (k src : Nat) (h : l.bestClaim k = some src) :
    (l.claim k).rdata = BitVec.ofNat 32 (tget l.irq.cnt src * 65536 + src) ∧
    (l.claim k).irq.cnt = tput l.irq.cnt src 0 ∧ (l.claim k).regs = l.regs := by
  simp only [Leaf.claim, h, and_self]

/-- An alarm-class source that is claimed goes on the stack of its target with its priority (R370). -/
theorem Leaf.claim_alarm (l : Leaf) (k src : Nat) (h : l.bestClaim k = some src) (hclass : 448 ≤ src) :
    tget (l.claim k).irq.targets k =
      { tget l.irq.targets k with stack := (src, l.priOf src) :: (tget l.irq.targets k).stack } := by
  simp only [Leaf.claim, h, tget_tput_same, if_pos hclass]

/-- An ordinary source that is claimed is in service (R370). -/
theorem Leaf.claim_ordinary (l : Leaf) (k src : Nat) (h : l.bestClaim k = some src) (hclass : src < 448) :
    (tget (l.claim k).irq.targets k).nasvc = some src := by
  simp only [Leaf.claim, h, tget_tput_same, if_neg (Nat.not_le.2 hclass)]

/-- The target of an end of interrupt with a source at the top of its stack: that source ends, another counts as bad (R371). -/
theorem Leaf.eoi_stack (l : Leaf) (k src top pr : Nat) (rest : List (Nat × Nat))
    (h : (tget l.irq.targets k).stack = (top, pr) :: rest) :
    l.eoi k src = if top = src then
        { l with irq := { l.irq with targets := tput l.irq.targets k { tget l.irq.targets k with stack := rest } } }
      else l.addSat (GlR.IRQ_TSTAT_BADEOI.at (0x20 * k)) 1 := by
  simp only [Leaf.eoi, h]

/-- With the stack empty: the ordinary source in service ends, another counts as bad (R371). -/
theorem Leaf.eoi_ordinary (l : Leaf) (k src : Nat) (h : (tget l.irq.targets k).stack = []) :
    l.eoi k src = if (tget l.irq.targets k).nasvc = some src then
        { l with irq := { l.irq with targets := tput l.irq.targets k { tget l.irq.targets k with nasvc := none } } }
      else l.addSat (GlR.IRQ_TSTAT_BADEOI.at (0x20 * k)) 1 := by
  simp only [Leaf.eoi, h]

/-- An end of a source that the target does not serve counts as bad (R371). -/
theorem Leaf.eoi_bad (l : Leaf) (k src : Nat)
    (hstack : ∀ top pr rest, (tget l.irq.targets k).stack = (top, pr) :: rest → top ≠ src)
    (hsvc : (tget l.irq.targets k).stack = [] → (tget l.irq.targets k).nasvc ≠ some src) :
    l.eoi k src = l.addSat (GlR.IRQ_TSTAT_BADEOI.at (0x20 * k)) 1 := by
  cases h : (tget l.irq.targets k).stack with
  | nil => rw [l.eoi_ordinary k src h, if_neg (hsvc h)]
  | cons e rest => rw [l.eoi_stack k src e.1 e.2 rest h, if_neg (hstack e.1 e.2 rest h)]

/-- The end of a holdoff changes nothing else of its target (R374). -/
theorem Leaf.endHoldoff_target (k : Nat) (l : Leaf) :
    tget (l.endHoldoff k).irq.targets k = { tget l.irq.targets k with hold := none } :=
  tget_tput_same _ _ _

/-- A pin of eight set to a level. -/
theorem getLsbD_setBits (w k : Nat) (b : Bool) (h : k < 8) : (BitVec.ofNat 8 (setBits w k k (b2n b))).getLsbD k = b := by
  rw [BitVec.getLsbD_ofNat, testBit_setBits]
  cases b <;> simp [h, b2n]

theorem State.onLeaf_fixed (s : State) (g : Leaf → Leaf) (h : g s.leaf = s.leaf) : s.onLeaf g = s := by
  rw [State.onLeaf, h]

theorem exec_heartbeatBeat (s : State) : exec .heartbeatBeat s = .next (s.onLeaf Leaf.hbToggle) := rfl

theorem exec_heartbeatExpiry (s : State) : exec .heartbeatExpiry s = .next (s.onLeaf Leaf.hbExpire) := rfl

/-- A claim that is let through (R370). -/
theorem exec_irqClaim_pass (k : BitVec 3) (p : Port) (s : State)
    (h : s.leaf.verdict p (0xD00 + 0x20 * k.toNat) false = .pass) :
    exec (.irqClaim k p) s = .next { s with leaf := Leaf.claim k.toNat { s.leaf with rdata := 0 } } := by
  have hexec : exec (.irqClaim k p) s = execIrqClaim k p s := rfl
  rw [hexec, execIrqClaim, State.onLeaf, Leaf.guarded_pass p _ false _ { s.leaf with rdata := 0 } h]

/-- An end of interrupt that is let through (R371). -/
theorem exec_irqEoi_pass (k : BitVec 3) (p : Port) (data : Word) (s : State)
    (h : s.leaf.verdict p (0xD04 + 0x20 * k.toNat) true = .pass) :
    exec (.irqEoi k p data) s = .next { s with leaf := s.leaf.eoi k.toNat (bits data.toNat 8 0) } := by
  have hexec : exec (.irqEoi k p data) s = execIrqEoi k p data s := rfl
  rw [hexec, execIrqEoi, State.onLeaf, Leaf.guarded_pass p _ true _ s.leaf h]

end Sys2Proof.Machine

namespace Sys2Proof.Claims

open Sys2Proof.Machine

/-! ## What the statements say, part by part -/

theorem heartbeatWatch : HeartbeatWatch := by
  intro s
  refine ⟨fun hpin hen hgap => ⟨_, exec_heartbeatBeat s, ?_⟩, fun h => ?_, fun k hlast hgap => ?_, fun h => ?_,
    fun h => ⟨_, exec_heartbeatExpiry s, ?_⟩⟩
  · rw [State.onLeaf_leaf, Leaf.hbToggle_counted _ hpin hen hgap]
    split
    · obtain ⟨htog, hival, hlast, hiso⟩ := s.leaf.hbCounted.hbBeat_hb
      exact ⟨htog, (Leaf.hbBeat_beats _).trans s.leaf.hbCounted_beats,
        fun _ => ⟨Leaf.hbBeat_missed _, Leaf.hbBeat_hung _, hival, hlast, hiso⟩⟩
    · next hruns => exact ⟨rfl, s.leaf.hbCounted_beats, fun h => absurd h hruns⟩
  · rw [exec_heartbeatBeat, State.onLeaf_fixed s _ (s.leaf.hbToggle_unseen h)]
  · rw [exec_heartbeatBeat, State.onLeaf_fixed s _ (s.leaf.hbToggle_early k hlast hgap)]
  · rw [exec_heartbeatExpiry, State.onLeaf_fixed s _ (s.leaf.hbExpire_idle h)]
  · obtain ⟨hmissed, hival⟩ := s.leaf.hbExpire_counts h
    refine ⟨hmissed, hival, fun hlimit hnew => ?_, fun hlimit => ?_⟩
    · have halarm := s.leaf.hbExpire_runs h
      rw [if_pos ⟨hlimit, by rw [hnew]; rfl⟩] at halarm
      rw [leafCounts, State.onLeaf_leaf, halarm, Leaf.flag, Leaf.alarm_fld _ _ _ (by decide), Leaf.alarm_hb,
        Leaf.alarm_fld _ _ _ (by decide), Leaf.hbHung_hung, Leaf.hbHung_hangs,
        Leaf.hbMissed_fld_other _ _ (by decide) (by decide)]
      exact ⟨rfl, rfl, rfl, Leaf.alarm_counts _ 4 (by decide)⟩
    · rw [State.onLeaf_leaf, s.leaf.hbExpire_runs h, if_neg (fun hc => hlimit hc.1)]
      exact ⟨s.leaf.hbMissed_fld_other _ (by decide) (by decide), rfl⟩

theorem claimTakesTheHighest : ClaimTakesTheHighest := by
  intro l k hwf
  have hrise := l.claimables_rise k hwf
  have halarms : ∀ o, o ∈ (l.claimables k).filter (fun src => decide (448 ≤ src)) ↔ l.claimable k o = true ∧ 448 ≤ o := by
    intro o
    rw [List.mem_filter, l.mem_claimables, decide_eq_true_eq]
  rw [l.bestClaim_eq]
  rcases l.foldl_higher _ (hrise.filter (fun src => decide (448 ≤ src))) with ⟨hempty, hfold⟩ | ⟨best, hfold, hlead⟩
  · have hordinary : ∀ o, l.claimable k o = true → o < 448 := fun o ho =>
      Nat.not_le.1 fun hclass => List.not_mem_nil (hempty ▸ (halarms o).2 ⟨ho, hclass⟩)
    rw [hfold, Option.none_or]
    cases hlist : l.claimables k with
    | nil =>
      have hnone : ∀ o, l.claimable k o ≠ true := fun o ho =>
        List.not_mem_nil (hlist ▸ (l.mem_claimables k o).2 ho)
      exact ⟨⟨fun _ o => Bool.eq_false_iff.2 (hnone o), fun _ => rfl⟩, fun src hsrc => nomatch hsrc⟩
    | cons first rest =>
      have hfirst : l.claimable k first = true := (l.mem_claimables k first).1 (hlist ▸ List.mem_cons_self)
      refine ⟨⟨fun hnone => (nomatch hnone), fun hnone => absurd hfirst (Bool.eq_false_iff.1 (hnone first))⟩, ?_⟩
      rintro src ⟨rfl⟩
      refine ⟨hfirst, fun o ho => .inr ⟨hordinary first hfirst, hordinary o ho, ?_⟩⟩
      have homem := (l.mem_claimables k o).2 ho
      rw [hlist] at homem hrise
      rcases List.mem_cons.1 homem with rfl | hlater
      · exact Nat.le_refl _
      · exact Nat.le_of_lt (List.rel_of_pairwise_cons hrise hlater)
  · obtain ⟨hclaim, hclass⟩ := (halarms best).1 hlead.mem
    rw [hfold, Option.some_or]
    refine ⟨⟨fun hnone => (nomatch hnone), fun hnone => absurd hclaim (Bool.eq_false_iff.1 (hnone best))⟩, ?_⟩
    rintro src ⟨rfl⟩
    refine ⟨hclaim, fun o ho => .inl ⟨hclass, ?_⟩⟩
    by_cases hord : o < 448
    · exact .inl hord
    · exact .inr (hlead.top o ((halarms o).2 ⟨ho, Nat.not_lt.1 hord⟩))

theorem interruptService : InterruptService := by
  intro s k p
  refine ⟨fun hpass => ⟨fun hbest => ⟨_, exec_irqClaim_pass k p s hpass, ?_⟩,
      fun src hbest => ⟨_, exec_irqClaim_pass k p s hpass, ?_⟩⟩,
    fun data hpass => ⟨fun pr rest hstack => ⟨_, exec_irqEoi_pass k p data s hpass, ?_⟩,
      fun hstack hsvc => ⟨_, exec_irqEoi_pass k p data s hpass, ?_⟩,
      fun hstack hsvc => ⟨_, exec_irqEoi_pass k p data s hpass, ?_⟩⟩,
    fun stays => ⟨_, rfl, ?_⟩, ⟨_, rfl, ?_⟩⟩
  · rw [Leaf.claim_none { s.leaf with rdata := 0 } k.toNat hbest]
    exact ⟨rfl, rfl⟩
  · obtain ⟨hdata, hcnt, hregs⟩ := Leaf.claim_some { s.leaf with rdata := 0 } k.toNat src hbest
    refine ⟨hdata, ?_, fun o ho => ?_, fun hclass => ?_, Leaf.claim_ordinary _ _ src hbest, hregs⟩
    · rw [hcnt, tget_tput_same]
    · rw [hcnt, tget_tput_other _ _ _ _ ho]
    · exact congrArg IrqTarget.stack (Leaf.claim_alarm _ _ src hbest hclass)
  · rw [s.leaf.eoi_stack k.toNat _ _ pr rest hstack, if_pos rfl]
    exact ⟨congrArg IrqTarget.stack (tget_tput_same _ _ _), rfl⟩
  · rw [s.leaf.eoi_ordinary k.toNat _ hstack, if_pos hsvc]
    exact ⟨congrArg IrqTarget.nasvc (tget_tput_same _ _ _), rfl⟩
  · rw [leafCounts, s.leaf.eoi_bad k.toNat _ (fun top pr rest => hstack top pr rest) hsvc]
    exact ⟨Leaf.fld_addSat_same s.leaf _ 1 (by decide : (15 : Nat) < 32), rfl⟩
  · exact ⟨congrArg IrqTarget.hold (Leaf.endHoldoff_target _ _), getLsbD_setBits _ _ stays k.isLt, rfl⟩
  · have htarget := s.leaf.endHoldoff_target k.toNat
    exact ⟨(congrArg IrqTarget.hold htarget :), (congrArg IrqTarget.stack htarget :), (congrArg IrqTarget.nasvc htarget :), rfl, rfl⟩

/-! ## The obligation -/

/-- Settles O19: the heartbeat watch, the choice of a claim, and claims, ends of interrupt and holdoff at the leaf. -/
theorem heartbeatAndInterrupts : Obligations.HeartbeatAndInterrupts :=
  ⟨heartbeatWatch, claimTakesTheHighest, interruptService⟩

end Sys2Proof.Claims
end

section
/-!
The front-ends of event capture (R40, R65, R66, R72, R78): what an edge makes of a front-end, with and without an item, the stop
handshake, the two timeouts of a bank that stopped without it, and the obligation that follows (O15).
-/

namespace Sys2Proof.Machine

open Sys2Proof.Claims

/-! ## The front-end of a bank -/

@[simp] theorem tget_tmod_same {α : Type} [Inhabited α] [DecidableEq α] (t : Tbl α) (k : Nat) (f : α → α) :
    tget (tmod t k f) k = f (tget t k) := tget_tput_same t k _

@[simp] theorem Leaf.modFront_core (b : Nat) (g : BankFront → BankFront) (l : Leaf) :
    (l.modFront b g).cap.core = l.cap.core := rfl

@[simp] theorem Leaf.modFront_front (b : Nat) (g : BankFront → BankFront) (l : Leaf) :
    tget (l.modFront b g).cap.front b = g (tget l.cap.front b) := tget_tmod_same _ _ _

/-! ## An edge -/

/-- The markers that an edge takes: those that have crossed, when it takes markers at all (R65). -/
def EdgeKind.marks (kind : EdgeKind) (f : BankFront) : List BankMarker := if kind = .marker then f.toMark else []

/-- What makes an item of an edge (R65): a marker, a strobe, a stop request, or the 256th edge. -/
def EdgeKind.Wants (kind : EdgeKind) (c : EdgeCounts) (st : List Strobe) (f : BankFront) : Prop :=
  kind.marks f ≠ [] ∨ st ≠ [] ∨ f.stopReq = true ∨ kind = .stop ∨ 256 ≤ f.edges + c.edges

/-- The streams after an edge whose latches are taken (R39, R74). -/
def edgeStreams (st : List Strobe) (f : BankFront) : Tbl StreamState :=
  st.foldl (fun t x => tmod t x.stream.toNat (strobeStep true x)) f.streams

/-- The item that an edge makes (R65): the counts gathered up to it, its strobes and the markers it takes. -/
def EdgeKind.item (kind : EdgeKind) (c : EdgeCounts) (st : List Strobe) (f : BankFront) : Item where
  edges := f.edges + c.edges
  lines := addLines f.lines c.lines
  fins := (st.filter (fun x => x.fin && (tget f.streams x.stream.toNat).isOpen)).map (·.stream)
  starts := (st.filter (·.start)).map (·.stream)
  streams := edgeStreams st f
  markers := kind.marks f

/-- Without cause for an item, the counts of a periodic edge are gathered (R65). -/
theorem frontEdge_gathers (c : EdgeCounts) (f : BankFront) (hreq : f.stopReq = false) (hedges : f.edges + c.edges < 256) :
    frontEdge .periodic c [] f =
      { f with edges := f.edges + c.edges, lines := addLines f.lines c.lines, clk := .running } := by
  have hfew : ¬ 256 ≤ f.edges + c.edges := Nat.not_le.2 hedges
  simp [frontEdge, hreq, hfew]

/-- A front-end whose item has entered the crossing queue: its counts start again at zero (R65, R66). -/
def EdgeKind.sent (kind : EdgeKind) (c : EdgeCounts) (st : List Strobe) (f : BankFront) : BankFront :=
  { f with edges := 0, lines := [], streams := edgeStreams st f, queue := f.queue ++ [kind.item c st f]
           toMark := if (kind.marks f).isEmpty then f.toMark else []
           clk := .running, stopReq := f.stopReq || decide (kind = .stop) }

/-- While an ordinary entry is free and no item waits, an edge with cause for an item sends it (R65, R66). -/
theorem frontEdge_sends (kind : EdgeKind) (c : EdgeCounts) (st : List Strobe) (f : BankFront) (hhold : f.hold = [])
    (hfree : f.queue.length < 28) (hwants : kind.Wants c st f) : frontEdge kind c st f = kind.sent c st f := by
  unfold frontEdge
  extract_lets counted marks room holds wants taken fins streams passed it cleared
  have hroom : room = true := by
    have hplace : counted.queue.length < (if marks.isEmpty then 28 else 32) := by
      split
      · exact hfree
      · exact Nat.lt_trans hfree (by decide)
    simpa [room, counted, hhold] using hplace
  have hcause : wants = true := by
    simpa [EdgeKind.Wants, wants, marks, counted, EdgeKind.marks, or_assoc] using hwants
  have htaken : taken = true := by simp only [taken, hcause, hroom, Bool.true_or, Bool.and_self]
  have hstreams : streams = edgeStreams st f := by
    simp only [streams, htaken]
    rfl
  rw [htaken, if_neg (by decide), if_pos hroom]
  simp only [cleared, it, passed, hstreams]
  rfl

@[simp] theorem Leaf.strobesAt_nil (l : Leaf) (b : Nat) : l.strobesAt b [] = [] := by
  unfold Leaf.strobesAt
  split <;> rfl

/-- An edge of a connected bank of a host that is not isolated (R51, R64). -/
theorem Leaf.bankEdge_on (kind : EdgeKind) (b : Nat) (c : EdgeCounts) (st : List Strobe) (l : Leaf)
    (hon : l.bankOn b = true) (hiso : l.pins.hostIsoN = true) :
    l.bankEdge kind b c st = l.modFront b (frontEdge kind c (l.strobesAt b st)) := by
  simp only [Leaf.bankEdge, hon, hiso, if_true]

/-- The front-end after an edge that sends its item. -/
theorem Leaf.bankEdge_sends (kind : EdgeKind) (b : Nat) (c : EdgeCounts) (st : List Strobe) (l : Leaf)
    (hon : l.bankOn b = true) (hiso : l.pins.hostIsoN = true) (hhold : (tget l.cap.front b).hold = [])
    (hfree : (tget l.cap.front b).queue.length < 28) (hwants : kind.Wants c (l.strobesAt b st) (tget l.cap.front b)) :
    tget (l.bankEdge kind b c st).cap.front b = kind.sent c (l.strobesAt b st) (tget l.cap.front b) := by
  rw [Leaf.bankEdge_on kind b c st l hon hiso, Leaf.modFront_front, frontEdge_sends kind c _ _ hhold hfree hwants]

/-! ## The stop handshake -/

/-- A front-end when it may acknowledge: it does once everything sampled has crossed (R40). -/
def stopAcked (stopped : Bool) (f : BankFront) : BankFront :=
  if f.stopReq && f.queue.isEmpty && f.hold.isEmpty && f.edges == 0 then
    { f with stopAck := true, clk := if stopped then .stoppedAck else f.clk }
  else f

theorem stopAcked_crossed (stopped : Bool) (f : BankFront) (hreq : f.stopReq = true) (hqueue : f.queue = [])
    (hhold : f.hold = []) (hedges : f.edges = 0) :
    stopAcked stopped f = { f with stopAck := true, clk := if stopped then .stoppedAck else f.clk } := by
  simp [stopAcked, hreq, hqueue, hhold, hedges]

theorem stopAcked_waits (stopped : Bool) (f : BankFront) (h : f.stopReq = false ∨ f.queue ≠ []) : stopAcked stopped f = f := by
  rcases h with hreq | hqueue
  · simp [stopAcked, hreq]
  · simp [stopAcked, hqueue]

/-- A front-end after the oldest item that waits may enter the crossing queue (R66). -/
def holdReleased (f : BankFront) : BankFront :=
  match f.hold with
  | [] => f
  | it :: rest => if f.queue.length < 32 then { f with hold := rest, queue := f.queue ++ [it] } else f

theorem holdReleased_enters (f : BankFront) (it : Item) (rest : List Item) (hhold : f.hold = it :: rest)
    (hfree : f.queue.length < 32) : holdReleased f = { f with hold := rest, queue := f.queue ++ [it] } := by
  simp only [holdReleased, hhold, if_pos hfree]

theorem exec_evStopAck (b : BitVec 4) (stopped : Bool) (s : State) :
    exec (.evStopAck b stopped) s = .next (s.onLeaf (Leaf.modFront b.toNat (stopAcked stopped))) := rfl

theorem exec_evStopRelease (b : BitVec 4) (s : State) :
    exec (.evStopRelease b) s =
      .next (s.onLeaf (Leaf.modFront b.toNat fun f => { f with stopReq := false, stopAck := false, clk := .running })) := rfl

theorem exec_markerHoldRelease (b : BitVec 4) (s : State) :
    exec (.markerHoldRelease b) s = .next (s.onLeaf (Leaf.modFront b.toNat holdReleased)) := rfl

/-! ## A field set in several groups -/

/-- The leaf with a field set to one in each of the groups listed. -/
def Leaf.setInGroups (f : Fld) (gs : List Nat) (l : Leaf) : Leaf := gs.foldl (fun l g => l.setFld (f.at (0x50 * g)) 1) l

@[simp] theorem Leaf.setInGroups_cap (f : Fld) (gs : List Nat) (l : Leaf) : (l.setInGroups f gs).cap = l.cap := by
  induction gs generalizing l with
  | nil => rfl
  | cons g gs ih => exact ih (l.setFld (f.at (0x50 * g)) 1)

/-- A field that is set to one is not zero. -/
theorem Leaf.flag_setFld_one (l : Leaf) (f : Fld) (hhi : f.hi < 32) (hlo : f.lo ≤ f.hi) : (l.setFld f 1).flag f = true := by
  have hone : (1 : Nat) < 2 ^ (f.hi + 1 - f.lo) := Nat.one_lt_two_pow (by omega)
  rw [Leaf.flag, l.fld_setFld_same f 1 hhi, Nat.mod_eq_of_lt hone]
  rfl

/-- A field that is set in a group stays set while it is set in others. -/
theorem Leaf.setInGroups_keeps (f : Fld) (hhi : f.hi < 32) (hlo : f.lo ≤ f.hi) (gs : List Nat) (l : Leaf) (g : Nat)
    (hset : l.flag (f.at (0x50 * g)) = true) : (l.setInGroups f gs).flag (f.at (0x50 * g)) = true := by
  induction gs generalizing l with
  | nil => exact hset
  | cons o gs ih =>
    refine ih (l.setFld (f.at (0x50 * o)) 1) ?_
    by_cases ho : g = o
    · exact ho ▸ l.flag_setFld_one (f.at (0x50 * g)) hhi hlo
    · have hoff : (f.at (0x50 * g)).off ≠ (f.at (0x50 * o)).off := by simp only [Fld.at]; omega
      rw [Leaf.flag, l.fld_setFld_reg _ _ 1 hoff]
      exact hset

/-- The field is set in every group listed. -/
theorem Leaf.setInGroups_flag (f : Fld) (hhi : f.hi < 32) (hlo : f.lo ≤ f.hi) (gs : List Nat) (l : Leaf) (g : Nat)
    (hg : g ∈ gs) : (l.setInGroups f gs).flag (f.at (0x50 * g)) = true := by
  obtain ⟨before, after, rfl⟩ := List.append_of_mem hg
  rw [Leaf.setInGroups, List.foldl_append]
  exact Leaf.setInGroups_keeps f hhi hlo after _ g (Leaf.flag_setFld_one _ (f.at (0x50 * g)) hhi hlo)

/-! ## The timeouts -/

@[simp] theorem Leaf.snapDone_regs (l : Leaf) : l.snapDone.regs = l.regs := by
  simp only [Leaf.snapDone]
  split
  · split <;> rfl
  · rfl

@[simp] theorem Leaf.snapDone_front (l : Leaf) : l.snapDone.cap.front = l.cap.front := by
  simp only [Leaf.snapDone]
  split
  · split <;> rfl
  · rfl

@[simp] theorem Leaf.snapBank_regs (b : Nat) (l : Leaf) : (l.snapBank b).regs = l.regs := by
  simp only [Leaf.snapBank]
  split
  · exact Leaf.snapDone_regs _
  · rfl

@[simp] theorem Leaf.snapBank_front (b : Nat) (l : Leaf) : (l.snapBank b).cap.front = l.cap.front := by
  simp only [Leaf.snapBank]
  split
  · exact Leaf.snapDone_front _
  · rfl

@[simp] theorem Leaf.sampleBank_regs (b : Nat) (l : Leaf) : (l.sampleBank b).regs = l.regs := by
  simp only [Leaf.sampleBank]
  split <;> rfl

@[simp] theorem Leaf.sampleBank_front (b : Nat) (l : Leaf) : (l.sampleBank b).cap.front = l.cap.front := by
  simp only [Leaf.sampleBank]
  split <;> rfl

/-- The leaf with a bank found stopped: its front-end keeps control markers alone, and its groups show HELD (R78). -/
def Leaf.bankHeld (b : BitVec 4) (l : Leaf) : Leaf :=
  let l := l.modFront b.toNat (fun f => { f with clk := .stoppedDead, toMark := controlsOnly f })
  Leaf.setInGroups GlR.CG_STAT_HELD (bankGroups b.toNat)
    { l with cap := { l.cap with heldNow := l.cap.heldNow || l.cap.instWait.any (· == b) } }

theorem Leaf.bankHeld_front (b : BitVec 4) (l : Leaf) :
    tget (l.bankHeld b).cap.front b.toNat =
      { tget l.cap.front b.toNat with clk := .stoppedDead, toMark := controlsOnly (tget l.cap.front b.toNat) } := by
  rw [Leaf.bankHeld, Leaf.setInGroups_cap]
  exact l.modFront_front b.toNat (fun f => { f with clk := .stoppedDead, toMark := controlsOnly f })

theorem Leaf.bankHeld_held (b : BitVec 4) (g : Nat) (l : Leaf) (hg : g ∈ bankGroups b.toNat) :
    (l.bankHeld b).flag (GlR.CG_STAT_HELD.at (0x50 * g)) = true :=
  Leaf.setInGroups_flag GlR.CG_STAT_HELD (by decide) (by decide) _ _ g hg

theorem untaken_of_instant (f : BankFront) (n : Nat) (h : BankMarker.instant n ∈ f.toMark) : untaken f = true :=
  List.any_eq_true.2 ⟨_, h, rfl⟩

/-- The group whose control change a marker carries. -/
def BankMarker.ctlGroup : BankMarker → Option Nat
  | .control c => some c.group.toNat
  | _ => none

/-- The groups whose control changes a front-end has not taken. -/
def ctlGroups (f : BankFront) : List Nat := f.toMark.filterMap BankMarker.ctlGroup

theorem mem_ctlGroups (f : BankFront) (ch : CtlChange) (h : .control ch ∈ f.toMark) : ch.group.toNat ∈ ctlGroups f :=
  List.mem_filterMap.2 ⟨_, h, rfl⟩

/-- The leaf with the control writes that wait for a stopped bank acknowledged (R72). -/
def Leaf.ctlTimedOut (b : Nat) (l : Leaf) : Leaf :=
  Leaf.setInGroups GlR.CG_STAT_CLR_PEND (ctlGroups (tget l.cap.front b))
    (l.modFront b (fun f => { f with clk := .stoppedDead }))

theorem Leaf.ctlTimedOut_pend (b : Nat) (l : Leaf) (ch : CtlChange) (h : .control ch ∈ (tget l.cap.front b).toMark) :
    (l.ctlTimedOut b).flag (GlR.CG_STAT_CLR_PEND.at (0x50 * ch.group.toNat)) = true :=
  Leaf.setInGroups_flag GlR.CG_STAT_CLR_PEND (by decide) (by decide) _ _ _ (mem_ctlGroups _ ch h)

theorem Leaf.ctlTimedOut_core (b : Nat) (l : Leaf) : (l.ctlTimedOut b).cap.core = l.cap.core := by
  rw [Leaf.ctlTimedOut, Leaf.setInGroups_cap, Leaf.modFront_core]

/-- A bank with a sample or snapshot to take that stopped: the core takes it (R78). -/
theorem exec_markerTimeout_untaken (b : BitVec 4) (s : State) (h : untaken (tget s.leaf.cap.front b.toNat) = true) :
    exec (.markerTimeout b) s =
      .next { s with leaf := ((s.leaf.bankHeld b).snapBank b.toNat).sampleBank b.toNat } := by
  have hexec : exec (.markerTimeout b) s = execMarkerTimeout b s := rfl
  rw [hexec, execMarkerTimeout, State.onLeaf, if_pos h]
  rfl

/-- A bank with a control write to take that stopped: the write is acknowledged (R72). -/
theorem exec_controlWriteTimeout_waiting (b : BitVec 4) (s : State) (ch : CtlChange)
    (h : .control ch ∈ (tget s.leaf.cap.front b.toNat).toMark) :
    exec (.controlWriteTimeout b) s = .next { s with leaf := s.leaf.ctlTimedOut b.toNat } := by
  have hexec : exec (.controlWriteTimeout b) s =
    .next (s.onLeaf fun l => if (ctlGroups (tget l.cap.front b.toNat)).isEmpty then l else l.ctlTimedOut b.toNat) := rfl
  have hsome : ¬ (ctlGroups (tget s.leaf.cap.front b.toNat)).isEmpty = true := fun hnone =>
    List.ne_nil_of_mem (mem_ctlGroups _ ch h) (List.isEmpty_iff.1 hnone)
  rw [hexec, State.onLeaf, if_neg hsome]

end Sys2Proof.Machine

namespace Sys2Proof.Claims

open Sys2Proof.Machine

/-! ## What the statements say, part by part -/

theorem frontEndMakesItems : FrontEndMakesItems := by
  intro s b c st f hon hiso hhold hfree hreq
  have hsends := fun kind st => s.leaf.bankEdge_sends kind b.toNat c st hon hiso hhold hfree
  refine ⟨fun hfew => ⟨_, rfl, ?_⟩, fun hmany => ⟨_, EdgeKind.periodic.item c [] f, rfl, ?_⟩,
    fun hst => ⟨_, EdgeKind.strobe.item c (s.leaf.strobesAt b.toNat st) f, rfl, ?_⟩,
    fun hmark => ⟨_, EdgeKind.marker.item c (s.leaf.strobesAt b.toNat st) f, rfl, ?_⟩,
    ⟨_, EdgeKind.stop.item c (s.leaf.strobesAt b.toNat st) f, rfl, ?_⟩⟩
  · rw [State.onLeaf_leaf, Leaf.bankEdge_on _ _ _ _ _ hon hiso, Leaf.strobesAt_nil, Leaf.modFront_front,
      frontEdge_gathers c _ hreq hfew]
    exact ⟨rfl, rfl, rfl, rfl⟩
  · rw [State.onLeaf_leaf, hsends .periodic [] (.inr (.inr (.inr (.inr hmany)))), Leaf.strobesAt_nil]
    exact ⟨rfl, rfl, rfl, rfl, rfl⟩
  · rw [State.onLeaf_leaf, hsends .strobe st (.inr (.inl hst))]
    exact ⟨rfl, rfl, rfl, rfl, rfl⟩
  · rw [State.onLeaf_leaf, hsends .marker st (.inl hmark)]
    exact ⟨rfl, rfl, if_neg fun hnone => hmark (List.isEmpty_iff.1 hnone)⟩
  · rw [State.onLeaf_leaf, hsends .stop st (.inr (.inr (.inr (.inl rfl))))]
    exact ⟨rfl, Bool.or_true _, rfl⟩

theorem bankClockStops : BankClockStops := by
  intro s b f
  refine ⟨fun stopped hreq hqueue hhold hedges => ⟨_, exec_evStopAck b stopped s, ?_⟩,
    fun stopped hwaits => ⟨_, exec_evStopAck b stopped s, ?_⟩, ⟨_, exec_evStopRelease b s, ?_⟩,
    fun it rest hhold hfree => ⟨_, exec_markerHoldRelease b s, ?_⟩, fun g hg hmark => ?timeout,
    fun ch hch => ⟨_, exec_controlWriteTimeout_waiting b s ch hch, s.leaf.ctlTimedOut_pend _ ch hch, s.leaf.ctlTimedOut_core _⟩⟩
  · rw [State.onLeaf_leaf, Leaf.modFront_front, stopAcked_crossed stopped _ hreq hqueue hhold hedges]
    exact ⟨rfl, fun hstopped => if_pos hstopped⟩
  · rw [State.onLeaf_leaf, Leaf.modFront_front, stopAcked_waits stopped _ hwaits]
  · rw [State.onLeaf_leaf, Leaf.modFront_front]
    exact ⟨rfl, rfl, rfl⟩
  · rw [State.onLeaf_leaf, Leaf.modFront_front, holdReleased_enters _ it rest hhold hfree]
    exact ⟨rfl, rfl⟩
  case timeout =>
    obtain ⟨_, hmem, n, rfl⟩ := hmark
    refine ⟨_, exec_markerTimeout_untaken b s (untaken_of_instant f n hmem), ?_, ?_⟩
    · rw [Leaf.sampleBank_front, Leaf.snapBank_front, Leaf.bankHeld_front]
    · rw [Leaf.flag_of_fld (Leaf.fld_of_regs ((Leaf.sampleBank_regs _ _).trans (Leaf.snapBank_regs _ _)) _)]
      exact s.leaf.bankHeld_held _ g hg

/-! ## The obligation -/

/-- Settles O15: items of a front-end, the stop handshake, and the timeouts of a bank that stopped without it. -/
theorem captureFrontEnds : Obligations.CaptureFrontEnds :=
  ⟨frontEndMakesItems, bankClockStops⟩

end Sys2Proof.Claims
end

section
/-!
The leaf's time base, its sources and its servo (R52, R106 to R117): what sending an alarm leaves of time, what a sample of the
servo leaves, what the instants that a phase step passes leave, and the obligation that follows (O21).
-/

namespace Sys2Proof.Machine

open Sys2Proof.Claims

/-! ## What sending an alarm leaves of time -/

@[simp] theorem Leaf.event_time (l : Leaf) (src : Nat) : (l.event src).time = l.time := by
  unfold Leaf.event
  split <;> rfl

@[simp] theorem Leaf.event_pins (l : Leaf) (src : Nat) : (l.event src).pins = l.pins := by
  unfold Leaf.event
  split <;> rfl

@[simp] theorem Leaf.event_fld (l : Leaf) (src : Nat) (f : Fld) : (l.event src).fld f = l.fld f :=
  Leaf.fld_of_regs (l.event_regs src) f

/-- The second leaf has the first one's pins, time base and registers below 0x2000 (identity, capture, time). -/
structure Leaf.TimeKept (l l' : Leaf) : Prop where
  time : l'.time = l.time
  pins : l'.pins = l.pins
  reg : ∀ o, o < 0x2000 → l'.reg o = l.reg o

theorem Leaf.TimeKept.trans {a b c : Leaf} (hab : a.TimeKept b) (hbc : b.TimeKept c) : a.TimeKept c where
  time := hbc.time.trans hab.time
  pins := hbc.pins.trans hab.pins
  reg o ho := (hbc.reg o ho).trans (hab.reg o ho)

theorem Leaf.TimeKept.of_eq {l l' : Leaf} (htime : l'.time = l.time) (hpins : l'.pins = l.pins) (hregs : l'.regs = l.regs) :
    l.TimeKept l' where
  time := htime
  pins := hpins
  reg o _ := by simp only [Leaf.reg, hregs]

theorem Leaf.TimeKept.refl (l : Leaf) : l.TimeKept l := .of_eq rfl rfl rfl

theorem Leaf.TimeKept.ite {l a b : Leaf} {c : Prop} [Decidable c] (ha : l.TimeKept a) (hb : l.TimeKept b) :
    l.TimeKept (if c then a else b) := by
  split
  · exact ha
  · exact hb

theorem Leaf.TimeKept.fld {l l' : Leaf} (h : l.TimeKept l') (f : Fld) (hf : f.off < 0x2000) : l'.fld f = l.fld f :=
  Leaf.fld_of_reg f (h.reg _ hf)

theorem Leaf.timeKept_setFld (l : Leaf) (f : Fld) (v : Nat) (h : 0x2000 ≤ f.off) : l.TimeKept (l.setFld f v) where
  time := rfl
  pins := rfl
  reg o ho := Leaf.reg_setFld_other l f o v (by omega)

theorem Leaf.timeKept_addSat (l : Leaf) (f : Fld) (n : Nat) (h : 0x2000 ≤ f.off) : l.TimeKept (l.addSat f n) :=
  l.timeKept_setFld f _ h

theorem Leaf.timeKept_addMod (l : Leaf) (f : Fld) (n : Nat) (h : 0x2000 ≤ f.off) : l.TimeKept (l.addMod f n) :=
  l.timeKept_setFld f _ h

theorem Leaf.timeKept_record (l : Leaf) (r code origin : Nat) (body : List Byte) : l.TimeKept (l.record r code origin body) :=
  .of_eq rfl rfl rfl

theorem Leaf.timeKept_pushOwn (l : Leaf) (cls ty : Nat) (body : List Byte) : l.TimeKept (l.pushOwn cls ty body) :=
  .of_eq rfl rfl rfl

theorem Leaf.timeKept_event (l : Leaf) (src : Nat) : l.TimeKept (l.event src) :=
  .of_eq (l.event_time src) (l.event_pins src) (l.event_regs src)

theorem Leaf.timeKept_reedDrop (l : Leaf) (p : Bool) (m : ReedMsg) : l.TimeKept (l.reedDrop p m) := by
  have hqdrop : 0x2000 ≤ (GlR.CH_ERR_QDROP.at (portOff p)).off := Nat.le_add_right_of_le (by decide)
  have hcounted := (l.timeKept_addSat _ 1 hqdrop).trans (Leaf.timeKept_event _ 310)
  unfold Leaf.reedDrop
  split
  · exact hcounted.trans (Leaf.timeKept_record _ _ _ _ _)
  · exact hcounted

theorem Leaf.timeKept_sendOn (l : Leaf) (p : Bool) (m : ReedMsg) (bad : Bool) : l.TimeKept (l.sendOn p m bad) := by
  simp only [Leaf.sendOn]
  refine .ite (.of_eq rfl rfl rfl) ?_
  split
  case h_5 => exact .ite (.of_eq rfl rfl rfl) (.ite (.of_eq rfl rfl rfl) (l.timeKept_reedDrop p _))
  all_goals exact .ite (.of_eq rfl rfl rfl) (l.timeKept_reedDrop p _)

theorem Leaf.timeKept_toMaster (l : Leaf) (m : ReedMsg) : l.TimeKept (l.toMaster m) := by
  unfold Leaf.toMaster
  split
  · exact l.timeKept_sendOn _ m false
  · exact .ite (.of_eq rfl rfl rfl) (.ite (.of_eq rfl rfl rfl) (l.timeKept_reedDrop false m))

theorem Leaf.timeKept_sendAlarm (l : Leaf) (code : Nat) : l.TimeKept (l.sendAlarm code) := by
  have hcredit := l.timeKept_setFld GlR.UL_ALM_CREDIT (l.fld GlR.UL_ALM_CREDIT - 1) (by decide)
  have hseq := hcredit.trans (Leaf.timeKept_addMod _ GlR.UL_ALM_SEQ 1 (by decide))
  have hqueued := fun note body =>
    (hseq.trans (Leaf.timeKept_record _ 1 0x0303 0 note)).trans (Leaf.timeKept_pushOwn _ 0 2 body)
  exact (hqueued _ _).trans (.ite (.refl _) (Leaf.timeKept_toMaster _ _))

/-- An alarm of the device leaves time as it was, whether it is sent or suppressed (R171, R366). -/
theorem Leaf.timeKept_alarm (l : Leaf) (code : Nat) : l.TimeKept (l.alarm code none) := by
  have hevent := l.timeKept_event (448 + (code - 2))
  have hcount := hevent.trans (Leaf.timeKept_addMod _ GlR.UL_ASUPP_COUNT 1 (by decide))
  have hstat := hcount.trans (Leaf.timeKept_setFld _ GlR.UL_STAT_ASUPP 1 (by decide))
  have hsupp := hstat.trans (Leaf.timeKept_event _ 314)
  exact .ite (hevent.trans (Leaf.timeKept_sendAlarm _ code)) (hsupp.trans (.of_eq rfl rfl rfl))

/-! ## The reference clock and its rate -/

/-- A change around the heartbeat watch is the change, with the watch set by it (R393). -/
theorem Leaf.hbAround_eq (f : Leaf → Leaf) (l : Leaf) : ∃ watch, l.hbAround f = { f l with hb := watch } := by
  simp only [Leaf.hbAround]
  repeat' split
  · exact ⟨_, rfl⟩
  · exact ⟨_, rfl⟩
  · exact ⟨(f l).hb, rfl⟩

/-- A change that leaves the leaf as it is leaves the heartbeat watch as it is. -/
theorem Leaf.hbAround_fixed (f : Leaf → Leaf) (l : Leaf) (h : f l = l) : l.hbAround f = l := by
  simp [Leaf.hbAround, h]

/-- The leaf whose reference clock has just stopped, before its alarm (R52). -/
def Leaf.refclkStopped (l : Leaf) : Leaf :=
  Leaf.lockAgain (Leaf.setEvent GlR.IDENT_STATUS_REFCLK_LOST 305 { l with pins := { l.pins with refclk := false } })

theorem exec_refclkLost (s : State) :
    exec .refclkLost s = .next (s.onLeaf (Leaf.hbAround fun l => l.refclkStopped.alarm 2 none)) := rfl

theorem exec_refclkRestored (s : State) :
    exec .refclkRestored s =
      .next (s.onLeaf (Leaf.hbAround fun l => { l with pins := { l.pins with refclk := true } })) := rfl

theorem exec_reffreqWrite (p : Port) (data : Word) (s : State) :
    exec (.reffreqWrite p data) s =
      .next (s.onLeaf (Leaf.hbAround (Leaf.guarded p 0x1008 true (Leaf.khzWrite (bits data.toNat 17 0))))) := rfl

theorem exec_fallbackCalibrate (ratio : Nat) (s : State) :
    exec (.fallbackCalibrate ratio) s =
      .next (s.onLeaf fun l => if l.timeRuns then { l with time := { l.time with ratio := ratio } } else l) := rfl

theorem Leaf.refclkStopped_pins (l : Leaf) : l.refclkStopped.pins.refclk = false := by
  simp [Leaf.refclkStopped, Leaf.lockAgain, Leaf.setEvent]

theorem Leaf.refclkStopped_time (l : Leaf) :
    l.refclkStopped.time = { l.time with lockWait := l.time.lockWait || l.time.everRan } := by
  simp [Leaf.refclkStopped, Leaf.lockAgain, Leaf.setEvent]

theorem Leaf.refclkStopped_lockrun (l : Leaf) : l.refclkStopped.fld GlR.TM_STAT_LOCKRUN = 0 :=
  Leaf.fld_setFld_same _ GlR.TM_STAT_LOCKRUN 0 (by decide)

theorem Leaf.refclkStopped_lost (l : Leaf) : l.refclkStopped.flag GlR.IDENT_STATUS_REFCLK_LOST = true := by
  have hkept := fun m : Leaf => Leaf.fld_setFld_reg m GlR.TM_STAT_LOCKRUN GlR.IDENT_STATUS_REFCLK_LOST 0 (by decide)
  have hset := fun m : Leaf => m.flag_setFld_one GlR.IDENT_STATUS_REFCLK_LOST (by decide) (by decide)
  refine (Leaf.flag_of_fld ((hkept _).trans ?_)).trans (hset { l with pins := { l.pins with refclk := false } })
  exact Leaf.event_fld _ 305 _

/-- A lost reference at the leaf (R52), the alarm sent: what stands of it in the pins, the time base and the registers. -/
theorem Leaf.refclkLost_leaves (l : Leaf) :
    let t := l.refclkStopped.alarm 2 none
    t.pins.refclk = false ∧ t.flag GlR.IDENT_STATUS_REFCLK_LOST = true ∧ t.fld GlR.TM_STAT_LOCKRUN = 0 ∧
      t.time = { l.time with lockWait := l.time.lockWait || l.time.everRan } ∧ 0 < tget t.irq.cnt 448 := by
  have hkept := Leaf.timeKept_alarm l.refclkStopped 2
  refine ⟨?_, ?_, ?_, hkept.time.trans l.refclkStopped_time, Leaf.alarm_counts _ 2 rfl⟩
  · rw [hkept.pins, l.refclkStopped_pins]
  · rw [Leaf.flag_of_fld (hkept.fld _ (by decide)), l.refclkStopped_lost]
  · rw [hkept.fld _ (by decide), l.refclkStopped_lockrun]

/-- The time base runs with its reference clock once KHZ holds a rate in range (R106, R107). -/
theorem Leaf.timeRuns_of_khz (l : Leaf) (hlo : 25000 ≤ l.fld GlR.TM_REFFREQ_KHZ) (hhi : l.fld GlR.TM_REFFREQ_KHZ ≤ 200000) :
    l.timeRuns = l.pins.refclk := by
  simp [Leaf.timeRuns, hlo, hhi]

theorem Leaf.timeRuns_of_stopped (l : Leaf) (h : l.pins.refclk = false) : l.timeRuns = false := by
  simp [Leaf.timeRuns, h]

/-- A rate in range is taken (R107). -/
theorem Leaf.khzWrite_taken (khz : Nat) (l : Leaf) (hlo : 25000 ≤ khz) (hhi : khz ≤ 200000) :
    l.khzWrite khz = { (l.setFld GlR.TM_REFFREQ_KHZ khz).setFld GlR.TM_STAT_NOFREQ 0 with
      time := { l.time with everRan := true } } := if_pos ⟨hlo, hhi⟩

/-- A rate out of range is not taken (R107). -/
theorem Leaf.khzWrite_refused (khz : Nat) (l : Leaf) (h : khz < 25000 ∨ 200000 < khz) : l.khzWrite khz = l :=
  if_neg (by omega)

theorem Leaf.khzWrite_khz (khz : Nat) (l : Leaf) (hlo : 25000 ≤ khz) (hhi : khz ≤ 200000) :
    (l.khzWrite khz).fld GlR.TM_REFFREQ_KHZ = khz := by
  have hkept := Leaf.fld_setFld_reg (l.setFld GlR.TM_REFFREQ_KHZ khz) GlR.TM_STAT_NOFREQ GlR.TM_REFFREQ_KHZ 0 (by decide)
  rw [Leaf.khzWrite_taken khz l hlo hhi]
  refine hkept.trans ((Leaf.fld_setFld_same l _ _ (by decide)).trans (Nat.mod_eq_of_lt ?_))
  exact Nat.lt_of_le_of_lt hhi (by decide)

theorem Leaf.khzWrite_nofreq (khz : Nat) (l : Leaf) (hlo : 25000 ≤ khz) (hhi : khz ≤ 200000) :
    (l.khzWrite khz).flag GlR.TM_STAT_NOFREQ = false := by
  have hclear := Leaf.fld_setFld_same (l.setFld GlR.TM_REFFREQ_KHZ khz) GlR.TM_STAT_NOFREQ 0 (by decide)
  rw [Leaf.khzWrite_taken khz l hlo hhi]
  exact bne_eq_false_iff_eq.2 hclear

/-! ## What a sample of the servo leaves -/

/-- The second leaf has the first one's aligned time, uplink samples, SOURCE and registers, except for what the servo itself
writes: `GL_TM_STAT`, the last offset and the frequency adjustment (0x1004, 0x1018, 0x101C). -/
structure Leaf.Steered (l l' : Leaf) : Prop where
  ns : l'.time.ns = l.time.ns
  lastUp : l'.time.lastUp = l.time.lastUp
  upTheta : l'.time.upTheta = l.time.upTheta
  reg : ∀ o, o ≠ 0x1004 → o ≠ 0x1018 → o ≠ 0x101C → l'.reg o = l.reg o
  source : l'.fld GlR.TM_STAT_SOURCE = l.fld GlR.TM_STAT_SOURCE

theorem Leaf.Steered.trans {a b c : Leaf} (hab : a.Steered b) (hbc : b.Steered c) : a.Steered c where
  ns := hbc.ns.trans hab.ns
  lastUp := hbc.lastUp.trans hab.lastUp
  upTheta := hbc.upTheta.trans hab.upTheta
  reg o h1 h2 h3 := (hbc.reg o h1 h2 h3).trans (hab.reg o h1 h2 h3)
  source := hbc.source.trans hab.source

theorem Leaf.Steered.ite {l a b : Leaf} {c : Prop} [Decidable c] (ha : l.Steered a) (hb : l.Steered b) :
    l.Steered (if c then a else b) := by
  split
  · exact ha
  · exact hb

/-- An update of the servo's own variables. -/
theorem Leaf.Steered.of_eq {l l' : Leaf} (hns : l'.time.ns = l.time.ns) (hlast : l'.time.lastUp = l.time.lastUp)
    (htheta : l'.time.upTheta = l.time.upTheta) (hregs : l'.regs = l.regs) : l.Steered l' where
  ns := hns
  lastUp := hlast
  upTheta := htheta
  reg o _ _ _ := by simp only [Leaf.reg, hregs]
  source := Leaf.fld_of_regs hregs _

theorem Leaf.Steered.refl (l : Leaf) : l.Steered l := .of_eq rfl rfl rfl rfl

theorem Leaf.steered_setReg (l : Leaf) (o : Nat) (w : Word) (h : o = 0x1018 ∨ o = 0x101C) : l.Steered (l.setReg o w) where
  ns := rfl
  lastUp := rfl
  upTheta := rfl
  reg _ _ h1 h2 := Leaf.reg_setReg_other l o _ w (by omega)
  source := Leaf.fld_of_reg _ (Leaf.reg_setReg_other l o _ w (by simp only; omega))

/-- A field of `GL_TM_STAT` apart from SOURCE. -/
theorem Leaf.steered_setFld (l : Leaf) (f : Fld) (v : Nat) (hoff : f.off = 0x1004) (h : f.hi < 27 ∨ 28 < f.lo) :
    l.Steered (l.setFld f v) where
  ns := rfl
  lastUp := rfl
  upTheta := rfl
  reg o ho _ _ := Leaf.reg_setFld_other l f o v (hoff ▸ ho)
  source := Leaf.fld_setFld_field l f GlR.TM_STAT_SOURCE v (by decide) h.symm

theorem Leaf.steered_event (l : Leaf) (src : Nat) : l.Steered (l.event src) :=
  .of_eq (by simp) (by simp) (by simp) (l.event_regs src)

theorem Leaf.steered_state (l : Leaf) (v : Nat) : l.Steered (l.setFld GlR.TM_STAT_STATE v) :=
  l.steered_setFld _ v rfl (by decide)

theorem Leaf.steered_loseLock (l : Leaf) (v : Nat) : l.Steered (l.loseLock v) := by
  have hstate := l.steered_state v
  have hlost := hstate.trans (Leaf.steered_setFld _ GlR.TM_STAT_LOSTLOCK 1 rfl (by decide))
  exact (hlost.trans (Leaf.steered_event _ 300)).trans (Leaf.steered_setFld _ GlR.TM_STAT_LOCKRUN 0 rfl (by decide))

/-- The loop of the servo writes its own variables, the adjustment and the state (R425). -/
theorem Leaf.steered_servoLoop (l : Leaf) (th : Int) : l.Steered (l.servoLoop th) := by
  unfold Leaf.servoLoop
  extract_lets kp ki integ adj near good st time timed adjusted m
  have hadj : l.Steered adjusted := .trans (b := timed) (.of_eq rfl rfl rfl rfl) (timed.steered_setReg 0x101C _ (.inr rfl))
  have hm : l.Steered m :=
    .ite (hadj.trans (adjusted.steered_loseLock _)) (.ite (hadj.trans (adjusted.steered_state _)) hadj)
  exact .ite (hm.trans (m.steered_state _)) hm

/-- A sample asks for a phase step or goes through the loop; either way it leaves what `Steered` names (R117, R425). -/
theorem Leaf.steered_servoSample (l : Leaf) (th16 : Int) : l.Steered (l.servoSample th16) := by
  have hwaits : ∀ (m : Leaf) pend good, m.Steered { m with time := { m.time with stepPend := pend, good := good } } :=
    fun _ _ _ => .of_eq rfl rfl rfl rfl
  unfold Leaf.servoSample
  extract_lets th m big
  have hm : l.Steered m := l.steered_setReg 0x1018 _ (.inl rfl)
  refine hm.trans ?_
  split
  · exact .ite (hwaits m _ _) ((hwaits m _ _).trans (Leaf.steered_servoLoop _ th))
  · refine .ite ((hwaits m _ _).trans (Leaf.steered_state _ _)) (.ite ?_ (m.steered_servoLoop th))
    exact .ite ((hwaits m _ _).trans (Leaf.steered_loseLock _ _)) ((hwaits m _ _).trans (Leaf.steered_state _ _))

/-! ## Time cells -/

/-- Which sources are usable rests on the samples, on ROLE and on SRC alone (R114). -/
theorem Leaf.usable_congr {l l' : Leaf} (hup : l'.time.lastUp = l.time.lastUp) (htick : l'.time.lastTick = l.time.lastTick)
    (hrole : l'.reg 0x2004 = l.reg 0x2004) (hctl : l'.reg 0x1000 = l.reg 0x1000) :
    l'.upUsable = l.upUsable ∧ l'.reedUsable = l.reedUsable := by
  have hmaster : l'.isMaster = l.isMaster := by simp only [Leaf.isMaster, Leaf.fld_of_reg GlR.CH_STAT_ROLE hrole]
  have hsrc := Leaf.fld_of_reg GlR.TM_CTL_SRC hctl
  simp only [Leaf.upUsable, Leaf.reedUsable, hup, htick, hmaster, hsrc, and_self]

/-- The source that R114 takes of those usable: 1 UPLINK, 2 REED, 0 none. -/
def Leaf.sourceOf (l : Leaf) : Nat := if l.upUsable then 1 else if l.reedUsable then 2 else 0

theorem Leaf.sourceOf_lt (l : Leaf) : l.sourceOf < 4 := by
  unfold Leaf.sourceOf
  split
  · decide
  · split <;> decide

theorem Leaf.pickSource_source (l : Leaf) : l.pickSource.fld GlR.TM_STAT_SOURCE = l.sourceOf :=
  (Leaf.fld_setFld_same l GlR.TM_STAT_SOURCE _ (by decide)).trans (Nat.mod_eq_of_lt l.sourceOf_lt)

/-- The leaf with an accepted exchange counted and its sample kept (R109, R114). -/
def Leaf.exchanged (th sum : Int) (l : Leaf) : Leaf :=
  { l.addMod GlR.TM_EXCH_EXCH 1 with
    time := { l.time with sums := (sum :: l.time.sums).take 16, upTheta := some th, lastUp := some l.time.clk } }

theorem Leaf.exchanged_exch (th sum : Int) (l : Leaf) :
    (l.exchanged th sum).fld GlR.TM_EXCH_EXCH = (l.fld GlR.TM_EXCH_EXCH + 1) % 2 ^ 16 :=
  Leaf.fld_setFld_same l GlR.TM_EXCH_EXCH _ (by decide)

theorem Leaf.exchanged_reg_other (th sum : Int) (l : Leaf) (o : Nat) (h : o ≠ 0x1028) :
    (l.exchanged th sum).reg o = l.reg o :=
  Leaf.reg_setFld_other l GlR.TM_EXCH_EXCH o _ h

/-- An accepted exchange makes UPLINK usable where REED is not demanded of a member (R114). -/
theorem Leaf.exchanged_usable (th sum : Int) (l : Leaf) (h : l.isMaster = true ∨ l.fld GlR.TM_CTL_SRC ≠ 2) :
    (l.exchanged th sum).upUsable = true := by
  have hmaster : (l.exchanged th sum).isMaster = l.isMaster :=
    congrArg (· == roleMaster) (Leaf.fld_of_reg GlR.CH_STAT_ROLE (l.exchanged_reg_other th sum _ (by decide)))
  have hsrc := Leaf.fld_of_reg GlR.TM_CTL_SRC (l.exchanged_reg_other th sum _ (by decide))
  have hlast : (l.exchanged th sum).time.lastUp.isSome = true := rfl
  simpa [Leaf.upUsable, hmaster, hsrc, hlast] using h

/-- A time cell without running time base, or one that is discarded, changes nothing (R109). -/
theorem exec_timeCellRx_discards (m : TimeCell) (s : State) (h : s.leaf.timeRuns = false ∨ s.leaf.exchange m = none) :
    exec (.timeCellRx m) s = .next s := by
  have hexec : exec (.timeCellRx m) s = execTimeCellRx m s := rfl
  refine hexec.trans (congrArg Host.Outcome.next (State.onLeaf_fixed s _ ?_))
  rcases h with h | h <;> simp [h]

/-- A time cell that is accepted counts, and steers the servo once UPLINK is usable (R109, R114). -/
theorem exec_timeCellRx_accepts (m : TimeCell) (th sum : Int) (s : State) (hruns : s.leaf.timeRuns = true)
    (hexch : s.leaf.exchange m = some (th, sum)) :
    exec (.timeCellRx m) s = .next (s.onLeaf fun l =>
      onlyIf (l.exchanged th sum).pickSource.upUsable (Leaf.servoSample th) (l.exchanged th sum).pickSource) := by
  have hexec : exec (.timeCellRx m) s = execTimeCellRx m s := rfl
  rw [hexec, execTimeCellRx]
  simp only [State.onLeaf, hruns, hexch]
  rfl

theorem Leaf.steered_onlyIf (c : Bool) (th : Int) (l : Leaf) : l.Steered (onlyIf c (Leaf.servoSample th) l) :=
  .ite (l.steered_servoSample th) (.refl l)

/-- The value of 32 bits as a signed number, both ways of writing it. -/
theorem sgn_toNat (w : Word) : sgn 32 w.toNat = w.toInt := by
  have hlt := w.isLt
  simp only [sgn, BitVec.toInt, Nat.mod_eq_of_lt hlt]
  split <;> split <;> omega

/-- The offset of a time cell that answers a stamp of this leaf, before any sum of delays is known (R109). -/
theorem Leaf.exchange_first (m : TimeCell) (t3 : Nat) (l : Leaf)
    (hstamp : l.time.t3.find? (fun p => p.1 == m.fseq) = some (m.fseq, t3)) (hmode : l.hard.tmMode = false)
    (hup : m.rUp ≠ 0xFFFFFFFF) (hdn : m.rDn ≠ 0xFFFFFFFF) (hsums : l.time.sums = []) :
    l.exchange m =
      some (((m.t2 - m.t1 - 16 * m.rDn.toNat : Int) - (m.t4 - t3 - 16 * m.rUp.toNat) + m.asym.toInt) / 2,
        (m.t2 - m.t1 - 16 * m.rDn.toNat : Int) + (m.t4 - t3 - 16 * m.rUp.toNat)) := by
  have hknown : (m.rUp == 0xFFFFFFFF || m.rDn == 0xFFFFFFFF) = false := by
    rw [beq_false_of_ne hup, beq_false_of_ne hdn]
    rfl
  simp only [Leaf.exchange, hstamp, hmode, hknown, hsums, sgn_toNat]
  rfl

/-! ## A source that is lost, and HOLD -/

/-- The leaf without a sample of a source (R114). -/
def Leaf.sourceGone (reed : Bool) (l : Leaf) : Leaf :=
  if reed then { l with time := { l.time with lastTick := none } } else { l with time := { l.time with lastUp := none } }

/-- The leaf holds when it was LOCKED and no source is left (R116). -/
def Leaf.holdIfLost (l : Leaf) : Leaf :=
  if l.fld GlR.TM_STAT_SOURCE = 0 ∧ l.fld GlR.TM_STAT_STATE = svLocked then
    { l with time := { l.time with holdAt := l.time.clk } }.setFld GlR.TM_STAT_STATE svHold
  else l

theorem exec_sourceTimeout (reed : Bool) (s : State) :
    exec (.sourceTimeout reed) s = .next (s.onLeaf fun l => (l.sourceGone reed).pickSource.holdIfLost) := rfl

theorem Leaf.sourceGone_regs (reed : Bool) (l : Leaf) : (l.sourceGone reed).regs = l.regs := by
  cases reed <;> rfl

theorem Leaf.sourceGone_clk (reed : Bool) (l : Leaf) : (l.sourceGone reed).time.clk = l.time.clk := by
  cases reed <;> rfl

theorem Leaf.holdIfLost_time (l : Leaf) :
    l.holdIfLost.time.lastTick = l.time.lastTick ∧ l.holdIfLost.time.lastUp = l.time.lastUp := by
  unfold Leaf.holdIfLost
  split <;> exact ⟨rfl, rfl⟩

theorem Leaf.holdIfLost_reg_other (l : Leaf) (o : Nat) (h : o ≠ 0x1004) : l.holdIfLost.reg o = l.reg o := by
  unfold Leaf.holdIfLost
  split
  · exact Leaf.reg_setFld_other _ GlR.TM_STAT_STATE o _ h
  · rfl

theorem Leaf.holdIfLost_source (l : Leaf) : l.holdIfLost.fld GlR.TM_STAT_SOURCE = l.fld GlR.TM_STAT_SOURCE := by
  unfold Leaf.holdIfLost
  split
  · exact Leaf.fld_setFld_field _ GlR.TM_STAT_STATE GlR.TM_STAT_SOURCE _ (by decide) (by decide)
  · rfl

theorem Leaf.holdIfLost_holds (l : Leaf) (hsource : l.fld GlR.TM_STAT_SOURCE = 0) (hstate : l.fld GlR.TM_STAT_STATE = svLocked) :
    l.holdIfLost.fld GlR.TM_STAT_STATE = svHold ∧ l.holdIfLost.time.holdAt = l.time.clk := by
  rw [Leaf.holdIfLost, if_pos ⟨hsource, hstate⟩]
  exact ⟨Leaf.fld_setFld_same _ GlR.TM_STAT_STATE _ (by decide), rfl⟩

theorem Leaf.holdIfLost_stays (l : Leaf) (hsource : l.fld GlR.TM_STAT_SOURCE ≠ 0) : l.holdIfLost = l :=
  if_neg fun h => hsource h.1

theorem Leaf.pickSource_state (l : Leaf) : l.pickSource.fld GlR.TM_STAT_STATE = l.fld GlR.TM_STAT_STATE :=
  Leaf.fld_setFld_field l GlR.TM_STAT_SOURCE GlR.TM_STAT_STATE _ (by decide) (by decide)

/-- SOURCE after the loss of a sample is what R114 says of the leaf then. -/
theorem Leaf.sourceTimeout_source (reed : Bool) (l : Leaf) :
    let t := (l.sourceGone reed).pickSource.holdIfLost
    t.fld GlR.TM_STAT_SOURCE = t.sourceOf := by
  intro t
  have hreg : ∀ o, o ≠ 0x1004 → t.reg o = (l.sourceGone reed).reg o := fun o ho =>
    (Leaf.holdIfLost_reg_other _ o ho).trans (Leaf.reg_setFld_other _ GlR.TM_STAT_SOURCE o _ ho)
  obtain ⟨htick, hup⟩ := Leaf.holdIfLost_time (l.sourceGone reed).pickSource
  obtain ⟨hupUsable, hreedUsable⟩ := Leaf.usable_congr (l := l.sourceGone reed) (l' := t) hup htick
    (hreg _ (by decide)) (hreg _ (by decide))
  rw [Leaf.holdIfLost_source, Leaf.pickSource_source, Leaf.sourceOf, Leaf.sourceOf, hupUsable, hreedUsable]

theorem exec_holdExpiry (s : State) :
    exec .holdExpiry s =
      .next (s.onLeaf fun l => onlyIf (l.fld GlR.TM_STAT_STATE = svHold) (Leaf.loseLock svFree) l) := rfl

/-- A lock that is lost: the state, LOSTLOCK and LOCKRUN (R116). -/
theorem Leaf.loseLock_leaves (v : Nat) (l : Leaf) (hv : v < 8) :
    (l.loseLock v).fld GlR.TM_STAT_STATE = v ∧ (l.loseLock v).flag GlR.TM_STAT_LOSTLOCK = true ∧
      (l.loseLock v).fld GlR.TM_STAT_LOCKRUN = 0 := by
  have hrun := fun (m : Leaf) f => Leaf.fld_setFld_field m GlR.TM_STAT_LOCKRUN f 0
  have hlost := fun (m : Leaf) f => Leaf.fld_setFld_field m GlR.TM_STAT_LOSTLOCK f 1
  refine ⟨?_, ?_, Leaf.fld_setFld_same _ GlR.TM_STAT_LOCKRUN 0 (by decide)⟩
  · refine (hrun _ _ (by decide) (by decide)).trans ((Leaf.event_fld _ 300 _).trans ?_)
    refine (hlost _ _ (by decide) (by decide)).trans ((Leaf.fld_setFld_same l GlR.TM_STAT_STATE v (by decide)).trans ?_)
    exact Nat.mod_eq_of_lt hv
  · refine (Leaf.flag_of_fld ((hrun _ _ (by decide) (by decide)).trans (Leaf.event_fld _ 300 _))).trans ?_
    exact Leaf.flag_setFld_one _ GlR.TM_STAT_LOSTLOCK (by decide) (by decide)

/-! ## A phase step -/

/-- The second leaf has the first one's aligned time, interval clock, waiting phase step, pending Inklines and STEPPED. -/
structure Leaf.StepKept (l l' : Leaf) : Prop where
  ns : l'.time.ns = l.time.ns
  clk : l'.time.clk = l.time.clk
  pend : l'.time.stepPend = l.time.stepPend
  inks : l'.time.inks = l.time.inks
  stepped : l'.fld GlR.TM_STAT_STEPPED = l.fld GlR.TM_STAT_STEPPED

theorem Leaf.markBanks_keeps (P : Leaf → Prop) (m : BankMarker) (take : Nat → Leaf → Leaf) (l : Leaf)
    (htake : ∀ b x, P x → P (take b x)) (hmod : ∀ b g x, P x → P (Leaf.modFront b g x)) (h : P l) :
    P (l.markBanks m take) := by
  refine foldl_keeps P _ (fun x b hx => ?_) _ _ h
  split
  · exact htake _ _ hx
  · exact hmod _ _ _ hx

@[simp] theorem Leaf.sampleBank_time (b : Nat) (l : Leaf) : (l.sampleBank b).time = l.time := by
  simp only [Leaf.sampleBank]
  split <;> rfl

/-- The sample set of an instant touches neither time nor registers (R76). -/
theorem Leaf.sampleMark_keeps (t : Nat) (l : Leaf) :
    (l.sampleMark t).time = l.time ∧ (l.sampleMark t).regs = l.regs := by
  refine Leaf.markBanks_keeps (fun x => x.time = l.time ∧ x.regs = l.regs) _ _ _ (fun b x hx => ?_) (fun _ _ _ hx => hx)
    ⟨rfl, rfl⟩
  simpa using hx

theorem Leaf.countLock_keeps (l : Leaf) : l.StepKept l.countLock := by
  have hrun : ∀ n, (l.setFld GlR.TM_STAT_LOCKRUN n).fld GlR.TM_STAT_STEPPED = l.fld GlR.TM_STAT_STEPPED :=
    fun n => Leaf.fld_setFld_field l GlR.TM_STAT_LOCKRUN _ n (by decide) (by decide)
  unfold Leaf.countLock
  extract_lets counted
  repeat' split
  all_goals exact ⟨rfl, rfl, rfl, rfl, hrun _⟩

/-- An instant that is issued moves no time (R122). -/
theorem Leaf.issueInstant_keeps (t : Nat) (l : Leaf) : l.StepKept (l.issueInstant t) := by
  obtain ⟨htime, hregs⟩ := Leaf.sampleMark_keeps t { l with time := { l.time with lastInst := some t } }
  obtain ⟨hns, hclk, hpend, hinks, hstepped⟩ :=
    Leaf.countLock_keeps ({ l with time := { l.time with lastInst := some t } }.sampleMark t)
  rw [htime] at hns hclk hpend hinks
  rw [Leaf.fld_of_regs hregs] at hstepped
  unfold Leaf.issueInstant
  extract_lets m
  split <;> exact ⟨hns, hclk, hpend, hinks, hstepped⟩

theorem Leaf.passOne_keeps (instants : Bool) (last : Nat) (l : Leaf) (hinks : l.time.inks = []) :
    l.StepKept (l.passOne instants last) := by
  simp only [Leaf.passOne, hinks]
  split
  · exact l.issueInstant_keeps _
  · exact ⟨rfl, rfl, rfl, rfl, rfl⟩

/-- The instants that a step passes move no time, where no Inkline waits (R117). -/
theorem Leaf.passes_keep (instants : Bool) (last n : Nat) (l : Leaf) (hinks : l.time.inks = []) :
    l.StepKept (iter (Leaf.passOne instants last) n l) := by
  induction n generalizing l with
  | zero => exact ⟨rfl, rfl, rfl, rfl, rfl⟩
  | succ n ih =>
    obtain ⟨hns, hclk, hpend, hinks', hstepped⟩ := l.passOne_keeps instants last hinks
    obtain ⟨ins, iclk, ipend, iinks, istepped⟩ := ih _ (hinks'.trans hinks)
    exact ⟨ins.trans hns, iclk.trans hclk, ipend.trans hpend, iinks.trans hinks', istepped.trans hstepped⟩

/-- The leaf with its phase stepped by `th`, before the instants that the step passes (R117). -/
def Leaf.phaseMoved (th : Int) (free : Bool) (l : Leaf) : Leaf :=
  let lastI := if !(free && !l.isMaster) then some (max (l.time.lastInst.getD 0) (l.time.ns - 1)) else l.time.lastInst
  onlyIf (!free) (Leaf.setEvent GlR.TM_STAT_STEPPED 301)
    { l with time := { l.time with ns := ((l.time.ns : Int) - th).toNat, stepPend := none, lastInst := lastI } }

theorem Leaf.phaseMoved_time (th : Int) (free : Bool) (l : Leaf) :
    (l.phaseMoved th free).time.ns = ((l.time.ns : Int) - th).toNat ∧ (l.phaseMoved th free).time.stepPend = none ∧
      (l.phaseMoved th free).time.clk = l.time.clk ∧ (l.phaseMoved th free).time.inks = l.time.inks := by
  cases free <;> simp [Leaf.phaseMoved, onlyIf, Leaf.setEvent]

theorem Leaf.phaseMoved_stepped (th : Int) (l : Leaf) : (l.phaseMoved th false).flag GlR.TM_STAT_STEPPED = true :=
  (Leaf.flag_of_fld (Leaf.event_fld _ 301 _)).trans (Leaf.flag_setFld_one _ GlR.TM_STAT_STEPPED (by decide) (by decide))

theorem exec_phaseStep (s : State) : exec .phaseStep s = .next (s.onLeaf Leaf.phaseStep) := rfl

/-- A phase step that is not asked for, or that meets an open window, is not applied (R117). -/
theorem Leaf.phaseStep_waits (l : Leaf) (h : l.time.stepPend = none ∨ l.quill.win.isSome ∨ l.quill.pend ≠ []) :
    l.phaseStep = l := by
  unfold Leaf.phaseStep
  split
  · rfl
  · next hpend => exact if_pos (by simpa [hpend] using h)

/-- A phase step between windows: the time moves, then come the instants and Inklines that it passes (R117). -/
theorem Leaf.phaseStep_moves (th : Int) (free : Bool) (l : Leaf) (hpend : l.time.stepPend = some (th, free))
    (hwin : l.quill.win = none) (hnone : l.quill.pend = []) :
    ∃ instants last n, (0 ≤ th → n = 0) ∧ l.phaseStep = iter (Leaf.passOne instants last) n (l.phaseMoved th free) := by
  have hback : 0 ≤ th → ¬ l.time.ns < ((l.time.ns : Int) - th).toNat := by omega
  refine ⟨!(free && !l.isMaster), ((l.time.ns : Int) - th).toNat,
    if l.time.ns < ((l.time.ns : Int) - th).toNat then (((l.time.ns : Int) - th).toNat - l.time.ns) / l.period + 6 else 0,
    fun hth => if_neg (hback hth), ?_⟩
  simp only [Leaf.phaseStep, hpend, hwin, hnone]
  rfl

/-- A phase step leaves the time moved, nothing waiting and the rest of the time base as `phaseMoved` has it. -/
theorem Leaf.phaseStep_keeps (th : Int) (free : Bool) (l : Leaf) (hpend : l.time.stepPend = some (th, free))
    (hwin : l.quill.win = none) (hnone : l.quill.pend = []) (hfew : 0 ≤ th ∨ l.time.inks = []) :
    (l.phaseMoved th free).StepKept l.phaseStep := by
  obtain ⟨instants, last, n, hback, hstep⟩ := l.phaseStep_moves th free hpend hwin hnone
  obtain ⟨-, -, -, hinks⟩ := l.phaseMoved_time th free
  rw [hstep]
  rcases hfew with hth | hno
  · rw [hback hth]
    exact ⟨rfl, rfl, rfl, rfl, rfl⟩
  · exact Leaf.passes_keep instants last n _ (hinks.trans hno)

end Sys2Proof.Machine

namespace Sys2Proof.Claims

open Sys2Proof.Machine

theorem referenceClock : ReferenceClock := by
  intro s
  refine ⟨⟨_, exec_refclkLost s, ?lost⟩, ⟨_, exec_refclkRestored s, ?restored⟩,
    fun p data hpass => ⟨fun hlo hhi => ⟨_, exec_reffreqWrite p data s, ?taken⟩, fun hout => ?refused⟩,
    fun r => ⟨fun hruns => ⟨_, exec_fallbackCalibrate r s, ?measured⟩, fun hstill => ?unmeasured⟩⟩
  case lost =>
    obtain ⟨hpins, hlost, hlockrun, htime, hcount⟩ := Leaf.refclkLost_leaves s.leaf
    obtain ⟨watch, haround⟩ := Leaf.hbAround_eq (fun l => l.refclkStopped.alarm 2 none) s.leaf
    rw [State.onLeaf_leaf, haround]
    refine ⟨hpins, Leaf.timeRuns_of_stopped _ hpins, hlost, hlockrun, (congrArg LeafTime.ns htime :), fun hran => ?_, hcount⟩
    refine (congrArg LeafTime.lockWait htime :).trans ?_
    rw [hran, Bool.or_true]
  case restored =>
    obtain ⟨watch, haround⟩ := Leaf.hbAround_eq (fun l => { l with pins := { l.pins with refclk := true } }) s.leaf
    rw [State.onLeaf_leaf, haround]
    exact ⟨rfl, rfl, rfl⟩
  case taken =>
    obtain ⟨watch, haround⟩ := Leaf.hbAround_eq (Leaf.guarded p 0x1008 true (Leaf.khzWrite (bits data.toNat 17 0))) s.leaf
    rw [Leaf.guarded_pass _ _ _ _ _ hpass] at haround
    have hkhz := s.leaf.khzWrite_khz _ hlo hhi
    rw [State.onLeaf_leaf, haround]
    refine ⟨hkhz, s.leaf.khzWrite_nofreq _ hlo hhi, ?_, ?_⟩
    · rw [Leaf.khzWrite_taken _ _ hlo hhi]
    · refine (Leaf.timeRuns_of_khz (Leaf.khzWrite _ s.leaf) (Nat.le_trans hlo (Nat.le_of_eq hkhz.symm))
        (Nat.le_trans (Nat.le_of_eq hkhz) hhi)).trans ?_
      rw [Leaf.khzWrite_taken _ _ hlo hhi]
      rfl
  case refused =>
    rw [exec_reffreqWrite, State.onLeaf_fixed s _ (Leaf.hbAround_fixed _ _ ?_)]
    rw [Leaf.guarded_pass _ _ _ _ _ hpass, Leaf.khzWrite_refused _ _ hout]
  case measured =>
    rw [State.onLeaf_leaf, if_pos hruns]
    exact ⟨rfl, rfl⟩
  case unmeasured =>
    exact congrArg Host.Outcome.next (State.onLeaf_fixed s _ (if_neg (Bool.eq_false_iff.1 hstill)))

theorem sourcesAndServo : SourcesAndServo := by
  intro s
  refine ⟨fun m => exec_timeCellRx_discards m s,
    fun m th sum hruns hexch => ⟨_, exec_timeCellRx_accepts m th sum s hruns hexch, ?accepted⟩,
    fun m t3 hstamp hmode hup hdn hsums => s.leaf.exchange_first m t3 hstamp hmode hup hdn hsums,
    fun reed => ⟨_, exec_sourceTimeout reed s, ?gone⟩, fun hhold => ⟨_, exec_holdExpiry s, ?expired⟩,
    fun hother => ?unheld, fun hwait => ?waits, fun th free hpend hwin hnone hfew => ⟨_, exec_phaseStep s, ?stepped⟩⟩
  case accepted =>
    have hpicked := fun o ho => Leaf.reg_setFld_other (s.leaf.exchanged th sum) GlR.TM_STAT_SOURCE o
      (s.leaf.exchanged th sum).sourceOf ho
    obtain ⟨hns, hlast, htheta, hreg, hsource⟩ := Leaf.steered_onlyIf (s.leaf.exchanged th sum).pickSource.upUsable th
      (s.leaf.exchanged th sum).pickSource
    rw [State.onLeaf_leaf]
    refine ⟨?_, hlast, htheta, fun husable => ?_, hns⟩
    · have hexch := (hreg 0x1028 (by decide) (by decide) (by decide)).trans (hpicked _ (by decide))
      exact (Leaf.fld_of_reg GlR.TM_EXCH_EXCH hexch).trans (Leaf.exchanged_exch th sum s.leaf)
    · rw [hsource, Leaf.pickSource_source, Leaf.sourceOf, if_pos (s.leaf.exchanged_usable th sum husable)]
  case gone =>
    obtain ⟨htick, hup⟩ := Leaf.holdIfLost_time (s.leaf.sourceGone reed).pickSource
    have hstate := (s.leaf.sourceGone reed).pickSource_state.trans (Leaf.fld_of_regs (s.leaf.sourceGone_regs reed) _)
    rw [State.onLeaf_leaf]
    refine ⟨?_, ?_, s.leaf.sourceTimeout_source reed, fun hnone hlocked => ?_, fun hsome => ?_⟩
    · rintro rfl
      exact ⟨htick, hup⟩
    · rintro rfl
      exact ⟨hup, htick⟩
    · rw [Leaf.holdIfLost_source] at hnone
      obtain ⟨hheld, hat⟩ := Leaf.holdIfLost_holds _ hnone (hstate.trans hlocked)
      exact ⟨hheld, hat.trans (s.leaf.sourceGone_clk reed)⟩
    · rw [Leaf.holdIfLost_source] at hsome
      rw [Leaf.holdIfLost_stays _ hsome, hstate]
  case expired =>
    rw [State.onLeaf_leaf, onlyIf, if_pos (decide_eq_true hhold)]
    exact s.leaf.loseLock_leaves svFree (by decide)
  case unheld =>
    refine congrArg Host.Outcome.next (State.onLeaf_fixed s _ ?_)
    rw [onlyIf, if_neg (by simpa using hother)]
  case waits => exact congrArg Host.Outcome.next (State.onLeaf_fixed s _ (s.leaf.phaseStep_waits hwait))
  case stepped =>
    obtain ⟨hns, hclk, hgone, -, hflag⟩ := s.leaf.phaseStep_keeps th free hpend hwin hnone hfew
    obtain ⟨mns, mgone, mclk, -⟩ := s.leaf.phaseMoved_time th free
    refine ⟨hns.trans mns, hgone.trans mgone, hclk.trans mclk, ?_⟩
    rintro rfl
    exact (Leaf.flag_of_fld hflag).trans (s.leaf.phaseMoved_stepped th)

/-! ## The obligation -/

/-- Settles O21: the reference clock and its rate, the sources of the servo, HOLD and phase steps. -/
theorem leafTimeAndServo : Obligations.LeafTimeAndServo :=
  ⟨referenceClock, sourcesAndServo⟩

end Sys2Proof.Claims
end

section
/-!
PTP, time cells, pulses and stamps of Polornaz (R105, R109, R118 to R120, R127, R128): what an advisory and a stream item leave of
time, what the selection of a master leaves of the ports, and the obligation that follows (O60).
-/

namespace Sys2Proof.Machine

open Sys2Proof.Claims

/-! ## Fields of Polornaz that an update leaves as they were -/

theorem Pz.fld_of_reg {z z' : Pz} (f : Fld) (h : z'.reg f.off = z.reg f.off) : z'.fld f = z.fld f := by
  simp only [Pz.fld, h]

theorem Pz.fld_of_regs {z z' : Pz} (h : z'.regs = z.regs) (f : Fld) : z'.fld f = z.fld f :=
  Pz.fld_of_reg f (by simp only [Pz.reg, h])

/-- A field that is set to one is not zero. -/
theorem Pz.flag_setFld_one (z : Pz) (f : Fld) (hhi : f.hi < 32) (hlo : f.lo ≤ f.hi) : (z.setFld f 1).flag f = true := by
  have hone : (1 : Nat) < 2 ^ (f.hi + 1 - f.lo) := Nat.one_lt_two_pow (by omega)
  rw [Pz.flag, z.fld_setFld_same f 1 hhi, Nat.mod_eq_of_lt hone]
  rfl

theorem State.onPz_fixed (s : State) (g : Pz → Pz) (h : g s.pz = s.pz) : s.onPz g = s := by
  simp only [State.onPz, h]

theorem onlyIf_fixed {α : Type} (c : Bool) (f : α → α) (x : α) (h : f x = x) : onlyIf c f x = x := by
  cases c
  · rfl
  · exact h

@[simp] theorem Pz.emit_out (o : PzOut) (z : Pz) : (z.emit o).out = z.out ++ [o] := rfl

/-! ## Tray time moved forward -/

theorem Pz.advanceTo_now (t : Nat) (z : Pz) : (z.advanceTo t).now = max z.now t := by
  unfold Pz.advanceTo Pz.now
  split
  · next hlt => exact (Nat.max_eq_right (Nat.le_of_lt hlt)).symm
  · next hge => exact (Nat.max_eq_left (Nat.not_lt.1 hge)).symm

@[simp] theorem Pz.advanceTo_regs (t : Nat) (z : Pz) : (z.advanceTo t).regs = z.regs := by
  unfold Pz.advanceTo
  split <;> rfl

@[simp] theorem Pz.advanceTo_out (t : Nat) (z : Pz) : (z.advanceTo t).out = z.out := by
  unfold Pz.advanceTo
  split <;> rfl

@[simp] theorem Pz.advanceTo_pins (t : Nat) (z : Pz) : (z.advanceTo t).pins = z.pins := by
  unfold Pz.advanceTo
  split <;> rfl

@[simp] theorem Pz.advanceTo_fld (t : Nat) (z : Pz) (f : Fld) : (z.advanceTo t).fld f = z.fld f :=
  Pz.fld_of_regs (z.advanceTo_regs t) f

/-- Tray time moved forward leaves holdover, the queues of stamps and the pulses as they were. -/
theorem Pz.advanceTo_time (t : Nat) (z : Pz) : ∃ ns clk doms,
    (z.advanceTo t).time = { z.time with ns := ns, clk := clk, doms := doms } := by
  unfold Pz.advanceTo
  split <;> exact ⟨_, _, _, rfl⟩

/-! ## What an advisory or a stream item leaves of time -/

/-- The second Polornaz has the first one's time and its time registers (0x40000 to 0x4FFFF). -/
structure Pz.ClockKept (z z' : Pz) : Prop where
  time : z'.time = z.time
  reg : ∀ o, 0x40000 ≤ o → o < 0x50000 → z'.reg o = z.reg o

theorem Pz.ClockKept.trans {a b c : Pz} (hab : a.ClockKept b) (hbc : b.ClockKept c) : a.ClockKept c where
  time := hbc.time.trans hab.time
  reg o hlo hhi := (hbc.reg o hlo hhi).trans (hab.reg o hlo hhi)

theorem Pz.ClockKept.of_eq {z z' : Pz} (htime : z'.time = z.time) (hregs : z'.regs = z.regs) : z.ClockKept z' where
  time := htime
  reg o _ _ := by simp only [Pz.reg, hregs]

theorem Pz.ClockKept.refl (z : Pz) : z.ClockKept z := .of_eq rfl rfl

theorem Pz.ClockKept.ite {z a b : Pz} {c : Prop} [Decidable c] (ha : z.ClockKept a) (hb : z.ClockKept b) :
    z.ClockKept (if c then a else b) := by
  split
  · exact ha
  · exact hb

theorem Pz.ClockKept.fld {z z' : Pz} (h : z.ClockKept z') (f : Fld) (hlo : 0x40000 ≤ f.off) (hhi : f.off < 0x50000) :
    z'.fld f = z.fld f := Pz.fld_of_reg f (h.reg _ hlo hhi)

theorem Pz.clockKept_setFld (z : Pz) (f : Fld) (v : Nat) (h : f.off < 0x40000 ∨ 0x50000 ≤ f.off) :
    z.ClockKept (z.setFld f v) where
  time := rfl
  reg o _ _ := Pz.reg_setFld_other z f o v (by omega)

theorem Pz.clockKept_addSat (z : Pz) (f : Fld) (n : Nat) (h : f.off < 0x40000 ∨ 0x50000 ≤ f.off) :
    z.ClockKept (z.addSat f n) := z.clockKept_setFld f _ h

theorem Pz.clockKept_addMod (z : Pz) (f : Fld) (n : Nat) (h : f.off < 0x40000 ∨ 0x50000 ≤ f.off) :
    z.ClockKept (z.addMod f n) := z.clockKept_setFld f _ h

theorem Pz.clockKept_emit (o : PzOut) (z : Pz) : z.ClockKept (z.emit o) := .of_eq rfl rfl

theorem Pz.clockKept_sendUp (m : Message) (z : Pz) : z.ClockKept (z.sendUp m) := by
  have hsend : ∀ p, z.ClockKept (z.send p m) := fun p => .ite (z.clockKept_emit _) (.refl z)
  unfold Pz.sendUp
  refine .ite (.refl z) ?_
  split
  · exact hsend _
  · exact .refl z

theorem Pz.clockKept_postMsix (v : Nat) (z : Pz) : z.ClockKept (z.postMsix v) := by
  have hpba := fun n => z.clockKept_setFld PzR.MSIX_PBA_PBA n (by decide)
  exact .ite ((hpba _).trans (Pz.clockKept_emit _ _)) (hpba _)

theorem Pz.clockKept_raise (v : Nat) (z : Pz) : z.ClockKept (z.raise v) := by
  have hpost := z.clockKept_postMsix v
  exact .ite (.of_eq rfl rfl) (.ite hpost (hpost.trans (.of_eq rfl rfl)))

theorem Pz.clockKept_ringRecord (bs : List Byte) (z z' : Pz) (h : z.ringRecord bs = some z') : z.ClockKept z' := by
  unfold Pz.ringRecord at h
  extract_lets n wr u pad base filled padded w written e moved at h
  split at h
  · have hpadded : z.ClockKept padded := by
      refine .ite (.refl z) ?_
      exact .of_eq rfl rfl
    have hmoved : z.ClockKept moved := (hpadded.trans (padded.clockKept_emit _)).trans
      (written.clockKept_setFld PzR.VD_RPTR_WR _ (by decide))
    rw [← Option.some.inj h]
    refine .trans ?_ (Pz.clockKept_raise 1 _)
    exact hmoved.trans (.of_eq rfl rfl)
  · cases h

theorem Pz.clockKept_pumpRecords (fuel : Nat) (z : Pz) : z.ClockKept (Pz.pumpRecords fuel z) := by
  induction fuel generalizing z with
  | zero => exact .refl z
  | succ fuel ih =>
    unfold Pz.pumpRecords
    split
    · exact .refl z
    · split
      · exact .refl z
      · next hput =>
        refine .trans ?_ (ih _)
        exact (z.clockKept_ringRecord _ _ hput).trans (.of_eq rfl rfl)

theorem Pz.clockKept_egress (dev : Bool) (tag : BitVec 24) (bs : List Byte) (z : Pz) : z.ClockKept (z.egress dev tag bs) := by
  unfold Pz.egress
  extract_lets sent
  have hsent : z.ClockKept sent := .ite (z.clockKept_sendUp _) (.refl z)
  have hdrop := hsent.trans (sent.clockKept_addSat PzR.VD_DROP_RDROP 1 (by decide))
  refine .ite hdrop (.ite (hdrop.trans (.of_eq rfl rfl)) ?_)
  refine .trans ?_ (Pz.clockKept_pumpRecords _ _)
  exact hsent.trans (.of_eq rfl rfl)

/-- A device record or advisory touches no time (R313). -/
theorem Pz.clockKept_device (adv : Bool) (kind : Nat) (tag : BitVec 24) (subject ep model : Word) (fields : List Byte) (z : Pz) :
    z.ClockKept (z.device adv kind tag subject ep model fields) := by
  unfold Pz.device
  extract_lets mm md body head numbered
  refine .trans ?_ (Pz.clockKept_egress true tag _ _)
  exact .of_eq rfl rfl

theorem Pz.clockKept_fire (st p kind data : Nat) (late : Bool) (z : Pz) (hst : st < 64) (hp : p < 16) :
    z.ClockKept (z.fire st p kind data late) := by
  have hoff : (PzR.PG_STAT_COAL.at (slotOff st p)).off < 0x40000 := by simp only [Fld.at, slotOff]; omega
  unfold Pz.fire
  extract_lets x old q coalesced
  have hcoal : z.ClockKept coalesced := .ite (z.clockKept_addSat _ 1 (.inl hoff)) (.refl z)
  refine .ite (.refl z) ?_
  exact hcoal.trans (.of_eq rfl rfl)

theorem Pz.clockKept_offerItem (st p s : Nat) (b : Bind) (bytes : List Byte) (z : Pz) (hst : st < 64) (hp : p < 16) :
    z.ClockKept (z.offerItem st p s b bytes) := by
  have hoff : (PzR.PG_DROP_COUNT.at (slotOff st p)).off < 0x40000 := by simp only [Fld.at, slotOff]; omega
  refine .ite (z.clockKept_addMod _ 1 (.inl hoff)) ?_
  unfold Pz.putItem
  extract_lets put x
  have hput : z.ClockKept put := .of_eq rfl rfl
  split
  · exact hput
  · exact .ite (hput.trans (put.clockKept_fire st p 0 0 false hst hp)) hput

/-- The items of an edge touch no time (R260). -/
theorem Pz.clockKept_toTin (n : Nat) (bytes : List Byte) (z : Pz) : z.ClockKept (z.toTin n bytes) := by
  refine List.foldlRecOn _ _ (.refl z) fun zs hzs st hst => ?_
  refine List.foldlRecOn _ _ hzs fun zp hzp p hp => ?_
  split
  · exact hzp
  · refine List.foldlRecOn _ _ hzp fun zq hzq q _ => ?_
    split
    · exact .ite (hzq.trans (zq.clockKept_offerItem st p q _ bytes (List.mem_range.1 hst) (List.mem_range.1 hp))) hzq
    · exact hzq

/-! ## The flags of tray time -/

/-- The flags of `PZ_TM_STAT` set for a TIME event (R120). -/
def Pz.marked (k : Nat) (z : Pz) : Pz :=
  (((z.setFld PzR.TM_STAT_HOLDOVER (b2n (k == 1))).setFld PzR.TM_STAT_OUT_OF_SPEC (b2n (decide (2 ≤ k)))).setFld
    PzR.TM_STAT_UNTIMED (b2n (k == 3))).setFld PzR.TM_STAT_SLEWING
      (b2n (z.time.begun && z.time.hoAt.isNone && decide (10 ≤ z.apart)))

/-- The flags follow the TIME event; an advisory that tells it changes the event told and nothing else of time. -/
theorem Pz.timeFlags_keeps (z : Pz) :
    (∃ told, z.timeFlags.time = { z.time with told := told }) ∧
    ∀ f : Fld, 0x40000 ≤ f.off → f.off < 0x50000 → z.timeFlags.fld f = (z.marked z.timeLevel).fld f := by
  have htell := fun adv (m : Pz) => (m.clockKept_device true 0xD0 0 0 m.ctl.epoch 0 adv).trans (Pz.clockKept_raise 3 _)
  unfold Pz.timeFlags
  extract_lets k m event time m'
  split
  · exact ⟨⟨z.time.told, rfl⟩, fun _ _ _ => rfl⟩
  · exact ⟨⟨k, (htell _ m').time⟩, fun f hlo hhi => (htell _ m').fld f hlo hhi⟩

theorem Pz.marked_outOfSpec (k : Nat) (z : Pz) (hk : 2 ≤ k) : (z.marked k).flag PzR.TM_STAT_OUT_OF_SPEC = true := by
  rw [Pz.flag, Pz.marked, Pz.fld_setFld_field _ _ _ _ (by decide) (by decide), Pz.fld_setFld_field _ _ _ _ (by decide) (by decide),
    decide_eq_true hk]
  exact Pz.flag_setFld_one _ PzR.TM_STAT_OUT_OF_SPEC (by decide) (by decide)

theorem Pz.marked_untimed (z : Pz) : (z.marked 3).flag PzR.TM_STAT_UNTIMED = true := by
  rw [Pz.flag, Pz.marked, Pz.fld_setFld_field _ _ _ _ (by decide) (by decide)]
  exact Pz.flag_setFld_one _ PzR.TM_STAT_UNTIMED (by decide) (by decide)

theorem Pz.timeFlags_now (z : Pz) : z.timeFlags.now = z.now := by
  obtain ⟨⟨told, htime⟩, -⟩ := z.timeFlags_keeps
  exact (congrArg PzTime.ns htime :)

@[simp] theorem Pz.timeFlags_ports (z : Pz) : z.timeFlags.time.ports = z.time.ports := by
  obtain ⟨⟨told, htime⟩, -⟩ := z.timeFlags_keeps
  exact (congrArg PzTime.ports htime :)

@[simp] theorem Pz.timeFlags_doms (z : Pz) : z.timeFlags.time.doms = z.time.doms := by
  obtain ⟨⟨told, htime⟩, -⟩ := z.timeFlags_keeps
  exact (congrArg PzTime.doms htime :)

theorem Pz.timeFlags_outOfSpec (z : Pz) (h : 2 ≤ z.timeLevel) : z.timeFlags.flag PzR.TM_STAT_OUT_OF_SPEC = true := by
  obtain ⟨-, hfld⟩ := z.timeFlags_keeps
  rw [Pz.flag, hfld _ (by decide) (by decide)]
  exact z.marked_outOfSpec _ h

theorem Pz.timeFlags_untimed (z : Pz) (h : z.timeLevel = 3) : z.timeFlags.flag PzR.TM_STAT_UNTIMED = true := by
  obtain ⟨-, hfld⟩ := z.timeFlags_keeps
  rw [Pz.flag, hfld _ (by decide) (by decide), h]
  exact z.marked_untimed

/-! ## Holdover -/

theorem Pz.hoPpb_pos (z : Pz) : 0 < z.hoPpb := by
  simp only [Pz.hoPpb]
  split
  · decide
  · split <;> omega

/-- In holdover the TIME event follows the estimate alone (R120). -/
theorem Pz.timeLevel_holdover (z : Pz) (at_ : Nat) (hat : z.time.hoAt = some at_) (hbegun : z.time.begun = true) :
    z.timeLevel = if 500 * 1000000000 < z.hoPpb * (z.now - at_) then 3
      else if 100 * 1000000000 < z.hoPpb * (z.now - at_) then 2 else 1 := by
  simp [Pz.timeLevel, hat, hbegun]

/-- The moment at which the estimate has passed `n` ns (R120). -/
def Pz.hoPasses (n at_ : Nat) (z : Pz) : Pz := z.advanceTo (at_ + n * 1000000000 / z.hoPpb + 1)

theorem Pz.hoPasses_level (n at_ : Nat) (z : Pz) (hat : z.time.hoAt = some at_) (hbegun : z.time.begun = true) :
    (z.hoPasses n at_).timeLevel = if 500 * 1000000000 < z.hoPpb * ((z.hoPasses n at_).now - at_) then 3
      else if 100 * 1000000000 < z.hoPpb * ((z.hoPasses n at_).now - at_) then 2 else 1 := by
  obtain ⟨ns, clk, doms, htime⟩ := z.advanceTo_time (at_ + n * 1000000000 / z.hoPpb + 1)
  have hppb : (z.hoPasses n at_).hoPpb = z.hoPpb := by simp [Pz.hoPpb, Pz.hoPasses]
  rw [← hppb]
  exact Pz.timeLevel_holdover _ _ ((congrArg PzTime.hoAt htime).trans hat) ((congrArg PzTime.begun htime).trans hbegun)

/-- By then the estimate is above `n` ns. -/
theorem Pz.hoPasses_above (n at_ : Nat) (z : Pz) : n * 1000000000 < z.hoPpb * ((z.hoPasses n at_).now - at_) := by
  have hnow : (z.hoPasses n at_).now = max z.now (at_ + n * 1000000000 / z.hoPpb + 1) := z.advanceTo_now _
  calc n * 1000000000 < z.hoPpb * (n * 1000000000 / z.hoPpb + 1) := Nat.lt_mul_div_succ _ z.hoPpb_pos
    _ ≤ z.hoPpb * ((z.hoPasses n at_).now - at_) := Nat.mul_le_mul_left _ (by omega)

theorem Pz.now_le_hoPasses (n at_ : Nat) (z : Pz) : z.now ≤ (z.hoPasses n at_).timeFlags.now := by
  rw [Pz.timeFlags_now, Pz.hoPasses, Pz.advanceTo_now]
  exact Nat.le_max_left _ _

theorem exec_holdoverThreshold (s : State) : exec .holdoverThreshold s = .next (s.onPz Pz.holdoverNext) := rfl

theorem Pz.holdoverNext_none (z : Pz) (h : z.time.hoAt = none) : z.holdoverNext = z := by
  simp only [Pz.holdoverNext, h]

/-- Below UNTIMED, tray time comes to where the next bound is passed (R120). -/
theorem Pz.holdoverNext_passes (z : Pz) (at_ : Nat) (hat : z.time.hoAt = some at_) (hbegun : z.time.begun = true)
    (h : z.timeLevel ≠ 3) :
    z.holdoverNext = (z.hoPasses (if z.timeLevel = 2 then 500 else 100) at_).timeFlags := by
  have hgoes : ¬ (z.timeLevel = 3 ∨ (!z.time.begun) = true) := by simp [h, hbegun]
  simp only [Pz.holdoverNext, hat, if_neg hgoes, Pz.hoPasses]

/-! ## PTP ports -/

theorem Pz.ptp_setPtp_same (port : Nat) (dom : Bool) (f : PtpPort → PtpPort) (z : Pz) :
    (z.setPtp port dom f).ptp port dom = f (z.ptp port dom) := tget_tmod_same _ _ _

/-- A change of a port that leaves what it hears. -/
theorem Pz.heard_setPtp (port : Nat) (dom : Bool) (f : PtpPort → PtpPort) (z : Pz) (hf : ∀ x, (f x).heard = x.heard)
    (q : Nat) (e : Bool) : ((z.setPtp port dom f).ptp q e).heard = (z.ptp q e).heard := by
  by_cases hkey : ptpKey q e = ptpKey port dom
  · simp only [Pz.ptp, hkey]
    exact (congrArg PtpPort.heard (tget_tmod_same _ _ _)).trans (hf _)
  · exact congrArg PtpPort.heard (tget_tput_other _ _ _ _ hkey)

theorem Pz.heard_ptpTurn (port : Nat) (dom : Bool) (st : PtpState) (z : Pz) (q : Nat) (e : Bool) :
    ((z.ptpTurn port dom st).ptp q e).heard = (z.ptp q e).heard := by
  refine z.heard_setPtp port dom _ (fun x => ?_) q e
  split <;> rfl

@[simp] theorem Pz.adopt_ports (stepped : Bool) (z : Pz) : (z.adopt stepped).time.ports = z.time.ports := by
  simp only [Pz.adopt]
  repeat' split
  all_goals rfl

@[simp] theorem Pz.adopt_doms (stepped : Bool) (z : Pz) : (z.adopt stepped).time.doms = z.time.doms := by
  simp only [Pz.adopt]
  repeat' split
  all_goals rfl

@[simp] theorem Pz.servoHold_ports (dom : Bool) (z : Pz) : (z.servoHold dom).time.ports = z.time.ports := by
  simp only [Pz.servoHold]
  split <;> rfl

/-- The selection follows the ports and does not change them (R118). -/
theorem Pz.follow_ports (z : Pz) : z.follow.time.ports = z.time.ports := by
  simp only [Pz.follow, Pz.timeFlags_ports, Pz.adopt_ports]
  split <;> simp

/-- The BMCA changes states of ports, not what they hear (R118). -/
theorem Pz.heard_bmca (dom : Bool) (z : Pz) (q : Nat) (e : Bool) : ((z.bmca dom).ptp q e).heard = (z.ptp q e).heard := by
  have hfollow : ∀ m : Pz, (m.follow.ptp q e).heard = (m.ptp q e).heard := fun m => by simp only [Pz.ptp, m.follow_ports]
  rw [Pz.bmca, hfollow, Pz.heard_ptpTurn, Pz.heard_ptpTurn]

/-! ## PTP messages sent -/

theorem exec_ptpSyncSend (p : BitVec 5) (dom : Bool) (t1 : Nat) (s : State) :
    exec (.ptpSyncSend p dom t1) s = .next (s.onPz (onlyIf (decide (p.toNat < 18)) (Pz.syncSend p.toNat dom t1))) := rfl

theorem exec_ptpAnnounceSend (p : BitVec 5) (dom : Bool) (s : State) :
    exec (.ptpAnnounceSend p dom) s = .next (s.onPz (onlyIf (decide (p.toNat < 18)) (Pz.announceSend p.toNat dom))) := rfl

theorem exec_ptpDelayReqRx (p : BitVec 5) (dom : Bool) (seq : BitVec 16) (src : DWord) (t4 : Nat) (s : State) :
    exec (.ptpDelayReqRx p dom seq src t4) s =
      .next (s.onPz fun z => onlyIf (decide (p.toNat < 18 ∧ z.ptpState p.toNat dom = .master))
        (Pz.emit (.ptp p.toNat dom (.delayResp seq src t4))) z) := rfl

theorem exec_ptpDelayReqSend (u dom : Bool) (t3 : Nat) (s : State) :
    exec (.ptpDelayReqSend u dom t3) s = .next (s.onPz (Pz.delayReq (upNo u) dom t3)) := rfl

theorem Pz.syncSend_master (port : Nat) (dom : Bool) (t1 : Nat) (z : Pz) (h : z.ptpState port dom = .master) :
    z.syncSend port dom t1 = (z.setPtp port dom (fun x => { x with seq := x.seq + 1 })).emit
      (.ptp port dom (.sync (z.ptp port dom).seq t1)) :=
  if_neg fun hother => hother h

theorem Pz.syncSend_other (port : Nat) (dom : Bool) (t1 : Nat) (z : Pz) (h : z.ptpState port dom ≠ .master) :
    z.syncSend port dom t1 = z := if_pos h

/-- What a master port announces (R118): the grandmaster heard, one step further, or this clock. -/
def Pz.announced (port : Nat) (dom : Bool) (z : Pz) : Announce :=
  let own := { z.ownClock with port := BitVec.ofNat 16 (port + 1) }
  match z.bestHeard dom with
  | some (e, _) => if z.hasSlave dom then { e with steps := e.steps + 1, sender := own.sender, port := own.port } else own
  | none => own

theorem Pz.announceSend_master (port : Nat) (dom : Bool) (z : Pz) (h : z.ptpState port dom = .master) :
    z.announceSend port dom = (z.setPtp port dom (fun x => { x with aseq := x.aseq + 1 })).emit
      (.ptp port dom (.announce (z.announced port dom) (z.ptp port dom).aseq)) :=
  if_neg fun hother => hother h

theorem Pz.announceSend_other (port : Nat) (dom : Bool) (z : Pz) (h : z.ptpState port dom ≠ .master) :
    z.announceSend port dom = z := if_pos h

theorem Pz.announced_sender (port : Nat) (dom : Bool) (z : Pz) :
    (z.announced port dom).sender = z.clockId ∧ (z.announced port dom).port = BitVec.ofNat 16 (port + 1) := by
  simp only [Pz.announced]
  repeat' split
  all_goals exact ⟨rfl, rfl⟩

theorem Pz.announced_own (port : Nat) (dom : Bool) (z : Pz) (h : z.hasSlave dom = false) :
    (z.announced port dom).gm = z.clockId ∧ (z.announced port dom).steps = 0 := by
  simp only [Pz.announced, h]
  split <;> exact ⟨rfl, rfl⟩

theorem Pz.announced_heard (port : Nat) (dom : Bool) (z : Pz) (e : Announce) (q : Nat) (hbest : z.bestHeard dom = some (e, q))
    (hslave : z.hasSlave dom = true) :
    (z.announced port dom).gm = e.gm ∧ (z.announced port dom).steps = e.steps + 1 := by
  simp only [Pz.announced, hbest, hslave]
  exact ⟨rfl, rfl⟩

theorem Pz.delayReq_slave (port : Nat) (dom : Bool) (t3 : Nat) (z : Pz) (h : z.ptpState port dom = .slave) :
    z.delayReq port dom t3 = (z.setPtp port dom (fun x =>
      { x with dseq := x.dseq + 1, dreq := some ((z.ptp port dom).dseq, (t3 : Int)) })).emit
        (.ptp port dom (.delayReq (z.ptp port dom).dseq)) :=
  if_neg fun hother => hother h

theorem Pz.delayReq_other (port : Nat) (dom : Bool) (t3 : Nat) (z : Pz) (h : z.ptpState port dom ≠ .slave) :
    z.delayReq port dom t3 = z := if_pos h

/-! ## PTP messages received -/

theorem exec_ptpSyncRx (u dom : Bool) (seq : BitVec 16) (origin : Option Nat) (corr : Int) (t2 : Nat) (s : State) :
    exec (.ptpSyncRx u dom seq origin corr t2) s = .next (s.onPz (Pz.syncRx (upNo u) dom seq origin corr t2)) := rfl

theorem exec_ptpFollowUpRx (u dom : Bool) (seq : BitVec 16) (origin : Nat) (corr : Int) (s : State) :
    exec (.ptpFollowUpRx u dom seq origin corr) s = .next (s.onPz (Pz.followUp (upNo u) dom seq origin corr)) := rfl

theorem exec_ptpDelayRespRx (u dom : Bool) (seq : BitVec 16) (received : Nat) (corr : Int) (s : State) :
    exec (.ptpDelayRespRx u dom seq received corr) s = .next (s.onPz (Pz.delayResp (upNo u) dom seq received corr)) := rfl

theorem exec_ptpAnnounceRx (u dom : Bool) (a : Announce) (s : State) :
    exec (.ptpAnnounceRx u dom a) s = .next (s.onPz (Pz.announceRx (upNo u) dom a)) := rfl

theorem exec_ptpAnnounceTimeout (u dom : Bool) (s : State) :
    exec (.ptpAnnounceTimeout u dom) s = .next (s.onPz (Pz.announceTimeout (upNo u) dom)) := rfl

/-- The servo of a domain steps its phase from FREE or beyond 1000 ns, else its rate follows (R118, R425). -/
theorem Servo.sample_after (th : Int) (v : Servo) : ServoAfter v (v.sample th).2 th := by
  have hacquire : (BitVec.ofNat 3 svAcquire).toNat = svAcquire := rfl
  unfold Servo.sample
  split
  · next hfree => exact ⟨fun _ => ⟨rfl, hacquire, rfl⟩, fun hlocked => absurd hfree hlocked⟩
  · next hfree =>
    split
    · exact ⟨fun _ => ⟨rfl, hacquire, rfl⟩, by omega⟩
    · next hsmall =>
      have hruns : ¬ (v.st.toNat = svFree ∨ 1000 < th ∨ th < -1000) := not_or.2 ⟨hfree, hsmall⟩
      exact ⟨fun hsteps => absurd hsteps hruns, fun _ _ _ => ⟨rfl, rfl, rfl⟩⟩

/-- An offset sample goes to the servo of its domain, and leaves the ports (R118). -/
theorem Pz.domSample_leaves (dom : Bool) (th16 : Int) (z : Pz) :
    (z.domSample dom th16).servo (b2n dom) = ((z.servo (b2n dom)).sample (th16 / 16)).2 ∧
      (z.domSample dom th16).time.ports = z.time.ports := by
  simp only [Pz.domSample, Pz.servo, Pz.timeFlags_doms, Pz.timeFlags_ports, Pz.adopt_doms, Pz.adopt_ports]
  exact ⟨tget_tmod_same _ _ _, trivial⟩

/-- A complete Sync: the servo of the domain takes the offset, and the port keeps t2 - t1 (R105, R118). -/
theorem Pz.syncDone_leaves (u dom : Bool) (down : Int) (z : Pz) :
    ServoAfter (z.servo (b2n dom)) ((z.syncDone (upNo u) dom down).servo (b2n dom))
      ((down - (z.ptp (upNo u) dom).mpd - sgn 32 (z.reg (0x40140 + 4 * b2n u)).toNat) / 16) ∧
    ((z.syncDone (upNo u) dom down).ptp (upNo u) dom).down = some down ∧
    ((z.syncDone (upNo u) dom down).ptp (upNo u) dom).sync = none := by
  have hu : upNo u - 16 = b2n u := Nat.add_sub_cancel_left ..
  obtain ⟨hservo, hports⟩ := Pz.domSample_leaves dom
    (down - (z.ptp (upNo u) dom).mpd - sgn 32 (z.reg (0x40140 + 4 * (upNo u - 16))).toNat)
    (z.setPtp (upNo u) dom (fun x => { x with sync := none, down := some down }))
  have hport : (z.syncDone (upNo u) dom down).ptp (upNo u) dom = { z.ptp (upNo u) dom with sync := none, down := some down } :=
    (congrArg (fun t => tget t (ptpKey (upNo u) dom)) hports).trans (Pz.ptp_setPtp_same ..)
  rw [hport, ← hu, Pz.syncDone, hservo]
  exact ⟨Servo.sample_after _ _, rfl, rfl⟩

theorem Pz.syncRx_other (port : Nat) (dom : Bool) (seq : BitVec 16) (origin : Option Nat) (corr : Int) (t2 : Nat) (z : Pz)
    (h : z.ptpState port dom ≠ .slave) : z.syncRx port dom seq origin corr t2 = z := if_pos h

theorem Pz.syncRx_oneStep (port : Nat) (dom : Bool) (seq : BitVec 16) (t1 : Nat) (corr : Int) (t2 : Nat) (z : Pz)
    (h : z.ptpState port dom = .slave) :
    z.syncRx port dom seq (some t1) corr t2 = z.syncDone port dom ((t2 : Int) - t1 - corr) := if_neg fun hother => hother h

theorem Pz.syncRx_twoStep (port : Nat) (dom : Bool) (seq : BitVec 16) (corr : Int) (t2 : Nat) (z : Pz)
    (h : z.ptpState port dom = .slave) :
    z.syncRx port dom seq none corr t2 = z.setPtp port dom (fun x => { x with sync := some (seq, t2, corr) }) :=
  if_neg fun hother => hother h

theorem Pz.followUp_completes (port : Nat) (dom : Bool) (seq : BitVec 16) (origin : Nat) (corr t2 c : Int) (z : Pz)
    (hsync : (z.ptp port dom).sync = some (seq, t2, c)) (h : z.ptpState port dom = .slave) :
    z.followUp port dom seq origin corr = z.syncDone port dom (t2 - origin - c - corr) := by
  simp only [Pz.followUp, hsync, h, and_self, if_true]

theorem Pz.followUp_none (port : Nat) (dom : Bool) (seq : BitVec 16) (origin : Nat) (corr : Int) (z : Pz)
    (hsync : (z.ptp port dom).sync = none) : z.followUp port dom seq origin corr = z := by
  simp only [Pz.followUp, hsync]

/-- A Follow_Up of another Sync completes nothing. -/
theorem Pz.followUp_otherSync (port : Nat) (dom : Bool) (seq q : BitVec 16) (origin : Nat) (corr t2 c : Int) (z : Pz)
    (hsync : (z.ptp port dom).sync = some (q, t2, c)) (hq : q ≠ seq) : z.followUp port dom seq origin corr = z := by
  simp only [Pz.followUp, hsync, hq, false_and, if_false]

theorem Pz.delayResp_measures (port : Nat) (dom : Bool) (seq : BitVec 16) (received : Nat) (corr t3 d : Int) (z : Pz)
    (hreq : (z.ptp port dom).dreq = some (seq, t3)) (hdown : (z.ptp port dom).down = some d)
    (h : z.ptpState port dom = .slave) :
    z.delayResp port dom seq received corr =
      z.setPtp port dom (fun x => { x with dreq := none, mpd := (d + ((received : Int) - corr - t3)) / 2 }) := by
  simp only [Pz.delayResp, hreq, hdown, h, and_self, if_true]

theorem Pz.delayResp_unasked (port : Nat) (dom : Bool) (seq : BitVec 16) (received : Nat) (corr : Int) (z : Pz)
    (hreq : (z.ptp port dom).dreq = none) : z.delayResp port dom seq received corr = z := by
  simp only [Pz.delayResp, hreq]

theorem Pz.announceRx_ignored (port : Nat) (dom : Bool) (a : Announce) (z : Pz)
    (h : z.linkUp port = false ∨ a.sender = z.clockId ∨ 255 ≤ a.steps.toNat) : z.announceRx port dom a = z :=
  if_pos (h.imp_left fun hdown => by simp [hdown])

/-- A port that heard no master hears the one that announces itself (R118). -/
theorem Pz.announceRx_first (port : Nat) (dom : Bool) (a : Announce) (z : Pz) (hlink : z.linkUp port = true)
    (hother : a.sender ≠ z.clockId) (hsteps : a.steps.toNat < 255) (hnone : (z.ptp port dom).heard = none) :
    z.announceRx port dom a = (z.setPtp port dom (fun x => { x with heard := some a })).bmca dom := by
  have hheeds : ¬ (!z.linkUp port ∨ a.sender = z.clockId ∨ 255 ≤ a.steps.toNat) := by simp [hlink, hother, hsteps]
  simp only [Pz.announceRx, if_neg hheeds, hnone, if_true]

theorem Pz.announceTimeout_down (port : Nat) (dom : Bool) (z : Pz) (h : z.linkUp port = false) :
    z.announceTimeout port dom = z := by
  simp [Pz.announceTimeout, h]

theorem Pz.announceTimeout_forgets (port : Nat) (dom : Bool) (z : Pz) (h : z.linkUp port = true) :
    z.announceTimeout port dom = (z.setPtp port dom (fun x => { x with
      heard := none, st := if x.st = .listening then .master else x.st })).bmca dom := by
  simp [Pz.announceTimeout, h]

/-! ## Time cells and pulses -/

theorem exec_timeCellSend (fleet : Word) (t1 : Nat) (s : State) :
    exec (.timeCellSend fleet t1) s = .next (s.onPz (Pz.timeCellSend fleet t1)) := rfl

theorem Pz.timeCellSend_sends (fleet : Word) (t1 : Nat) (z : Pz) (r : Route) (hroute : z.route fleet = some r) (hrole : z.role = 0)
    (hlink : z.linkUp r.port.toNat = true) :
    z.timeCellSend fleet t1 = (z.advanceTo (t1 / 16)).emit
      (.timeCell r.port.toNat fleet t1 r.t4 (z.reg (0x40100 + 4 * r.port.toNat))) := by
  simp only [Pz.timeCellSend, hroute, hrole, hlink, and_self, if_true]

theorem Pz.timeCellSend_silent (fleet : Word) (t1 : Nat) (z : Pz) (h : z.route fleet = none ∨ z.role ≠ 0) :
    z.timeCellSend fleet t1 = z := by
  unfold Pz.timeCellSend
  split
  · rfl
  · next hroute =>
    have hrole : z.role ≠ 0 := h.resolve_left (by rw [hroute]; exact Option.some_ne_none _)
    exact if_neg fun hsends => hrole hsends.1

theorem exec_toutPulse (n : BitVec 2) (s : State) : exec (.toutPulse n) s = .next (s.onPz (Pz.toutPulse n.toNat)) := rfl

theorem Pz.toutPulse_silent (n : Nat) (z : Pz) (h : z.step < 3 ∨ z.nextPulse n = none) : z.toutPulse n = z := by
  unfold Pz.toutPulse
  split
  · rfl
  · next hup => simp only [h.resolve_left hup]

/-- Polornaz with tray time come to a pulse that is noted as the last of its output (R127). -/
def Pz.pulsed (n wait at_ : Nat) (z : Pz) : Pz :=
  let z := z.advanceTo (z.now + wait)
  { z with time := { z.time with pulses := tblIns z.time.pulses n at_ } }

theorem Pz.pulsed_now (n wait at_ : Nat) (z : Pz) : (z.pulsed n wait at_).now = z.now + wait :=
  (z.advanceTo_now _).trans (Nat.max_eq_right (Nat.le_add_right _ _))

theorem Pz.toutPulse_leaves (n wait at_ : Nat) (z : Pz) (hup : 3 ≤ z.step) (hnext : z.nextPulse n = some (wait, at_)) :
    z.toutPulse n = (z.pulsed n wait at_).emit
      (.pulse n (8 * max 1 (z.fld (PzR.TOUT_CFG_WIDTH.at (16 * n)))) (z.now + wait)) := by
  rw [← z.pulsed_now n wait at_, ← z.advanceTo_fld (z.now + wait)]
  simp only [Pz.toutPulse, if_neg (Nat.not_lt.2 hup), hnext]
  rfl

/-- An access of the secure world to a register that a row names has the row's effect. -/
theorem Pz.guarded_admitted (s : State) (p : Port) (off : Nat) (f : Pz → Pz) (h : Admitted s p off) :
    s.pz.guarded p (viewAddr p off) f = f s.pz := Pz.guarded_pass p _ f s.pz h.1 h.2

theorem exec_toutOneshotWrite (n : BitVec 2) (high : Bool) (p : Port) (data : Word) (s : State)
    (h : Admitted s p (0x40204 + 16 * n.toNat + 4 * b2n high)) :
    exec (.toutOneshotWrite n high p data) s = .next (s.onPz (Pz.oneshotWrite n.toNat high data)) := by
  have hexec : exec (.toutOneshotWrite n high p data) s = execToutOneshotWrite n high p data s := rfl
  rw [hexec, execToutOneshotWrite, State.onPz, Pz.guarded_admitted s p _ _ h]
  rfl

/-- A word of a ONESHOT time is written; a whole time already past is MISSED (R127). -/
theorem Pz.oneshotWrite_leaves (n : Nat) (high : Bool) (data : Word) (z : Pz) :
    (z.oneshotWrite n high data).reg (0x40204 + 16 * n + 4 * b2n high) = data ∧
    (high = true → (z.oneshotWrite n high data).oneshot n < z.now →
      (z.oneshotWrite n high data).flag (PzR.TOUT_CFG_MISSED.at (16 * n)) = true) ∧
    (z.oneshotWrite n high data).time = z.time := by
  unfold Pz.oneshotWrite
  extract_lets w
  have hword : w.reg (0x40204 + 16 * n + 4 * b2n high) = data := z.reg_setReg_same _ data
  have hhi : PzR.TOUT_CFG_MISSED.hi < 32 := by decide
  have hlo : PzR.TOUT_CFG_MISSED.lo ≤ PzR.TOUT_CFG_MISSED.hi := by decide
  have hmissed := fun o ho => Pz.reg_setFld_other w (PzR.TOUT_CFG_MISSED.at (16 * n)) o 1 ho
  split
  · refine ⟨(hmissed _ ?_).trans hword, fun _ _ => ?_, rfl⟩
    · simp only [Fld.at]
      omega
    · exact w.flag_setFld_one (PzR.TOUT_CFG_MISSED.at (16 * n)) hhi hlo
  · next hahead =>
    refine ⟨hword, fun hhigh hpast => absurd ?_ hahead, rfl⟩
    rw [hhigh, Bool.true_and]
    exact decide_eq_true hpast

/-! ## Stamps -/

theorem exec_triggerInputEdge (n : BitVec 2) (rising : Bool) (at_ : Nat) (s : State) :
    exec (.triggerInputEdge n rising at_) s = .next (s.onPz (Pz.tinEdge n.toNat rising at_)) := rfl

/-- Whether an input selects edges of a kind (Table 5.20). -/
def Pz.edgeChosen (n : Nat) (rising : Bool) (z : Pz) : Bool :=
  bit (z.fld (PzR.TIN_CFG_EDGE.at (16 * n))) (if rising then 0 else 1)

/-- Whether an edge comes less than 16 ns after the last of its input. -/
def Pz.edgeNear (n at_ : Nat) (z : Pz) : Bool :=
  match tblLookup z.time.tinAt n with
  | some t => decide (at_ < t + 16)
  | none => false

/-- Polornaz come to an edge that counts (R128). -/
def Pz.edgeAt (n at_ : Nat) (z : Pz) : Pz :=
  let z := z.advanceTo at_
  { z with time := { z.time with tinAt := tblIns z.time.tinAt n at_ } }

theorem Pz.edgeAt_fld (n at_ : Nat) (z : Pz) (f : Fld) : (z.edgeAt n at_).fld f = z.fld f := z.advanceTo_fld at_ f

theorem Pz.edgeAt_time (n at_ : Nat) (z : Pz) :
    (z.edgeAt n at_).time.tin = z.time.tin ∧ (z.edgeAt n at_).time.tinLost = z.time.tinLost := by
  obtain ⟨ns, clk, doms, htime⟩ := z.advanceTo_time at_
  exact ⟨(congrArg PzTime.tin htime :), (congrArg PzTime.tinLost htime :)⟩

/-- An edge that finds its queue full: counted as dropped (R128). -/
def Pz.edgeDropped (n : Nat) (z : Pz) : Pz :=
  ({ z with time := { z.time with tinLost := tput z.time.tinLost n (tget z.time.tinLost n + 1) } }).addSat
    (PzR.TIN_CFG_DROPS.at (16 * n)) 1

/-- An edge whose stamp enters its queue and the streams bound to the input (R128, R260). -/
def Pz.edgeStamped (n : Nat) (rising : Bool) (at_ : Nat) (z : Pz) : Pz :=
  let d := tget z.time.tinLost n
  let z' := { z with time := { z.time with tinLost := tput z.time.tinLost n 0 } }
  (z'.setTin n (tget z.time.tin n ++ [(at_, rising, d)])).toTin n (tinItem at_ rising d)

/-- An edge by its cases: none, dropped, or stamped (R128). -/
theorem Pz.tinEdge_eq (n : Nat) (rising : Bool) (at_ : Nat) (z : Pz) :
    z.tinEdge n rising at_ = if z.step < 3 ∨ !z.edgeChosen n rising ∨ z.edgeNear n at_ then z
      else if 64 ≤ (tget (z.edgeAt n at_).time.tin n).length then (z.edgeAt n at_).edgeDropped n
      else (z.edgeAt n at_).edgeStamped n rising at_ := rfl

/-- An edge before power-up, or of a kind not selected, is none (R128). -/
theorem Pz.tinEdge_unseen (n : Nat) (rising : Bool) (at_ : Nat) (z : Pz) (h : z.step < 3 ∨ z.edgeChosen n rising = false) :
    z.tinEdge n rising at_ = z := by
  rw [Pz.tinEdge_eq, if_pos (h.imp_right fun hkind => .inl (by rw [hkind]; rfl))]

/-- An edge less than 16 ns after the last is none (R128). -/
theorem Pz.tinEdge_early (n : Nat) (rising : Bool) (at_ last : Nat) (z : Pz) (hlast : tblLookup z.time.tinAt n = some last)
    (hgap : at_ < last + 16) : z.tinEdge n rising at_ = z := by
  have hnear : z.edgeNear n at_ = true := by simp only [Pz.edgeNear, hlast, hgap, decide_true]
  rw [Pz.tinEdge_eq, if_pos (.inr (.inr hnear))]

/-- An edge of a kind selected, 16 ns or more after the last: stamped, or dropped with 64 stamps queued (R128). -/
theorem Pz.tinEdge_counts (n : Nat) (rising : Bool) (at_ : Nat) (z : Pz) (hup : 3 ≤ z.step) (hkind : z.edgeChosen n rising = true)
    (hgap : ∀ last, tblLookup z.time.tinAt n = some last → last + 16 ≤ at_) :
    z.tinEdge n rising at_ = if 64 ≤ (tget z.time.tin n).length then (z.edgeAt n at_).edgeDropped n
      else (z.edgeAt n at_).edgeStamped n rising at_ := by
  have hfar : z.edgeNear n at_ = false := by
    unfold Pz.edgeNear
    split
    · next last hlast => exact decide_eq_false (Nat.not_lt.2 (hgap last hlast))
    · rfl
  rw [Pz.tinEdge_eq, if_neg (by simp [hup, hkind, hfar]), (z.edgeAt_time n at_).1]

theorem Pz.edgeDropped_leaves (n : Nat) (z : Pz) :
    tget (z.edgeDropped n).time.tin n = tget z.time.tin n ∧
      (z.edgeDropped n).fld (PzR.TIN_CFG_DROPS.at (16 * n)) =
        held (PzR.TIN_CFG_DROPS.at (16 * n)) (z.fld (PzR.TIN_CFG_DROPS.at (16 * n)) + 1) :=
  ⟨rfl, Pz.fld_addSat_same _ (PzR.TIN_CFG_DROPS.at (16 * n)) 1 (by decide : PzR.TIN_CFG_DROPS.hi < 32)⟩

/-- The queue of an input and its LEVEL. -/
theorem Pz.setTin_leaves (n : Nat) (q : List (Nat × Bool × Nat)) (z : Pz) (hq : q.length < 256) :
    tget (z.setTin n q).time.tin n = q ∧ (z.setTin n q).fld (PzR.TIN_CFG_LEVEL.at (16 * n)) = q.length :=
  ⟨tget_tput_same z.time.tin n q,
    (Pz.fld_setFld_same _ (PzR.TIN_CFG_LEVEL.at (16 * n)) _ (by decide : PzR.TIN_CFG_LEVEL.hi < 32)).trans
      (Nat.mod_eq_of_lt hq)⟩

theorem Pz.edgeStamped_leaves (n : Nat) (rising : Bool) (at_ : Nat) (z : Pz) (hn : n < 4)
    (hroom : (tget z.time.tin n).length < 64) :
    tget (z.edgeStamped n rising at_).time.tin n = tget z.time.tin n ++ [(at_, rising, tget z.time.tinLost n)] ∧
      (z.edgeStamped n rising at_).fld (PzR.TIN_CFG_LEVEL.at (16 * n)) = (tget z.time.tin n).length + 1 := by
  unfold Pz.edgeStamped
  extract_lets d time z'
  have hlen : (tget z.time.tin n ++ [(at_, rising, d)]).length = (tget z.time.tin n).length + 1 := List.length_append
  have hkept := Pz.clockKept_toTin n (tinItem at_ rising d) (z'.setTin n (tget z.time.tin n ++ [(at_, rising, d)]))
  obtain ⟨htin, hlevel⟩ := z'.setTin_leaves n (tget z.time.tin n ++ [(at_, rising, d)]) (by omega)
  have hoff : (PzR.TIN_CFG_LEVEL.at (16 * n)).off = 0x40300 + 16 * n := rfl
  rw [hkept.time, hkept.fld _ (by omega) (by omega), hlevel, hlen]
  exact ⟨htin, rfl⟩

theorem exec_tinDataRead (n : BitVec 2) (p : Port) (s : State) (h : Admitted s p (0x40304 + 16 * n.toNat)) :
    exec (.tinDataRead n p) s = .next { s with
      pz := Pz.tinRead n.toNat p (Config.freeWord s.freeCtr) { s.pz with rdata := 0 }, freeCtr := s.freeCtr + 1 } := by
  have hpass := Pz.guarded_pass p (viewAddr p (0x40304 + 16 * n.toNat)) (Pz.tinRead n.toNat p (Config.freeWord s.freeCtr))
    { s.pz with rdata := 0 } h.1 h.2
  exact congrArg (fun z => Host.Outcome.next { s with pz := z, freeCtr := s.freeCtr + 1 }) hpass

/-- A read takes the oldest stamp: its low word is read, its high word is kept for the requester (R11, R128). -/
theorem Pz.tinRead_oldest (n : Nat) (p : Port) (free : DWord) (z : Pz) (x : Nat × Bool × Nat) (rest : List (Nat × Bool × Nat))
    (hq : tget z.time.tin n = x :: rest) :
    (z.tinRead n p free).rdata = BitVec.ofNat 32 x.1 ∧ tget (z.tinRead n p free).time.tin n = rest ∧
      (z.tinRead n p free).caps.find? (fun c => c.1 == pzCapKey p (0x40308 + 16 * n)) =
        some (pzCapKey p (0x40308 + 16 * n), BitVec.ofNat 32 (x.1 / 2 ^ 32)) := by
  have hoff : 0x40304 + 16 * n + 4 = 0x40308 + 16 * n := by omega
  simp only [Pz.tinRead, hq, hoff]
  exact ⟨trivial, tget_tput_same z.time.tin n rest, List.find?_cons_of_pos (beq_self_eq_true _)⟩

/-- A read of an empty queue takes nothing; before any stamp it reads zero (assumption log 1). -/
theorem Pz.tinRead_empty (n : Nat) (p : Port) (free : DWord) (z : Pz) (hq : tget z.time.tin n = []) :
    tget (z.tinRead n p free).time.tin n = [] ∧
      (tblLookup z.time.tinAt n = none → (z.tinRead n p free).rdata = 0) := by
  refine ⟨?_, fun hnever => ?_⟩
  · simp only [Pz.tinRead, hq]
    exact hq
  · simp only [Pz.tinRead, hq, hnever]
    rfl

end Sys2Proof.Machine

namespace Sys2Proof.Claims

open Sys2Proof.Machine

/-! ## What the statements say, part by part -/

theorem ptpSends : PtpSends := by
  intro s dom
  refine ⟨fun p t1 hp hmaster => ⟨_, exec_ptpSyncSend p dom t1 s, ?sync⟩,
    fun p hp hmaster => ⟨_, s.pz.announced p.toNat dom, exec_ptpAnnounceSend p dom s, ?announce⟩,
    fun p seq src t4 hp hmaster => ?answer, fun p hother => ⟨?noAnnounce, fun t1 => ?noSync, fun seq src t4 => ?noAnswer⟩,
    fun u t3 hslave => ⟨_, exec_ptpDelayReqSend u dom t3 s, ?ask⟩, fun u t3 hother => ?noAsk⟩
  case sync =>
    rw [State.onPz_pz, onlyIf, if_pos (decide_eq_true hp), Pz.syncSend_master _ _ _ _ hmaster]
    exact ⟨rfl, congrArg PtpPort.seq (Pz.ptp_setPtp_same _ dom _ s.pz), rfl⟩
  case announce =>
    obtain ⟨hsender, hport⟩ := s.pz.announced_sender p.toNat dom
    rw [State.onPz_pz, onlyIf, if_pos (decide_eq_true hp), Pz.announceSend_master _ _ _ hmaster]
    exact ⟨rfl, hsender, hport, s.pz.announced_own _ dom, fun e q hbest hslave => s.pz.announced_heard _ dom e q hbest hslave⟩
  case answer =>
    rw [exec_ptpDelayReqRx, State.onPz, onlyIf, if_pos (decide_eq_true ⟨hp, hmaster⟩)]
    rfl
  case noAnnounce =>
    exact congrArg Host.Outcome.next (State.onPz_fixed s _ (onlyIf_fixed _ _ _ (Pz.announceSend_other _ _ _ hother)))
  case noSync =>
    exact congrArg Host.Outcome.next (State.onPz_fixed s _ (onlyIf_fixed _ _ _ (Pz.syncSend_other _ _ _ _ hother)))
  case noAnswer =>
    refine congrArg Host.Outcome.next (State.onPz_fixed s _ ?_)
    rw [onlyIf, decide_eq_false fun h => hother h.2]
    rfl
  case ask =>
    rw [State.onPz_pz, Pz.delayReq_slave _ _ _ _ hslave]
    exact ⟨rfl, congrArg PtpPort.dreq (Pz.ptp_setPtp_same _ dom _ s.pz)⟩
  case noAsk => exact congrArg Host.Outcome.next (State.onPz_fixed s _ (Pz.delayReq_other _ _ _ _ hother))

theorem ptpReceives : PtpReceives := by
  intro s u dom seq x asym slave
  have hfixed := fun g (h : g s.pz = s.pz) =>
    congrArg (Host.Outcome.next (φ := Fault) (ρ := Refusal)) (State.onPz_fixed s g h)
  refine ⟨fun origin corr t2 hother => hfixed _ (Pz.syncRx_other _ _ _ _ _ _ _ hother),
    fun t1 corr t2 hslave => ⟨_, exec_ptpSyncRx u dom seq (some t1) corr t2 s, ?oneStep⟩,
    fun corr t2 hslave => ⟨_, exec_ptpSyncRx u dom seq none corr t2 s, ?twoStep⟩,
    fun origin corr c t2 hsync hslave => ⟨_, exec_ptpFollowUpRx u dom seq origin corr s, ?followUp⟩,
    fun origin corr hsync => hfixed _ (Pz.followUp_none _ _ _ _ _ _ hsync),
    fun origin corr q t2 c hsync hq => hfixed _ (Pz.followUp_otherSync _ _ _ _ _ _ _ _ _ hsync hq),
    fun received corr t3 d hreq hdown hslave => ⟨_, exec_ptpDelayRespRx u dom seq received corr s, ?delay⟩,
    fun received corr hreq => hfixed _ (Pz.delayResp_unasked _ _ _ _ _ _ hreq),
    fun a hignored => hfixed _ (Pz.announceRx_ignored _ _ _ _ hignored),
    fun a hlink hsender hsteps hnone => ⟨_, exec_ptpAnnounceRx u dom a s, ?heard⟩,
    fun hdown => hfixed _ (Pz.announceTimeout_down _ _ _ hdown),
    fun hlink => ⟨_, exec_ptpAnnounceTimeout u dom s, ?forgotten⟩⟩
  case oneStep =>
    obtain ⟨hservo, hdown, -⟩ := s.pz.syncDone_leaves u dom ((t2 : Int) - t1 - corr)
    rw [State.onPz_pz, Pz.syncRx_oneStep _ _ _ _ _ _ _ hslave]
    exact ⟨hservo, hdown⟩
  case twoStep =>
    rw [State.onPz_pz, Pz.syncRx_twoStep _ _ _ _ _ _ hslave]
    exact ⟨congrArg PtpPort.sync (Pz.ptp_setPtp_same _ dom _ s.pz), rfl, rfl⟩
  case followUp =>
    obtain ⟨hservo, -, hgone⟩ := s.pz.syncDone_leaves u dom (t2 - origin - c - corr)
    rw [State.onPz_pz, Pz.followUp_completes _ _ _ _ _ _ _ _ hsync hslave]
    exact ⟨hservo, hgone⟩
  case delay =>
    have hport := Pz.ptp_setPtp_same (upNo u) dom
      (fun x => { x with dreq := none, mpd := (d + ((received : Int) - corr - t3)) / 2 }) s.pz
    rw [State.onPz_pz, Pz.delayResp_measures _ _ _ _ _ _ _ _ hreq hdown hslave, hport]
    exact ⟨rfl, rfl, rfl⟩
  case heard =>
    rw [State.onPz_pz, Pz.announceRx_first _ _ _ _ hlink hsender hsteps hnone, Pz.heard_bmca]
    exact congrArg PtpPort.heard (Pz.ptp_setPtp_same _ dom _ s.pz)
  case forgotten =>
    rw [State.onPz_pz, Pz.announceTimeout_forgets _ _ _ hlink, Pz.heard_bmca]
    exact congrArg PtpPort.heard (Pz.ptp_setPtp_same _ dom _ s.pz)

theorem stampsAndPulses : StampsAndPulses := by
  intro s
  have hfixed := fun g (h : g s.pz = s.pz) =>
    congrArg (Host.Outcome.next (φ := Fault) (ρ := Refusal)) (State.onPz_fixed s g h)
  refine ⟨fun fleet t1 r hroute hrole hlink => ⟨_, exec_timeCellSend fleet t1 s, ?cell⟩,
    fun fleet t1 hsilent => hfixed _ (Pz.timeCellSend_silent fleet t1 _ hsilent),
    fun hnone => hfixed _ (Pz.holdoverNext_none _ hnone),
    fun at_ hat hbegun => ⟨_, exec_holdoverThreshold s, fun hlevel => ?outOfSpec, fun hlevel => ?untimed⟩,
    fun n hsilent => hfixed _ (Pz.toutPulse_silent _ _ hsilent),
    fun n w at_ hup hnext => ⟨_, exec_toutPulse n s, ?pulse⟩,
    fun n high p data hadm => ⟨_, exec_toutOneshotWrite n high p data s hadm, s.pz.oneshotWrite_leaves n.toNat high data⟩,
    fun n rising at_ => ⟨fun hunseen => hfixed _ (Pz.tinEdge_unseen _ _ _ _ hunseen),
      fun last hlast hgap => hfixed _ (Pz.tinEdge_early _ _ _ last _ hlast hgap),
      fun hup hkind hgap => ⟨fun hroom => ⟨_, exec_triggerInputEdge n rising at_ s, ?stamped⟩,
        fun hfull => ⟨_, exec_triggerInputEdge n rising at_ s, ?dropped⟩⟩⟩,
    fun n p x rest hadm hq => ⟨_, exec_tinDataRead n p s hadm, Pz.tinRead_oldest n.toNat p _ _ x rest hq⟩,
    fun n p hadm hq => ⟨_, exec_tinDataRead n p s hadm, rfl, Pz.tinRead_empty n.toNat p _ _ hq⟩⟩
  case cell =>
    rw [State.onPz_pz, Pz.timeCellSend_sends _ _ _ r hroute hrole hlink]
    exact ⟨by simp, s.pz.advanceTo_now _, s.pz.advanceTo_regs _⟩
  case outOfSpec =>
    have hpassed := s.pz.hoPasses_above 100 at_
    rw [State.onPz_pz, Pz.holdoverNext_passes _ at_ hat hbegun (by omega), if_neg (by omega)]
    refine ⟨Pz.timeFlags_outOfSpec _ ?_, s.pz.now_le_hoPasses 100 at_⟩
    rw [s.pz.hoPasses_level 100 at_ hat hbegun, if_pos hpassed]
    split <;> decide
  case untimed =>
    rw [State.onPz_pz, Pz.holdoverNext_passes _ at_ hat hbegun (by omega), if_pos hlevel]
    refine ⟨Pz.timeFlags_untimed _ ?_, s.pz.now_le_hoPasses 500 at_⟩
    rw [s.pz.hoPasses_level 500 at_ hat hbegun, if_pos (s.pz.hoPasses_above 500 at_)]
  case pulse =>
    rw [State.onPz_pz, Pz.toutPulse_leaves _ w at_ _ hup hnext]
    exact ⟨s.pz.pulsed_now _ w at_, tblLookup_tblIns_same _ _ _, congrArg (· ++ _) (s.pz.advanceTo_out _)⟩
  case stamped =>
    obtain ⟨htin, hlost⟩ := s.pz.edgeAt_time n.toNat at_
    rw [State.onPz_pz, Pz.tinEdge_counts _ _ _ _ hup hkind hgap, if_neg (Nat.not_le.2 hroom), ← htin, ← hlost]
    exact Pz.edgeStamped_leaves _ rising at_ _ n.isLt (htin ▸ hroom)
  case dropped =>
    obtain ⟨htin, -⟩ := s.pz.edgeAt_time n.toNat at_
    obtain ⟨hqueue, hcount⟩ := Pz.edgeDropped_leaves n.toNat (s.pz.edgeAt n.toNat at_)
    rw [htin] at hqueue
    rw [Pz.edgeAt_fld] at hcount
    have hpz : (s.onPz (Pz.tinEdge n.toNat rising at_)).pz = (s.pz.edgeAt n.toNat at_).edgeDropped n.toNat :=
      (Pz.tinEdge_counts _ _ _ _ hup hkind hgap).trans (if_pos hfull)
    rw [pzCounts, hpz]
    exact ⟨hqueue, hcount⟩

/-! ## The obligation -/

/-- Settles O60: PTP messages sent and received, time cells, holdover, pulses and stamps of Polornaz. -/
theorem timeOfPolornaz : Obligations.TimeOfPolornaz :=
  ⟨ptpSends, ptpReceives, stampsAndPulses⟩

end Sys2Proof.Claims
end
